-- ==== Sys2Proof/Word.lean ====
section
/-! DEFINITION. The word types of the machine: bytes, 16-bit words, 20-bit addresses, and the two operand widths. -/

namespace Sys2Proof

/-- One byte of memory or of a byte register. -/
abbrev Byte := BitVec 8

/-- A 16-bit word (00_scope.md, notation). -/
abbrev Word := BitVec 16

/-- A 20-bit pointer register of the VM89 (10_state.md R71) or a physical address held in a register. -/
abbrev Addr20 := BitVec 20

/-- The temporary-real format BB of the VM87, 80 bits (10_state.md R50). -/
abbrev Ext80 := BitVec 80

/-- The operand width bit `w` (30_encoding.md R153). -/
inductive Width
  | byte
  | word
  deriving DecidableEq, Repr

/-- Four like things, numbered by two bits. -/
structure Bank4 (α : Type) where
  b0 : α
  b1 : α
  b2 : α
  b3 : α
  deriving DecidableEq, Repr

/-- Eight like things, numbered by three bits. -/
structure Bank8 (α : Type) where
  b0 : α
  b1 : α
  b2 : α
  b3 : α
  b4 : α
  b5 : α
  b6 : α
  b7 : α
  deriving DecidableEq, Repr

end Sys2Proof
end

