-- ==== Sys2Proof/Config.lean ====
section
/-! DEFINITION. What the spec leaves open and no proof may know: constants without a body. Each is applied to the
model's counter of free values (or, for a function the spec leaves to the implementation, to the operands too). -/

namespace Sys2Proof.Config

/-- An unknown bit (93_implementation_defined.md, treatment `any value`; log 39). -/
opaque freeBit : Nat → Bool

/-- An unknown byte. -/
opaque freeByte : Nat → Byte

/-- An unknown word. -/
opaque freeWord : Nat → Word

/-- An unknown number: the choice among outcomes a table permits. -/
opaque freeNat : Nat → Nat

/-- An unknown temporary-real value. -/
opaque freeExt : Nat → Ext80

/-- Which agent takes the bus when the agenda names none and the CPU and another processor are both ready
(20_memory.md R121, 92_eei_decisions.md D45; log 10): true is the other. -/
opaque arbiter : Nat → Bool

/-! ### The RU55 -/

/-- The low bit of the timer's counter marks the first half of the period, as the recipe of R786 uses it; else the
counter starts from N there (49_platform_devices.md R786; log 36). -/
opaque ruMarksHalf : Bool

/-! ### The VM87 -/

/-- A built-in constant (number 0: pi, 1: log2 10, 2: log2 e, 3: lg 2, 4: ln 2) is the larger of the two temporary
reals around the true constant (U11; log 15). -/
opaque constUp : Nat → Bool

/-- The mantissa length that the reserved precision code PC = 01 gives (U9; log 22). -/
opaque reservedPrecision : Nat

end Sys2Proof.Config
end

