-- ==== Sys2Proof/Syntax.lean ====
section
/-! DEFINITION. The instruction syntax of the three processors: one constructor of `Instr` per row of the opcode
table (30_encoding.md, 47_vm87_instructions.md, 48_vm89_iop.md), with decoded operands only. -/

namespace Sys2Proof

/-- A general register code (30_encoding.md R154), named by its word register.
For byte operations the codes `sp bp si di` select AH, CH, DH, BH (10_state.md R21). -/
inductive GReg
  | ax | cx | dx | bx | sp | bp | si | di
  deriving DecidableEq, Repr

/-- A segment register code (10_state.md R24). -/
inductive SReg
  | es | cs | ss | ds
  deriving DecidableEq, Repr

/-- The direction bit `d` (30_encoding.md R153): the result goes to r/m (d = 0) or to the register (d = 1). -/
inductive Dir
  | toRm
  | toReg
  deriving DecidableEq, Repr

/-- The `v` bit of the shift opcodes (30_encoding.md R153). -/
inductive ShiftCount
  | one
  | cl
  deriving DecidableEq, Repr

/-- The eight rows of the effective-address table (20_memory.md R135). -/
inductive EaRow
  | bxSi | bxDi | bpSi | bpDi | si | di | bp | bx
  deriving DecidableEq, Repr

/-- A memory operand of the postbyte (20_memory.md R135, 30_encoding.md R156). -/
inductive MemOp
  | direct (disp : Word)              -- md = 00, r/m = 110
  | noDisp (row : EaRow)              -- md = 00, every other r/m
  | disp8 (row : EaRow) (disp : Byte) -- md = 01
  | disp16 (row : EaRow) (disp : Word) -- md = 10
  deriving DecidableEq, Repr

/-- The r/m operand: a register (md = 11) or memory. -/
inductive RM
  | reg (r : GReg)
  | mem (m : MemOp)
  deriving DecidableEq, Repr

/-- An immediate of the width the `w` bit selects (30_encoding.md R157). -/
inductive Imm
  | b (v : Byte)
  | w (v : Word)
  deriving DecidableEq, Repr

/-- The immediate of the opcodes `100000 s w` (30_encoding.md R153, R157). -/
inductive AluImm
  | b (v : Byte)      -- 80h
  | w (v : Word)      -- 81h
  | bAlias (v : Byte) -- 82h: as 80h
  | sx (v : Byte)     -- 83h: one byte, sign-extended
  deriving DecidableEq, Repr

/-- A register code RRR of the VM89 (10_state.md R71). -/
inductive IReg
  | ga | gb | gc | bc | tp | ix | cc | mc
  deriving DecidableEq, Repr

/-- A pointer register code PPP of the VM89 (48_vm89_iop.md R591). -/
inductive IPtr
  | ga | gb | gc | tp
  deriving DecidableEq, Repr

/-- A base register code MM of the VM89 (48_vm89_iop.md R591). -/
inductive IBase
  | ga | gb | gc | pp
  deriving DecidableEq, Repr

/-- A memory operand of the VM89, by the field AA (48_vm89_iop.md R592). -/
inductive IMem
  | base (b : IBase)                 -- AA = 00
  | off (b : IBase) (o : Byte)       -- AA = 01
  | idx (b : IBase)                  -- AA = 10
  | idxInc (b : IBase)               -- AA = 11
  deriving DecidableEq, Repr

/-- One instruction of the K1810 set: VM86/VM88 (the three kinds of leading byte are instructions of their own,
log 8), VM87, VM89. Each constructor is one row of spec/opcode_table.json, in the table's order. -/
inductive Instr
  -- VM86 / VM88
  | movRmR (d : Dir) (w : Width) (r : GReg) (rm : RM)
  | movRmImm (rm : RM) (v : Imm)
  | movRImm (r : GReg) (v : Imm)
  | movAcc (d : Dir) (w : Width) (a : Word)
  | movSrRm (sr : SReg) (rm : RM)
  | movRmSr (sr : SReg) (rm : RM)
  | xchgRRm (w : Width) (r : GReg) (rm : RM)
  | xchgAxR (r : GReg)
  | nop
  | xlat
  | lea (r : GReg) (m : MemOp)
  | lds (r : GReg) (m : MemOp)
  | les (r : GReg) (m : MemOp)
  | lahf
  | sahf
  | pushRm (rm : RM)
  | pushR (r : GReg)
  | pushSr (sr : SReg)
  | popRm (rm : RM)
  | popR (r : GReg)
  | popSr (sr : SReg)
  | pushf
  | popf
  | inPort (w : Width) (p : Byte)
  | inDx (w : Width)
  | outPort (w : Width) (p : Byte)
  | outDx (w : Width)
  | addRmR (d : Dir) (w : Width) (r : GReg) (rm : RM)
  | addRmImm (rm : RM) (v : AluImm)
  | addAccImm (v : Imm)
  | adcRmR (d : Dir) (w : Width) (r : GReg) (rm : RM)
  | adcRmImm (rm : RM) (v : AluImm)
  | adcAccImm (v : Imm)
  | subRmR (d : Dir) (w : Width) (r : GReg) (rm : RM)
  | subRmImm (rm : RM) (v : AluImm)
  | subAccImm (v : Imm)
  | sbbRmR (d : Dir) (w : Width) (r : GReg) (rm : RM)
  | sbbRmImm (rm : RM) (v : AluImm)
  | sbbAccImm (v : Imm)
  | cmpRmR (d : Dir) (w : Width) (r : GReg) (rm : RM)
  | cmpRmImm (rm : RM) (v : AluImm)
  | cmpAccImm (v : Imm)
  | incRm (w : Width) (rm : RM)
  | incR (r : GReg)
  | decRm (w : Width) (rm : RM)
  | decR (r : GReg)
  | negRm (w : Width) (rm : RM)
  | mulRm (w : Width) (rm : RM)
  | imulRm (w : Width) (rm : RM)
  | divRm (w : Width) (rm : RM)
  | idivRm (w : Width) (rm : RM)
  | cbw
  | cwd
  | daa
  | das
  | aaa
  | aas
  | aam
  | aad
  | andRmR (d : Dir) (w : Width) (r : GReg) (rm : RM)
  | andRmImm (rm : RM) (v : Imm)
  | andAccImm (v : Imm)
  | orRmR (d : Dir) (w : Width) (r : GReg) (rm : RM)
  | orRmImm (rm : RM) (v : Imm)
  | orAccImm (v : Imm)
  | xorRmR (d : Dir) (w : Width) (r : GReg) (rm : RM)
  | xorRmImm (rm : RM) (v : Imm)
  | xorAccImm (v : Imm)
  | testRmR (w : Width) (r : GReg) (rm : RM)
  | testRmImm (rm : RM) (v : Imm)
  | testAccImm (v : Imm)
  | notRm (w : Width) (rm : RM)
  | rolRm (c : ShiftCount) (w : Width) (rm : RM)
  | rorRm (c : ShiftCount) (w : Width) (rm : RM)
  | rclRm (c : ShiftCount) (w : Width) (rm : RM)
  | rcrRm (c : ShiftCount) (w : Width) (rm : RM)
  | shlRm (c : ShiftCount) (w : Width) (rm : RM)
  | shrRm (c : ShiftCount) (w : Width) (rm : RM)
  | sarRm (c : ShiftCount) (w : Width) (rm : RM)
  | movs (w : Width)
  | cmps (w : Width)
  | scas (w : Width)
  | lods (w : Width)
  | stos (w : Width)
  | repPrefix (z : Bool)
  | jmpShort (rel : Byte)
  | jmpNear (rel : Word)
  | jmpRm (rm : RM)
  | jmpFar (off : Word) (seg : Word)
  | jmpMem (m : MemOp)
  | callNear (rel : Word)
  | callRm (rm : RM)
  | callFar (off : Word) (seg : Word)
  | callMem (m : MemOp)
  | retNear
  | retFar
  | retNearImm (n : Word)
  | retFarImm (n : Word)
  | jo (rel : Byte)
  | jno (rel : Byte)
  | jb (rel : Byte)
  | jnb (rel : Byte)
  | je (rel : Byte)
  | jne (rel : Byte)
  | jbe (rel : Byte)
  | ja (rel : Byte)
  | js (rel : Byte)
  | jns (rel : Byte)
  | jp (rel : Byte)
  | jnp (rel : Byte)
  | jl (rel : Byte)
  | jge (rel : Byte)
  | jle (rel : Byte)
  | jg (rel : Byte)
  | loopne (rel : Byte)
  | loope (rel : Byte)
  | loop (rel : Byte)
  | jcxz (rel : Byte)
  | intN (n : Byte)
  | int3
  | into
  | iret
  | clc
  | stc
  | cmc
  | cld
  | std
  | cli
  | sti
  | hlt
  | wait
  | esc (x : BitVec 3) (y : BitVec 3) (rm : RM)
  | lockPrefix
  | segPrefix (sr : SReg)
  -- VM87
  | fldM32 (m : MemOp)
  | fldM64 (m : MemOp)
  | fldM80 (m : MemOp)
  | fldSti (i : BitVec 3)
  | fildM16i (m : MemOp)
  | fildM32i (m : MemOp)
  | fildM64i (m : MemOp)
  | fbldM80 (m : MemOp)
  | fstM32 (m : MemOp)
  | fstM64 (m : MemOp)
  | fstSti (i : BitVec 3)
  | fistM16i (m : MemOp)
  | fistM32i (m : MemOp)
  | fstpM32 (m : MemOp)
  | fstpM64 (m : MemOp)
  | fstpM80 (m : MemOp)
  | fstpSti (i : BitVec 3)
  | fistpM16i (m : MemOp)
  | fistpM32i (m : MemOp)
  | fistpM64i (m : MemOp)
  | fbstpM80 (m : MemOp)
  | fxchSti (i : BitVec 3)
  | fldz
  | fld1
  | fldpi
  | fldl2t
  | fldl2e
  | fldlg2
  | fldln2
  | fcomM32 (m : MemOp)
  | fcomM64 (m : MemOp)
  | fcomSti (i : BitVec 3)
  | ficomM16i (m : MemOp)
  | ficomM32i (m : MemOp)
  | fcompM32 (m : MemOp)
  | fcompM64 (m : MemOp)
  | fcompSti (i : BitVec 3)
  | ficompM16i (m : MemOp)
  | ficompM32i (m : MemOp)
  | fcompp
  | ftst
  | fxam
  | faddM32 (m : MemOp)
  | faddM64 (m : MemOp)
  | faddStSti (i : BitVec 3)
  | faddStiSt (i : BitVec 3)
  | fiaddM16i (m : MemOp)
  | fiaddM32i (m : MemOp)
  | faddpStiSt (i : BitVec 3)
  | fmulM32 (m : MemOp)
  | fmulM64 (m : MemOp)
  | fmulStSti (i : BitVec 3)
  | fmulStiSt (i : BitVec 3)
  | fimulM16i (m : MemOp)
  | fimulM32i (m : MemOp)
  | fmulpStiSt (i : BitVec 3)
  | fsubM32 (m : MemOp)
  | fsubM64 (m : MemOp)
  | fsubStSti (i : BitVec 3)
  | fsubStiSt (i : BitVec 3)
  | fsubrM32 (m : MemOp)
  | fsubrM64 (m : MemOp)
  | fsubrStSti (i : BitVec 3)
  | fsubrStiSt (i : BitVec 3)
  | fdivM32 (m : MemOp)
  | fdivM64 (m : MemOp)
  | fdivStSti (i : BitVec 3)
  | fdivStiSt (i : BitVec 3)
  | fdivrM32 (m : MemOp)
  | fdivrM64 (m : MemOp)
  | fdivrStSti (i : BitVec 3)
  | fdivrStiSt (i : BitVec 3)
  | fsubpStiSt (i : BitVec 3)
  | fsubrpStiSt (i : BitVec 3)
  | fisubM16i (m : MemOp)
  | fisubM32i (m : MemOp)
  | fisubrM16i (m : MemOp)
  | fisubrM32i (m : MemOp)
  | fdivpStiSt (i : BitVec 3)
  | fdivrpStiSt (i : BitVec 3)
  | fidivM16i (m : MemOp)
  | fidivM32i (m : MemOp)
  | fidivrM16i (m : MemOp)
  | fidivrM32i (m : MemOp)
  | fsqrt
  | fscale
  | fprem
  | frndint
  | fxtract
  | fabs
  | fchs
  | fptan
  | fpatan
  | f2xm1
  | fyl2x
  | fyl2xp1
  | fincstp
  | fdecstp
  | fnop
  | finit
  | feni
  | fdisi
  | fclex
  | fldcw (m : MemOp)
  | fstcw (m : MemOp)
  | fstsw (m : MemOp)
  | fstenv (m : MemOp)
  | fldenv (m : MemOp)
  | fsave (m : MemOp)
  | frstor (m : MemOp)
  | ffreeSti (i : BitVec 3)
  -- VM89
  | iMovRegMem (r : IReg) (m : IMem)
  | iMovMemReg (m : IMem) (r : IReg)
  | iMovMemMem (src : IMem) (dst : IMem)
  | iMovbRegMem (r : IReg) (m : IMem)
  | iMovbMemReg (m : IMem) (r : IReg)
  | iMovbMemMem (src : IMem) (dst : IMem)
  | iMoviRegData (r : IReg) (v : Word)
  | iMoviMemData (m : IMem) (v : Word)
  | iMovbiRegData (r : IReg) (v : Byte)
  | iMovbiMemData (m : IMem) (v : Byte)
  | iMovpPtrMem (p : IPtr) (m : IMem)
  | iMovpMemPtr (m : IMem) (p : IPtr)
  | iLpdPtrMem (p : IPtr) (m : IMem)
  | iLpdiPtr (p : IPtr) (off : Word) (seg : Word)
  | iAddRegMem (r : IReg) (m : IMem)
  | iAddMemReg (m : IMem) (r : IReg)
  | iAddbRegMem (r : IReg) (m : IMem)
  | iAddbMemReg (m : IMem) (r : IReg)
  | iAddiRegData (r : IReg) (v : Word)
  | iAddiMemData (m : IMem) (v : Word)
  | iAddbiRegData (r : IReg) (v : Byte)
  | iAddbiMemData (m : IMem) (v : Byte)
  | iIncReg (r : IReg)
  | iIncMem (m : IMem)
  | iIncbMem (m : IMem)
  | iDecReg (r : IReg)
  | iDecMem (m : IMem)
  | iDecbMem (m : IMem)
  | iAndRegMem (r : IReg) (m : IMem)
  | iAndMemReg (m : IMem) (r : IReg)
  | iAndbRegMem (r : IReg) (m : IMem)
  | iAndbMemReg (m : IMem) (r : IReg)
  | iAndiRegData (r : IReg) (v : Word)
  | iAndiMemData (m : IMem) (v : Word)
  | iAndbiRegData (r : IReg) (v : Byte)
  | iAndbiMemData (m : IMem) (v : Byte)
  | iOrRegMem (r : IReg) (m : IMem)
  | iOrMemReg (m : IMem) (r : IReg)
  | iOrbRegMem (r : IReg) (m : IMem)
  | iOrbMemReg (m : IMem) (r : IReg)
  | iOriRegData (r : IReg) (v : Word)
  | iOriMemData (m : IMem) (v : Word)
  | iOrbiRegData (r : IReg) (v : Byte)
  | iOrbiMemData (m : IMem) (v : Byte)
  | iNotReg (r : IReg)
  | iNotMem (m : IMem)
  | iNotRegMem (r : IReg) (m : IMem)
  | iNotbMem (m : IMem)
  | iNotbRegMem (r : IReg) (m : IMem)
  | iSetbMem (m : IMem) (b : BitVec 3)
  | iClrMem (m : IMem) (b : BitVec 3)
  | iCallMem (m : IMem) (rel : Byte)
  | iLcallMem (m : IMem) (rel : Word)
  | iJmp (rel : Byte)
  | iLjmp (rel : Word)
  | iJzReg (r : IReg) (rel : Byte)
  | iJzMem (m : IMem) (rel : Byte)
  | iLjzReg (r : IReg) (rel : Word)
  | iLjzMem (m : IMem) (rel : Word)
  | iJzbMem (m : IMem) (rel : Byte)
  | iLjzbMem (m : IMem) (rel : Word)
  | iJnzReg (r : IReg) (rel : Byte)
  | iJnzMem (m : IMem) (rel : Byte)
  | iLjnzReg (r : IReg) (rel : Word)
  | iLjnzMem (m : IMem) (rel : Word)
  | iJnzbMem (m : IMem) (rel : Byte)
  | iLjnzbMem (m : IMem) (rel : Word)
  | iJmceMem (m : IMem) (rel : Byte)
  | iLjmceMem (m : IMem) (rel : Word)
  | iJmcneMem (m : IMem) (rel : Byte)
  | iLjmcneMem (m : IMem) (rel : Word)
  | iJbtMem (m : IMem) (b : BitVec 3) (rel : Byte)
  | iLjbtMem (m : IMem) (b : BitVec 3) (rel : Word)
  | iJnbtMem (m : IMem) (b : BitVec 3) (rel : Byte)
  | iLjnbtMem (m : IMem) (b : BitVec 3) (rel : Word)
  | iTslMemData (m : IMem) (v : Byte) (rel : Byte)
  | iWid (src16 : Bool) (dst16 : Bool)
  | iXfer
  | iSintr
  | iHlt
  | iNop
  deriving DecidableEq, Repr

/-- Why bytes are no instruction. -/
inductive DecodeError
  /-- The bytes end before the instruction does. -/
  | truncated
  /-- A first byte or postbyte combination the VM86 tables do not list (93_implementation_defined.md U6). -/
  | unusedOpcode
  /-- A register operand where the instruction takes memory only (U4). -/
  | registerForm
  /-- POP CS or MOV CS,r/m (U3, U7). -/
  | loadCs
  /-- The second byte of AAM or AAD is not 0Ah (92_eei_decisions.md D16). -/
  | notBaseTen
  /-- A VM89 opcode or field combination that Table 4.7 does not list (U28). -/
  | iopUnused
  /-- A VM89 register code where a pointer register is required (U27). -/
  | iopPointer
  deriving DecidableEq, Repr

end Sys2Proof
end

