-- ==== Sys2Proof/Decode.lean ====
section
/-! DEFINITION. The decoders of the VM86/VM88 (with the VM87 inside the ESC codes) and of the VM89, total on any
bytes, and the encoder written from the same tables. Bytes are listed in the order of their addresses. -/

namespace Sys2Proof

-- Lean's runtime has no tag for a constructor beyond the 244th of an inductive type, so code that builds an
-- `Instr` cannot be compiled; the kernel evaluates it all the same.
noncomputable section

/-! ### Field codes -/

/-- The three-bit code of a general register (30_encoding.md R154). -/
def GReg.code : GReg → Nat
  | .ax => 0 | .cx => 1 | .dx => 2 | .bx => 3 | .sp => 4 | .bp => 5 | .si => 6 | .di => 7

/-- The general register of a code; codes above 7 do not arise from a three-bit field. -/
def GReg.ofCode : Nat → GReg
  | 0 => .ax | 1 => .cx | 2 => .dx | 3 => .bx | 4 => .sp | 5 => .bp | 6 => .si | _ => .di

/-- The two-bit code of a segment register (10_state.md R24). -/
def SReg.code : SReg → Nat
  | .es => 0 | .cs => 1 | .ss => 2 | .ds => 3

/-- The segment register of a two-bit code. -/
def SReg.ofCode : Nat → SReg
  | 0 => .es | 1 => .cs | 2 => .ss | _ => .ds

/-- The width bit (30_encoding.md R153). -/
def Width.code : Width → Nat
  | .byte => 0 | .word => 1

/-- The width of a `w` bit. -/
def Width.ofCode : Nat → Width
  | 0 => .byte | _ => .word

/-- The direction bit (30_encoding.md R153). -/
def Dir.code : Dir → Nat
  | .toRm => 0 | .toReg => 1

/-- The direction of a `d` bit. -/
def Dir.ofCode : Nat → Dir
  | 0 => .toRm | _ => .toReg

/-- The `v` bit of the shifts (30_encoding.md R153). -/
def ShiftCount.code : ShiftCount → Nat
  | .one => 0 | .cl => 1

/-- The shift count of a `v` bit. -/
def ShiftCount.ofCode : Nat → ShiftCount
  | 0 => .one | _ => .cl

/-- The r/m code of an effective-address row (20_memory.md R135). -/
def EaRow.code : EaRow → Nat
  | .bxSi => 0 | .bxDi => 1 | .bpSi => 2 | .bpDi => 3 | .si => 4 | .di => 5 | .bp => 6 | .bx => 7

/-- The effective-address row of an r/m code. -/
def EaRow.ofCode : Nat → EaRow
  | 0 => .bxSi | 1 => .bxDi | 2 => .bpSi | 3 => .bpDi | 4 => .si | 5 => .di | 6 => .bp | _ => .bx

/-- The VM89 register code RRR (48_vm89_iop.md R591). -/
def IReg.code : IReg → Nat
  | .ga => 0 | .gb => 1 | .gc => 2 | .bc => 3 | .tp => 4 | .ix => 5 | .cc => 6 | .mc => 7

/-- The VM89 register of a code. -/
def IReg.ofCode : Nat → IReg
  | 0 => .ga | 1 => .gb | 2 => .gc | 3 => .bc | 4 => .tp | 5 => .ix | 6 => .cc | _ => .mc

/-- The VM89 pointer code PPP (48_vm89_iop.md R591). -/
def IPtr.code : IPtr → Nat
  | .ga => 0 | .gb => 1 | .gc => 2 | .tp => 4

/-- The VM89 pointer register of a code; codes 3, 5, 6, 7 name none (93_implementation_defined.md U27). -/
def IPtr.ofCode : Nat → Except DecodeError IPtr
  | 0 => .ok .ga | 1 => .ok .gb | 2 => .ok .gc | 4 => .ok .tp | _ => .error .iopPointer

/-- The VM89 base code MM (48_vm89_iop.md R591). -/
def IBase.code : IBase → Nat
  | .ga => 0 | .gb => 1 | .gc => 2 | .pp => 3

/-- The VM89 base register of a code. -/
def IBase.ofCode : Nat → IBase
  | 0 => .ga | 1 => .gb | 2 => .gc | _ => .pp

/-! ### Byte streams -/

/-- The low byte of a word. -/
def lowByte (v : Word) : Byte := BitVec.ofNat 8 (v.toNat % 256)

/-- The high byte of a word. -/
def highByte (v : Word) : Byte := BitVec.ofNat 8 (v.toNat / 256)

/-- The word `h ++ l` (20_memory.md R103). -/
def wordOf (l h : Byte) : Word := BitVec.ofNat 16 (h.toNat * 256 + l.toNat)

/-- The two bytes of a word, low byte first (20_memory.md R110). -/
def wordBytes (v : Word) : List Byte := [lowByte v, highByte v]

/-- A byte given by its value. -/
def byteOf (n : Nat) : Byte := BitVec.ofNat 8 n

/-- Take one byte of the stream. -/
def take8 : List Byte → Except DecodeError (Byte × List Byte)
  | b :: r => .ok (b, r)
  | [] => .error .truncated

/-- Take one word of the stream, low byte first. -/
def take16 : List Byte → Except DecodeError (Word × List Byte)
  | l :: h :: r => .ok (wordOf l h, r)
  | _ => .error .truncated

/-- The result of decoding: the instruction and the bytes after it. -/
abbrev Decoded := Except DecodeError (Instr × List Byte)

/-- An instruction with no further bytes. -/
def plain (i : Instr) (r : List Byte) : Decoded := .ok (i, r)

/-- An instruction with one more byte. -/
def with8 (f : Byte → Instr) (r : List Byte) : Decoded :=
  match take8 r with
  | .ok (b, r) => .ok (f b, r)
  | .error e => .error e

/-- An instruction with one more word. -/
def with16 (f : Word → Instr) (r : List Byte) : Decoded :=
  match take16 r with
  | .ok (v, r) => .ok (f v, r)
  | .error e => .error e

/-- An instruction with two more words. -/
def with32 (f : Word → Word → Instr) (r : List Byte) : Decoded :=
  match take16 r with
  | .error e => .error e
  | .ok (a, r) => with16 (f a) r

/-- An immediate of the width of the `w` bit (30_encoding.md R157). -/
def withImm (w : Nat) (f : Imm → Instr) (r : List Byte) : Decoded :=
  match w with
  | 0 => with8 (fun b => f (.b b)) r
  | _ => with16 (fun v => f (.w v)) r

/-- The immediate of `100000 s w` (30_encoding.md R157, R167). -/
def withAluImm (sw : Nat) (f : AluImm → Instr) (r : List Byte) : Decoded :=
  match sw with
  | 0 => with8 (fun b => f (.b b)) r
  | 1 => with16 (fun v => f (.w v)) r
  | 2 => with8 (fun b => f (.bAlias b)) r
  | _ => with8 (fun b => f (.sx b)) r

/-! ### The postbyte -/

/-- The memory operand of md = 00, 01, 10 with the displacement bytes after the postbyte (30_encoding.md R156). -/
def decodeMem (md rm : Nat) (r : List Byte) : Except DecodeError (MemOp × List Byte) :=
  match md with
  | 0 =>
    if rm = 6 then
      match take16 r with
      | .ok (v, r) => .ok (.direct v, r)
      | .error e => .error e
    else .ok (.noDisp (EaRow.ofCode rm), r)
  | 1 =>
    match take8 r with
    | .ok (b, r) => .ok (.disp8 (EaRow.ofCode rm) b, r)
    | .error e => .error e
  | _ =>
    match take16 r with
    | .ok (v, r) => .ok (.disp16 (EaRow.ofCode rm) v, r)
    | .error e => .error e

/-- The r/m operand (30_encoding.md R155): md = 11 is a register. -/
def decodeRm (pb : Nat) (r : List Byte) : Except DecodeError (RM × List Byte) :=
  if pb / 64 = 3 then .ok (.reg (GReg.ofCode (pb % 8)), r)
  else
    match decodeMem (pb / 64) (pb % 8) r with
    | .ok (m, r) => .ok (.mem m, r)
    | .error e => .error e

/-- A postbyte instruction: `f reg rm rest` where `reg` is the field of bits 5-3. -/
def withPostbyte (f : Nat → RM → List Byte → Decoded) (r : List Byte) : Decoded :=
  match take8 r with
  | .error e => .error e
  | .ok (pb, r) =>
    match decodeRm pb.toNat r with
    | .error e => .error e
    | .ok (rm, r) => f (pb.toNat / 8 % 8) rm r

/-- An instruction whose r/m operand must be memory (93_implementation_defined.md U4). -/
def memOnly (rm : RM) (f : MemOp → Instr) (r : List Byte) : Decoded :=
  match rm with
  | .mem m => .ok (f m, r)
  | .reg _ => .error .registerForm

/-! ### VM87: the ESC table (47_vm87_instructions.md R550) -/

/-- The VM87 instruction with a memory operand for the ESC code `8 x + y`, if Table 3.11 lists it. -/
def fpuMem (code : Nat) (m : MemOp) : Option Instr :=
  match code with
  | 0 => some (.faddM32 m)
  | 1 => some (.fmulM32 m)
  | 2 => some (.fcomM32 m)
  | 3 => some (.fcompM32 m)
  | 4 => some (.fsubM32 m)
  | 5 => some (.fsubrM32 m)
  | 6 => some (.fdivM32 m)
  | 7 => some (.fdivrM32 m)
  | 8 => some (.fldM32 m)
  | 10 => some (.fstM32 m)
  | 11 => some (.fstpM32 m)
  | 12 => some (.fldenv m)
  | 13 => some (.fldcw m)
  | 14 => some (.fstenv m)
  | 15 => some (.fstcw m)
  | 16 => some (.fiaddM32i m)
  | 17 => some (.fimulM32i m)
  | 18 => some (.ficomM32i m)
  | 19 => some (.ficompM32i m)
  | 20 => some (.fisubM32i m)
  | 21 => some (.fisubrM32i m)
  | 22 => some (.fidivM32i m)
  | 23 => some (.fidivrM32i m)
  | 24 => some (.fildM32i m)
  | 26 => some (.fistM32i m)
  | 27 => some (.fistpM32i m)
  | 29 => some (.fldM80 m)
  | 31 => some (.fstpM80 m)
  | 32 => some (.faddM64 m)
  | 33 => some (.fmulM64 m)
  | 34 => some (.fcomM64 m)
  | 35 => some (.fcompM64 m)
  | 36 => some (.fsubM64 m)
  | 37 => some (.fsubrM64 m)
  | 38 => some (.fdivM64 m)
  | 39 => some (.fdivrM64 m)
  | 40 => some (.fldM64 m)
  | 42 => some (.fstM64 m)
  | 43 => some (.fstpM64 m)
  | 44 => some (.frstor m)
  | 46 => some (.fsave m)
  | 47 => some (.fstsw m)
  | 48 => some (.fiaddM16i m)
  | 49 => some (.fimulM16i m)
  | 50 => some (.ficomM16i m)
  | 51 => some (.ficompM16i m)
  | 52 => some (.fisubM16i m)
  | 53 => some (.fisubrM16i m)
  | 54 => some (.fidivM16i m)
  | 55 => some (.fidivrM16i m)
  | 56 => some (.fildM16i m)
  | 58 => some (.fistM16i m)
  | 59 => some (.fistpM16i m)
  | 60 => some (.fbldM80 m)
  | 61 => some (.fildM64i m)
  | 62 => some (.fbstpM80 m)
  | 63 => some (.fistpM64i m)
  | _ => none

/-- The VM87 instruction with md = 11 for the ESC code `8 x + y` and the field r/m, if Table 3.11 lists it. -/
def fpuReg (code n : Nat) : Option Instr :=
  match code with
  | 0 => some (.faddStSti (BitVec.ofNat 3 n))
  | 1 => some (.fmulStSti (BitVec.ofNat 3 n))
  | 2 => some (.fcomSti (BitVec.ofNat 3 n))
  | 3 => some (.fcompSti (BitVec.ofNat 3 n))
  | 4 => some (.fsubStSti (BitVec.ofNat 3 n))
  | 5 => some (.fsubrStSti (BitVec.ofNat 3 n))
  | 6 => some (.fdivStSti (BitVec.ofNat 3 n))
  | 7 => some (.fdivrStSti (BitVec.ofNat 3 n))
  | 8 => some (.fldSti (BitVec.ofNat 3 n))
  | 9 => some (.fxchSti (BitVec.ofNat 3 n))
  | 10 =>
    match n with
    | 0 => some .fnop
    | _ => none
  | 12 =>
    match n with
    | 0 => some .fchs
    | 1 => some .fabs
    | 4 => some .ftst
    | 5 => some .fxam
    | _ => none
  | 13 =>
    match n with
    | 0 => some .fld1
    | 1 => some .fldl2t
    | 2 => some .fldl2e
    | 3 => some .fldpi
    | 4 => some .fldlg2
    | 5 => some .fldln2
    | 6 => some .fldz
    | _ => none
  | 14 =>
    match n with
    | 0 => some .f2xm1
    | 1 => some .fyl2x
    | 2 => some .fptan
    | 3 => some .fpatan
    | 4 => some .fxtract
    | 6 => some .fdecstp
    | 7 => some .fincstp
    | _ => none
  | 15 =>
    match n with
    | 0 => some .fprem
    | 1 => some .fyl2xp1
    | 2 => some .fsqrt
    | 4 => some .frndint
    | 5 => some .fscale
    | _ => none
  | 28 =>
    match n with
    | 0 => some .feni
    | 1 => some .fdisi
    | 2 => some .fclex
    | 3 => some .finit
    | _ => none
  | 32 => some (.faddStiSt (BitVec.ofNat 3 n))
  | 33 => some (.fmulStiSt (BitVec.ofNat 3 n))
  | 36 => some (.fsubStiSt (BitVec.ofNat 3 n))
  | 37 => some (.fsubrStiSt (BitVec.ofNat 3 n))
  | 38 => some (.fdivStiSt (BitVec.ofNat 3 n))
  | 39 => some (.fdivrStiSt (BitVec.ofNat 3 n))
  | 40 => some (.ffreeSti (BitVec.ofNat 3 n))
  | 42 => some (.fstSti (BitVec.ofNat 3 n))
  | 43 => some (.fstpSti (BitVec.ofNat 3 n))
  | 48 => some (.faddpStiSt (BitVec.ofNat 3 n))
  | 49 => some (.fmulpStiSt (BitVec.ofNat 3 n))
  | 51 =>
    match n with
    | 1 => some .fcompp
    | _ => none
  | 52 => some (.fsubpStiSt (BitVec.ofNat 3 n))
  | 53 => some (.fsubrpStiSt (BitVec.ofNat 3 n))
  | 54 => some (.fdivpStiSt (BitVec.ofNat 3 n))
  | 55 => some (.fdivrpStiSt (BitVec.ofNat 3 n))
  | _ => none

/-- The VM87 row that an ESC with operand `rm` is, if any. -/
def fpuRow (x y : Nat) (rm : RM) : Option Instr :=
  match rm with
  | .mem m => fpuMem (8 * x + y) m
  | .reg g => fpuReg (8 * x + y) g.code

/-- An ESC instruction: a VM87 row where the table has one, else the plain ESC (45_processor_control.md R372). -/
def decodeEsc (x : Nat) (r : List Byte) : Decoded :=
  withPostbyte (fun y rm r =>
    match fpuRow x y rm with
    | some i => .ok (i, r)
    | none => .ok (.esc (BitVec.ofNat 3 x) (BitVec.ofNat 3 y) rm, r)) r

/-! ### VM86: the first-byte map (30_encoding.md R167) -/

/-- The register/memory form of the eight two-operand operations, by bits 5-3 of the first byte. -/
def aluRmR (k : Nat) (d : Dir) (w : Width) (g : GReg) (rm : RM) : Instr :=
  match k with
  | 0 => .addRmR d w g rm
  | 1 => .orRmR d w g rm
  | 2 => .adcRmR d w g rm
  | 3 => .sbbRmR d w g rm
  | 4 => .andRmR d w g rm
  | 5 => .subRmR d w g rm
  | 6 => .xorRmR d w g rm
  | _ => .cmpRmR d w g rm

/-- The accumulator-immediate form of the eight operations. -/
def aluAccImm (k : Nat) (v : Imm) : Instr :=
  match k with
  | 0 => .addAccImm v
  | 1 => .orAccImm v
  | 2 => .adcAccImm v
  | 3 => .sbbAccImm v
  | 4 => .andAccImm v
  | 5 => .subAccImm v
  | 6 => .xorAccImm v
  | _ => .cmpAccImm v

/-- Group 1, first bytes 80h-83h (30_encoding.md R167): the logic operations have no form with s = 1 (U6). -/
def decodeGroup1 (sw : Nat) (r : List Byte) : Decoded :=
  withPostbyte (fun k rm r =>
    match k with
    | 0 => withAluImm sw (.addRmImm rm) r
    | 2 => withAluImm sw (.adcRmImm rm) r
    | 3 => withAluImm sw (.sbbRmImm rm) r
    | 5 => withAluImm sw (.subRmImm rm) r
    | 7 => withAluImm sw (.cmpRmImm rm) r
    | 1 => if sw < 2 then withImm sw (.orRmImm rm) r else .error .unusedOpcode
    | 4 => if sw < 2 then withImm sw (.andRmImm rm) r else .error .unusedOpcode
    | _ => if sw < 2 then withImm sw (.xorRmImm rm) r else .error .unusedOpcode) r

/-- Group 2, first bytes D0h-D3h: shifts and rotates; reg = 110 is unused (U6). -/
def decodeGroup2 (vw : Nat) (r : List Byte) : Decoded :=
  let c := ShiftCount.ofCode (vw / 2)
  let w := Width.ofCode (vw % 2)
  withPostbyte (fun k rm r =>
    match k with
    | 0 => .ok (.rolRm c w rm, r)
    | 1 => .ok (.rorRm c w rm, r)
    | 2 => .ok (.rclRm c w rm, r)
    | 3 => .ok (.rcrRm c w rm, r)
    | 4 => .ok (.shlRm c w rm, r)
    | 5 => .ok (.shrRm c w rm, r)
    | 7 => .ok (.sarRm c w rm, r)
    | _ => .error .unusedOpcode) r

/-- Group 3, first bytes F6h, F7h; reg = 001 is unused (U6). -/
def decodeGroup3 (wb : Nat) (r : List Byte) : Decoded :=
  let w := Width.ofCode wb
  withPostbyte (fun k rm r =>
    match k with
    | 0 => withImm wb (.testRmImm rm) r
    | 2 => .ok (.notRm w rm, r)
    | 3 => .ok (.negRm w rm, r)
    | 4 => .ok (.mulRm w rm, r)
    | 5 => .ok (.imulRm w rm, r)
    | 6 => .ok (.divRm w rm, r)
    | 7 => .ok (.idivRm w rm, r)
    | _ => .error .unusedOpcode) r

/-- Group 4, first byte FEh. -/
def decodeGroup4 (r : List Byte) : Decoded :=
  withPostbyte (fun k rm r =>
    match k with
    | 0 => .ok (.incRm .byte rm, r)
    | 1 => .ok (.decRm .byte rm, r)
    | _ => .error .unusedOpcode) r

/-- Group 5, first byte FFh. -/
def decodeGroup5 (r : List Byte) : Decoded :=
  withPostbyte (fun k rm r =>
    match k with
    | 0 => .ok (.incRm .word rm, r)
    | 1 => .ok (.decRm .word rm, r)
    | 2 => .ok (.callRm rm, r)
    | 3 => memOnly rm .callMem r
    | 4 => .ok (.jmpRm rm, r)
    | 5 => memOnly rm .jmpMem r
    | 6 => .ok (.pushRm rm, r)
    | _ => .error .unusedOpcode) r

/-- First bytes 00h-3Fh. -/
def decode0 (op : Nat) (r : List Byte) : Decoded :=
  let k := op / 8
  match op % 8 with
  | 4 => withImm 0 (aluAccImm k) r
  | 5 => withImm 1 (aluAccImm k) r
  | 6 => if k < 4 then plain (.pushSr (SReg.ofCode k)) r else plain (.segPrefix (SReg.ofCode (k - 4))) r
  | 7 =>
    match k with
    | 1 => .error .loadCs
    | 4 => plain .daa r
    | 5 => plain .das r
    | 6 => plain .aaa r
    | 7 => plain .aas r
    | _ => plain (.popSr (SReg.ofCode k)) r
  | m =>
    withPostbyte (fun g rm r =>
      .ok (aluRmR k (Dir.ofCode (m / 2)) (Width.ofCode (m % 2)) (GReg.ofCode g) rm, r)) r

/-- The conditional jump of condition code `c` (30_encoding.md R171). -/
def jcc (c : Nat) (rel : Byte) : Instr :=
  match c with
  | 0 => .jo rel
  | 1 => .jno rel
  | 2 => .jb rel
  | 3 => .jnb rel
  | 4 => .je rel
  | 5 => .jne rel
  | 6 => .jbe rel
  | 7 => .ja rel
  | 8 => .js rel
  | 9 => .jns rel
  | 10 => .jp rel
  | 11 => .jnp rel
  | 12 => .jl rel
  | 13 => .jge rel
  | 14 => .jle rel
  | _ => .jg rel

/-- First bytes 80h-8Fh. -/
def decode8 (op : Nat) (r : List Byte) : Decoded :=
  match op - 0x80 with
  | 0 => decodeGroup1 0 r
  | 1 => decodeGroup1 1 r
  | 2 => decodeGroup1 2 r
  | 3 => decodeGroup1 3 r
  | 4 => withPostbyte (fun g rm r => .ok (.testRmR .byte (GReg.ofCode g) rm, r)) r
  | 5 => withPostbyte (fun g rm r => .ok (.testRmR .word (GReg.ofCode g) rm, r)) r
  | 6 => withPostbyte (fun g rm r => .ok (.xchgRRm .byte (GReg.ofCode g) rm, r)) r
  | 7 => withPostbyte (fun g rm r => .ok (.xchgRRm .word (GReg.ofCode g) rm, r)) r
  | 8 => withPostbyte (fun g rm r => .ok (.movRmR .toRm .byte (GReg.ofCode g) rm, r)) r
  | 9 => withPostbyte (fun g rm r => .ok (.movRmR .toRm .word (GReg.ofCode g) rm, r)) r
  | 10 => withPostbyte (fun g rm r => .ok (.movRmR .toReg .byte (GReg.ofCode g) rm, r)) r
  | 11 => withPostbyte (fun g rm r => .ok (.movRmR .toReg .word (GReg.ofCode g) rm, r)) r
  | 12 => withPostbyte (fun g rm r => if g < 4 then .ok (.movRmSr (SReg.ofCode g) rm, r) else .error .unusedOpcode) r
  | 13 => withPostbyte (fun g rm r => memOnly rm (.lea (GReg.ofCode g)) r) r
  | 14 => withPostbyte (fun g rm r =>
      if g = 1 then .error .loadCs
      else if g < 4 then .ok (.movSrRm (SReg.ofCode g) rm, r) else .error .unusedOpcode) r
  | _ => withPostbyte (fun g rm r => if g = 0 then .ok (.popRm rm, r) else .error .unusedOpcode) r

/-- First bytes 90h-9Fh. -/
def decode9 (op : Nat) (r : List Byte) : Decoded :=
  match op - 0x90 with
  | 0 => plain .nop r
  | 8 => plain .cbw r
  | 9 => plain .cwd r
  | 10 => with32 .callFar r
  | 11 => plain .wait r
  | 12 => plain .pushf r
  | 13 => plain .popf r
  | 14 => plain .sahf r
  | 15 => plain .lahf r
  | k => plain (.xchgAxR (GReg.ofCode k)) r

/-- First bytes A0h-AFh. -/
def decodeA (op : Nat) (r : List Byte) : Decoded :=
  let w := Width.ofCode (op % 2)
  match (op - 0xA0) / 2 with
  | 0 => with16 (.movAcc .toReg w) r
  | 1 => with16 (.movAcc .toRm w) r
  | 2 => plain (.movs w) r
  | 3 => plain (.cmps w) r
  | 4 => withImm (op % 2) .testAccImm r
  | 5 => plain (.stos w) r
  | 6 => plain (.lods w) r
  | _ => plain (.scas w) r

/-- First bytes C0h-CFh. -/
def decodeC (op : Nat) (r : List Byte) : Decoded :=
  match op - 0xC0 with
  | 2 => with16 .retNearImm r
  | 3 => plain .retNear r
  | 4 => withPostbyte (fun g rm r => memOnly rm (.les (GReg.ofCode g)) r) r
  | 5 => withPostbyte (fun g rm r => memOnly rm (.lds (GReg.ofCode g)) r) r
  | 6 => withPostbyte (fun g rm r => if g = 0 then withImm 0 (.movRmImm rm) r else .error .unusedOpcode) r
  | 7 => withPostbyte (fun g rm r => if g = 0 then withImm 1 (.movRmImm rm) r else .error .unusedOpcode) r
  | 10 => with16 .retFarImm r
  | 11 => plain .retFar r
  | 12 => plain .int3 r
  | 13 => with8 .intN r
  | 14 => plain .into r
  | 15 => plain .iret r
  | _ => .error .unusedOpcode

/-- The second byte of AAM and AAD must be 0Ah (92_eei_decisions.md D16). -/
def withBaseTen (i : Instr) (r : List Byte) : Decoded :=
  match take8 r with
  | .ok (b, r) => if b.toNat = 10 then .ok (i, r) else .error .notBaseTen
  | .error e => .error e

/-- First bytes D0h-DFh. -/
def decodeD (op : Nat) (r : List Byte) : Decoded :=
  match op - 0xD0 with
  | 0 => decodeGroup2 0 r
  | 1 => decodeGroup2 1 r
  | 2 => decodeGroup2 2 r
  | 3 => decodeGroup2 3 r
  | 4 => withBaseTen .aam r
  | 5 => withBaseTen .aad r
  | 6 => .error .unusedOpcode
  | 7 => plain .xlat r
  | k => decodeEsc (k - 8) r

/-- First bytes E0h-EFh. -/
def decodeE (op : Nat) (r : List Byte) : Decoded :=
  let w := Width.ofCode (op % 2)
  match op - 0xE0 with
  | 0 => with8 .loopne r
  | 1 => with8 .loope r
  | 2 => with8 .loop r
  | 3 => with8 .jcxz r
  | 4 => with8 (.inPort w) r
  | 5 => with8 (.inPort w) r
  | 6 => with8 (.outPort w) r
  | 7 => with8 (.outPort w) r
  | 8 => with16 .callNear r
  | 9 => with16 .jmpNear r
  | 10 => with32 .jmpFar r
  | 11 => with8 .jmpShort r
  | 12 => plain (.inDx w) r
  | 13 => plain (.inDx w) r
  | _ => plain (.outDx w) r

/-- First bytes F0h-FFh. -/
def decodeF (op : Nat) (r : List Byte) : Decoded :=
  match op - 0xF0 with
  | 0 => plain .lockPrefix r
  | 1 => .error .unusedOpcode
  | 2 => plain (.repPrefix false) r
  | 3 => plain (.repPrefix true) r
  | 4 => plain .hlt r
  | 5 => plain .cmc r
  | 6 => decodeGroup3 0 r
  | 7 => decodeGroup3 1 r
  | 8 => plain .clc r
  | 9 => plain .stc r
  | 10 => plain .cli r
  | 11 => plain .sti r
  | 12 => plain .cld r
  | 13 => plain .std r
  | 14 => decodeGroup4 r
  | _ => decodeGroup5 r

/-- The VM86/VM88 decoder (30_encoding.md R162, R167). A leading byte that R161 calls a part of the following
instruction is decoded as an instruction of its own (log 8). -/
def decode86 (bs : List Byte) : Decoded :=
  match bs with
  | [] => .error .truncated
  | b :: r =>
    let op := b.toNat
    if op < 0x40 then decode0 op r
    else if op < 0x48 then plain (.incR (GReg.ofCode (op % 8))) r
    else if op < 0x50 then plain (.decR (GReg.ofCode (op % 8))) r
    else if op < 0x58 then plain (.pushR (GReg.ofCode (op % 8))) r
    else if op < 0x60 then plain (.popR (GReg.ofCode (op % 8))) r
    else if op < 0x70 then .error .unusedOpcode
    else if op < 0x80 then with8 (jcc (op - 0x70)) r
    else if op < 0x90 then decode8 op r
    else if op < 0xA0 then decode9 op r
    else if op < 0xB0 then decodeA op r
    else if op < 0xC0 then withImm (op / 8 % 2) (.movRImm (GReg.ofCode (op % 8))) r
    else if op < 0xD0 then decodeC op r
    else if op < 0xE0 then decodeD op r
    else if op < 0xF0 then decodeE op r
    else decodeF op r

/-! ### VM89 (48_vm89_iop.md R590, Table 4.7) -/

/-- The memory operand of the fields AA and MM; its offset byte follows the two opcode bytes (R590, R592). -/
def decodeIMem (aa mm : Nat) (r : List Byte) : Except DecodeError (IMem × List Byte) :=
  match aa with
  | 0 => .ok (.base (IBase.ofCode mm), r)
  | 1 =>
    match take8 r with
    | .ok (o, r) => .ok (.off (IBase.ofCode mm) o, r)
    | .error e => .error e
  | 2 => .ok (.idx (IBase.ofCode mm), r)
  | _ => .ok (.idxInc (IBase.ofCode mm), r)

/-- The fields of the two opcode bytes of a VM89 instruction (R590). -/
structure IFields where
  rrr : Nat
  wb : Nat
  aa : Nat
  w : Nat
  op : Nat
  mm : Nat
  deriving DecidableEq, Repr

/-- Split the two opcode bytes. -/
def iFields (b1 b2 : Byte) : IFields :=
  { rrr := b1.toNat / 32, wb := b1.toNat / 8 % 4, aa := b1.toNat / 2 % 4, w := b1.toNat % 2,
    op := b2.toNat / 4, mm := b2.toNat % 4 }

/-- A VM89 instruction with a memory operand, and what follows its offset byte. -/
def iMem (f : IFields) (k : IMem → List Byte → Decoded) (r : List Byte) : Decoded :=
  match decodeIMem f.aa f.mm r with
  | .ok (m, r) => k m r
  | .error e => .error e

/-- The field R/B/P must be 000 in a row that has no register (Table 4.7). -/
def iNoReg (f : IFields) (d : Decoded) : Decoded :=
  if f.rrr = 0 then d else .error .iopUnused

/-- The fields AA and MM must be 00 in a row that has no memory operand (Table 4.7). -/
def iNoMem (f : IFields) (d : Decoded) : Decoded :=
  if f.aa = 0 ∧ f.mm = 0 then d else .error .iopUnused

/-- A row with a pointer register (U27). -/
def iPtr (f : IFields) (k : IPtr → Decoded) : Decoded :=
  match IPtr.ofCode f.rrr with
  | .ok p => k p
  | .error e => .error e

/-- The second half of a memory-to-memory move, `00000 AA W 110011 MM [offset]` (R600, R601). -/
def iSecondHalf (w : Nat) (k : IMem → Instr) (r : List Byte) : Decoded :=
  match r with
  | b1 :: b2 :: r =>
    let f := iFields b1 b2
    if f.rrr = 0 ∧ f.wb = 0 ∧ f.w = w ∧ f.op = 0x33 then iMem f (fun m r => .ok (k m, r)) r
    else .error .iopUnused
  | _ => .error .truncated

/-- The VM89 row of the fields, by opcode, W and WB (Table 4.7); anything else is unused (U28). -/
def decodeIRow (f : IFields) (r : List Byte) : Decoded :=
  match f.op * 8 + f.w * 4 + f.wb with
  | 0 =>
    iNoMem f
      (match f.rrr with
      | 0 => .ok (.iNop, r)
      | 1 => .error .iopUnused
      | 2 => .ok (.iSintr, r)
      | 3 => .ok (.iXfer, r)
      | k => .ok (.iWid (decide (k / 2 % 2 = 1)) (decide (k % 2 = 1)), r))
  | 22 => if f.aa = 0 then iPtr f (fun p => with32 (fun off seg => .iLpdiPtr p off seg) r) else .error .iopUnused
  | 65 => iNoMem f (if f.rrr = 4 then with8 .iJmp r else with8 (fun v => .iAddbiRegData (IReg.ofCode f.rrr) v) r)
  | 70 => iNoMem f (if f.rrr = 4 then with16 .iLjmp r else with16 (fun v => .iAddiRegData (IReg.ofCode f.rrr) v) r)
  | 73 => iNoMem f (with8 (fun v => .iOrbiRegData (IReg.ofCode f.rrr) v) r)
  | 78 => iNoMem f (with16 (fun v => .iOriRegData (IReg.ofCode f.rrr) v) r)
  | 81 => iNoMem f (with8 (fun v => .iAndbiRegData (IReg.ofCode f.rrr) v) r)
  | 86 => iNoMem f (with16 (fun v => .iAndiRegData (IReg.ofCode f.rrr) v) r)
  | 88 => iNoMem f (.ok (.iNotReg (IReg.ofCode f.rrr), r))
  | 97 => iNoMem f (with8 (fun v => .iMovbiRegData (IReg.ofCode f.rrr) v) r)
  | 102 => iNoMem f (with16 (fun v => .iMoviRegData (IReg.ofCode f.rrr) v) r)
  | 112 => iNoMem f (.ok (.iIncReg (IReg.ofCode f.rrr), r))
  | 120 => iNoMem f (.ok (.iDecReg (IReg.ofCode f.rrr), r))
  | 129 => iNoMem f (with8 (fun rel => .iJnzReg (IReg.ofCode f.rrr) rel) r)
  | 130 => iNoMem f (with16 (fun rel => .iLjnzReg (IReg.ofCode f.rrr) rel) r)
  | 137 => iNoMem f (with8 (fun rel => .iJzReg (IReg.ofCode f.rrr) rel) r)
  | 138 => iNoMem f (with16 (fun rel => .iLjzReg (IReg.ofCode f.rrr) rel) r)
  | 144 => if f.rrr = 1 then iNoMem f (.ok (.iHlt, r)) else .error .iopUnused
  | 153 => iNoReg f (iMem f (fun m r => with8 (fun v => .iMovbiMemData m v) r) r)
  | 158 => iNoReg f (iMem f (fun m r => with16 (fun v => .iMoviMemData m v) r) r)
  | 256 => iMem f (fun m r => .ok (.iMovbRegMem (IReg.ofCode f.rrr) m, r)) r
  | 260 => iMem f (fun m r => .ok (.iMovRegMem (IReg.ofCode f.rrr) m, r)) r
  | 264 => iMem f (fun m r => .ok (.iMovbMemReg m (IReg.ofCode f.rrr), r)) r
  | 268 => iMem f (fun m r => .ok (.iMovMemReg m (IReg.ofCode f.rrr), r)) r
  | 276 => iPtr f (fun p => iMem f (fun m r => .ok (.iLpdPtrMem p m, r)) r)
  | 284 => iPtr f (fun p => iMem f (fun m r => .ok (.iMovpPtrMem p m, r)) r)
  | 288 => iNoReg f (iMem f (fun m r => iSecondHalf 0 (.iMovbMemMem m) r) r)
  | 292 => iNoReg f (iMem f (fun m r => iSecondHalf 1 (.iMovMemMem m) r) r)
  | 299 => iNoReg f (iMem f (fun m r => (match take8 r with | .ok (v, r) => with8 (fun rel => .iTslMemData m v rel) r | .error e => .error e)) r)
  | 308 => iPtr f (fun p => iMem f (fun m r => .ok (.iMovpMemPtr m p, r)) r)
  | 317 => if f.rrr = 4 then iMem f (fun m r => with8 (fun rel => .iCallMem m rel) r) r else .error .iopUnused
  | 318 => if f.rrr = 4 then iMem f (fun m r => with16 (fun rel => .iLcallMem m rel) r) r else .error .iopUnused
  | 320 => iMem f (fun m r => .ok (.iAddbRegMem (IReg.ofCode f.rrr) m, r)) r
  | 324 => iMem f (fun m r => .ok (.iAddRegMem (IReg.ofCode f.rrr) m, r)) r
  | 328 => iMem f (fun m r => .ok (.iOrbRegMem (IReg.ofCode f.rrr) m, r)) r
  | 332 => iMem f (fun m r => .ok (.iOrRegMem (IReg.ofCode f.rrr) m, r)) r
  | 336 => iMem f (fun m r => .ok (.iAndbRegMem (IReg.ofCode f.rrr) m, r)) r
  | 340 => iMem f (fun m r => .ok (.iAndRegMem (IReg.ofCode f.rrr) m, r)) r
  | 344 => iMem f (fun m r => .ok (.iNotbRegMem (IReg.ofCode f.rrr) m, r)) r
  | 348 => iMem f (fun m r => .ok (.iNotRegMem (IReg.ofCode f.rrr) m, r)) r
  | 353 => iNoReg f (iMem f (fun m r => with8 (fun rel => .iJmceMem m rel) r) r)
  | 354 => iNoReg f (iMem f (fun m r => with16 (fun rel => .iLjmceMem m rel) r) r)
  | 361 => iNoReg f (iMem f (fun m r => with8 (fun rel => .iJmcneMem m rel) r) r)
  | 362 => iNoReg f (iMem f (fun m r => with16 (fun rel => .iLjmcneMem m rel) r) r)
  | 369 => iMem f (fun m r => with8 (fun rel => .iJnbtMem m (BitVec.ofNat 3 f.rrr) rel) r) r
  | 370 => iMem f (fun m r => with16 (fun rel => .iLjnbtMem m (BitVec.ofNat 3 f.rrr) rel) r) r
  | 377 => iMem f (fun m r => with8 (fun rel => .iJbtMem m (BitVec.ofNat 3 f.rrr) rel) r) r
  | 378 => iMem f (fun m r => with16 (fun rel => .iLjbtMem m (BitVec.ofNat 3 f.rrr) rel) r) r
  | 385 => iNoReg f (iMem f (fun m r => with8 (fun v => .iAddbiMemData m v) r) r)
  | 390 => iNoReg f (iMem f (fun m r => with16 (fun v => .iAddiMemData m v) r) r)
  | 393 => iNoReg f (iMem f (fun m r => with8 (fun v => .iOrbiMemData m v) r) r)
  | 398 => iNoReg f (iMem f (fun m r => with16 (fun v => .iOriMemData m v) r) r)
  | 401 => iNoReg f (iMem f (fun m r => with8 (fun v => .iAndbiMemData m v) r) r)
  | 406 => iNoReg f (iMem f (fun m r => with16 (fun v => .iAndiMemData m v) r) r)
  | 416 => iMem f (fun m r => .ok (.iAddbMemReg m (IReg.ofCode f.rrr), r)) r
  | 420 => iMem f (fun m r => .ok (.iAddMemReg m (IReg.ofCode f.rrr), r)) r
  | 424 => iMem f (fun m r => .ok (.iOrbMemReg m (IReg.ofCode f.rrr), r)) r
  | 428 => iMem f (fun m r => .ok (.iOrMemReg m (IReg.ofCode f.rrr), r)) r
  | 432 => iMem f (fun m r => .ok (.iAndbMemReg m (IReg.ofCode f.rrr), r)) r
  | 436 => iMem f (fun m r => .ok (.iAndMemReg m (IReg.ofCode f.rrr), r)) r
  | 440 => iNoReg f (iMem f (fun m r => .ok (.iNotbMem m, r)) r)
  | 444 => iNoReg f (iMem f (fun m r => .ok (.iNotMem m, r)) r)
  | 449 => iNoReg f (iMem f (fun m r => with8 (fun rel => .iJnzbMem m rel) r) r)
  | 450 => iNoReg f (iMem f (fun m r => with16 (fun rel => .iLjnzbMem m rel) r) r)
  | 453 => iNoReg f (iMem f (fun m r => with8 (fun rel => .iJnzMem m rel) r) r)
  | 454 => iNoReg f (iMem f (fun m r => with16 (fun rel => .iLjnzMem m rel) r) r)
  | 457 => iNoReg f (iMem f (fun m r => with8 (fun rel => .iJzbMem m rel) r) r)
  | 458 => iNoReg f (iMem f (fun m r => with16 (fun rel => .iLjzbMem m rel) r) r)
  | 461 => iNoReg f (iMem f (fun m r => with8 (fun rel => .iJzMem m rel) r) r)
  | 462 => iNoReg f (iMem f (fun m r => with16 (fun rel => .iLjzMem m rel) r) r)
  | 464 => iNoReg f (iMem f (fun m r => .ok (.iIncbMem m, r)) r)
  | 468 => iNoReg f (iMem f (fun m r => .ok (.iIncMem m, r)) r)
  | 472 => iNoReg f (iMem f (fun m r => .ok (.iDecbMem m, r)) r)
  | 476 => iNoReg f (iMem f (fun m r => .ok (.iDecMem m, r)) r)
  | 488 => iMem f (fun m r => .ok (.iSetbMem m (BitVec.ofNat 3 f.rrr), r)) r
  | 496 => iMem f (fun m r => .ok (.iClrMem m (BitVec.ofNat 3 f.rrr), r)) r
  | _ => .error .iopUnused

/-- The VM89 decoder (48_vm89_iop.md R590). -/
def decode89 (bs : List Byte) : Decoded :=
  match bs with
  | b1 :: b2 :: r => decodeIRow (iFields b1 b2) r
  | _ => .error .truncated

/-! ### The encoder -/

/-- The postbyte and displacement of an r/m operand with the field `reg` (30_encoding.md R155). -/
def encodeRm (g : Nat) : RM → List Byte
  | .reg r => [byteOf (192 + 8 * g + r.code)]
  | .mem (.direct v) => byteOf (8 * g + 6) :: wordBytes v
  | .mem (.noDisp e) => [byteOf (8 * g + e.code)]
  | .mem (.disp8 e b) => [byteOf (64 + 8 * g + e.code), b]
  | .mem (.disp16 e v) => byteOf (128 + 8 * g + e.code) :: wordBytes v

/-- The bytes of an immediate (30_encoding.md R157). -/
def Imm.bytes : Imm → List Byte
  | .b v => [v]
  | .w v => wordBytes v

/-- The `w` bit of an immediate. -/
def Imm.wCode : Imm → Nat
  | .b _ => 0
  | .w _ => 1

/-- The bytes of an immediate of `100000 s w`. -/
def AluImm.bytes : AluImm → List Byte
  | .b v => [v]
  | .w v => wordBytes v
  | .bAlias v => [v]
  | .sx v => [v]

/-- The bits `s w` of that immediate. -/
def AluImm.swCode : AluImm → Nat
  | .b _ => 0
  | .w _ => 1
  | .bAlias _ => 2
  | .sx _ => 3

/-- A two-operand instruction of bits 5-3 `k`: register/memory form. -/
def encAlu (k : Nat) (d : Dir) (w : Width) (g : GReg) (rm : RM) : List Byte :=
  byteOf (8 * k + 2 * d.code + w.code) :: encodeRm g.code rm

/-- A group 1 instruction (80h-83h). -/
def encAluImm (k : Nat) (rm : RM) (v : AluImm) : List Byte :=
  byteOf (0x80 + v.swCode) :: (encodeRm k rm ++ v.bytes)

/-- A group 1 logic instruction (80h, 81h). -/
def encLogImm (k : Nat) (rm : RM) (v : Imm) : List Byte :=
  byteOf (0x80 + v.wCode) :: (encodeRm k rm ++ v.bytes)

/-- An accumulator-immediate instruction. -/
def encAccImm (k : Nat) (v : Imm) : List Byte :=
  byteOf (8 * k + 4 + v.wCode) :: v.bytes

/-- A first byte with a `w` bit, and an r/m operand with the field `g`. -/
def encW (op : Nat) (w : Width) (g : Nat) (rm : RM) : List Byte :=
  byteOf (op + w.code) :: encodeRm g rm

/-- A shift or rotate. -/
def encShift (k : Nat) (c : ShiftCount) (w : Width) (rm : RM) : List Byte :=
  byteOf (0xD0 + 2 * c.code + w.code) :: encodeRm k rm

/-- A VM87 instruction with a memory operand (47_vm87_instructions.md R461). -/
def encFMem (x y : Nat) (m : MemOp) : List Byte :=
  byteOf (0xD8 + x) :: encodeRm y (.mem m)

/-- A VM87 instruction with md = 11. -/
def encFReg (x y n : Nat) : List Byte :=
  [byteOf (0xD8 + x), byteOf (192 + 8 * y + n)]

/-- The fields AA and MM and the offset byte of a VM89 memory operand (48_vm89_iop.md R592). -/
def IMem.aa : IMem → Nat
  | .base _ => 0
  | .off _ _ => 1
  | .idx _ => 2
  | .idxInc _ => 3

/-- The base register of a VM89 memory operand. -/
def IMem.baseReg : IMem → IBase
  | .base b => b
  | .off b _ => b
  | .idx b => b
  | .idxInc b => b

/-- The offset byte of a VM89 memory operand. -/
def IMem.offBytes : IMem → List Byte
  | .off _ o => [o]
  | _ => []

/-- The opcode bytes of a VM89 instruction with a memory operand, and its offset byte. -/
def encIMem (rrr wb w op : Nat) (m : IMem) : List Byte :=
  byteOf (rrr * 32 + wb * 8 + m.aa * 2 + w) :: byteOf (op * 4 + m.baseReg.code) :: m.offBytes

/-- The opcode bytes of a VM89 instruction without a memory operand. -/
def encIReg (rrr wb w op : Nat) : List Byte :=
  [byteOf (rrr * 32 + wb * 8 + w), byteOf (op * 4)]

/-- The bytes of a well-formed instruction, from the encoding column of the opcode table. -/
def encode : Instr → List Byte
  | .movRmR d w r rm => byteOf (0x88 + 2 * d.code + w.code) :: encodeRm r.code rm
  | .movRmImm rm v => byteOf (0xC6 + v.wCode) :: (encodeRm 0 rm ++ v.bytes)
  | .movRImm r v => byteOf (0xB0 + 8 * v.wCode + r.code) :: v.bytes
  | .movAcc d w a => byteOf (0xA2 - 2 * d.code + w.code) :: wordBytes a
  | .movSrRm sr rm => byteOf 0x8E :: encodeRm sr.code rm
  | .movRmSr sr rm => byteOf 0x8C :: encodeRm sr.code rm
  | .xchgRRm w r rm => byteOf (0x86 + w.code) :: encodeRm r.code rm
  | .xchgAxR r => [byteOf (0x90 + r.code)]
  | .nop => [byteOf 0x90]
  | .xlat => [byteOf 0xD7]
  | .lea r m => byteOf 0x8D :: encodeRm r.code (.mem m)
  | .lds r m => byteOf 0xC5 :: encodeRm r.code (.mem m)
  | .les r m => byteOf 0xC4 :: encodeRm r.code (.mem m)
  | .lahf => [byteOf 0x9F]
  | .sahf => [byteOf 0x9E]
  | .pushRm rm => byteOf 0xFF :: encodeRm 6 rm
  | .pushR r => [byteOf (0x50 + r.code)]
  | .pushSr sr => [byteOf (8 * sr.code + 6)]
  | .popRm rm => byteOf 0x8F :: encodeRm 0 rm
  | .popR r => [byteOf (0x58 + r.code)]
  | .popSr sr => [byteOf (8 * sr.code + 7)]
  | .pushf => [byteOf 0x9C]
  | .popf => [byteOf 0x9D]
  | .inPort w p => [byteOf (0xE4 + w.code), p]
  | .inDx w => [byteOf (0xEC + w.code)]
  | .outPort w p => [byteOf (0xE6 + w.code), p]
  | .outDx w => [byteOf (0xEE + w.code)]
  | .addRmR d w r rm => encAlu 0 d w r rm
  | .addRmImm rm v => encAluImm 0 rm v
  | .addAccImm v => encAccImm 0 v
  | .adcRmR d w r rm => encAlu 2 d w r rm
  | .adcRmImm rm v => encAluImm 2 rm v
  | .adcAccImm v => encAccImm 2 v
  | .subRmR d w r rm => encAlu 5 d w r rm
  | .subRmImm rm v => encAluImm 5 rm v
  | .subAccImm v => encAccImm 5 v
  | .sbbRmR d w r rm => encAlu 3 d w r rm
  | .sbbRmImm rm v => encAluImm 3 rm v
  | .sbbAccImm v => encAccImm 3 v
  | .cmpRmR d w r rm => encAlu 7 d w r rm
  | .cmpRmImm rm v => encAluImm 7 rm v
  | .cmpAccImm v => encAccImm 7 v
  | .incRm w rm => encW 0xFE w 0 rm
  | .incR r => [byteOf (0x40 + r.code)]
  | .decRm w rm => encW 0xFE w 1 rm
  | .decR r => [byteOf (0x48 + r.code)]
  | .negRm w rm => encW 0xF6 w 3 rm
  | .mulRm w rm => encW 0xF6 w 4 rm
  | .imulRm w rm => encW 0xF6 w 5 rm
  | .divRm w rm => encW 0xF6 w 6 rm
  | .idivRm w rm => encW 0xF6 w 7 rm
  | .cbw => [byteOf 0x98]
  | .cwd => [byteOf 0x99]
  | .daa => [byteOf 0x27]
  | .das => [byteOf 0x2F]
  | .aaa => [byteOf 0x37]
  | .aas => [byteOf 0x3F]
  | .aam => [byteOf 0xD4, byteOf 0x0A]
  | .aad => [byteOf 0xD5, byteOf 0x0A]
  | .andRmR d w r rm => encAlu 4 d w r rm
  | .andRmImm rm v => encLogImm 4 rm v
  | .andAccImm v => encAccImm 4 v
  | .orRmR d w r rm => encAlu 1 d w r rm
  | .orRmImm rm v => encLogImm 1 rm v
  | .orAccImm v => encAccImm 1 v
  | .xorRmR d w r rm => encAlu 6 d w r rm
  | .xorRmImm rm v => encLogImm 6 rm v
  | .xorAccImm v => encAccImm 6 v
  | .testRmR w r rm => encW 0x84 w r.code rm
  | .testRmImm rm v => byteOf (0xF6 + v.wCode) :: (encodeRm 0 rm ++ v.bytes)
  | .testAccImm v => byteOf (0xA8 + v.wCode) :: v.bytes
  | .notRm w rm => encW 0xF6 w 2 rm
  | .rolRm c w rm => encShift 0 c w rm
  | .rorRm c w rm => encShift 1 c w rm
  | .rclRm c w rm => encShift 2 c w rm
  | .rcrRm c w rm => encShift 3 c w rm
  | .shlRm c w rm => encShift 4 c w rm
  | .shrRm c w rm => encShift 5 c w rm
  | .sarRm c w rm => encShift 7 c w rm
  | .movs w => [byteOf (0xA4 + w.code)]
  | .cmps w => [byteOf (0xA6 + w.code)]
  | .scas w => [byteOf (0xAE + w.code)]
  | .lods w => [byteOf (0xAC + w.code)]
  | .stos w => [byteOf (0xAA + w.code)]
  | .repPrefix z => [byteOf (0xF2 + z.toNat)]
  | .jmpShort rel => [byteOf 0xEB, rel]
  | .jmpNear rel => byteOf 0xE9 :: wordBytes rel
  | .jmpRm rm => byteOf 0xFF :: encodeRm 4 rm
  | .jmpFar off seg => byteOf 0xEA :: (wordBytes off ++ wordBytes seg)
  | .jmpMem m => byteOf 0xFF :: encodeRm 5 (.mem m)
  | .callNear rel => byteOf 0xE8 :: wordBytes rel
  | .callRm rm => byteOf 0xFF :: encodeRm 2 rm
  | .callFar off seg => byteOf 0x9A :: (wordBytes off ++ wordBytes seg)
  | .callMem m => byteOf 0xFF :: encodeRm 3 (.mem m)
  | .retNear => [byteOf 0xC3]
  | .retFar => [byteOf 0xCB]
  | .retNearImm n => byteOf 0xC2 :: wordBytes n
  | .retFarImm n => byteOf 0xCA :: wordBytes n
  | .jo rel => [byteOf 0x70, rel]
  | .jno rel => [byteOf 0x71, rel]
  | .jb rel => [byteOf 0x72, rel]
  | .jnb rel => [byteOf 0x73, rel]
  | .je rel => [byteOf 0x74, rel]
  | .jne rel => [byteOf 0x75, rel]
  | .jbe rel => [byteOf 0x76, rel]
  | .ja rel => [byteOf 0x77, rel]
  | .js rel => [byteOf 0x78, rel]
  | .jns rel => [byteOf 0x79, rel]
  | .jp rel => [byteOf 0x7A, rel]
  | .jnp rel => [byteOf 0x7B, rel]
  | .jl rel => [byteOf 0x7C, rel]
  | .jge rel => [byteOf 0x7D, rel]
  | .jle rel => [byteOf 0x7E, rel]
  | .jg rel => [byteOf 0x7F, rel]
  | .loopne rel => [byteOf 0xE0, rel]
  | .loope rel => [byteOf 0xE1, rel]
  | .loop rel => [byteOf 0xE2, rel]
  | .jcxz rel => [byteOf 0xE3, rel]
  | .intN n => [byteOf 0xCD, n]
  | .int3 => [byteOf 0xCC]
  | .into => [byteOf 0xCE]
  | .iret => [byteOf 0xCF]
  | .clc => [byteOf 0xF8]
  | .stc => [byteOf 0xF9]
  | .cmc => [byteOf 0xF5]
  | .cld => [byteOf 0xFC]
  | .std => [byteOf 0xFD]
  | .cli => [byteOf 0xFA]
  | .sti => [byteOf 0xFB]
  | .hlt => [byteOf 0xF4]
  | .wait => [byteOf 0x9B]
  | .esc x y rm => byteOf (0xD8 + x.toNat) :: encodeRm y.toNat rm
  | .lockPrefix => [byteOf 0xF0]
  | .segPrefix sr => [byteOf (0x26 + 8 * sr.code)]
  | .fldM32 m => encFMem 1 0 m
  | .fldM64 m => encFMem 5 0 m
  | .fldM80 m => encFMem 3 5 m
  | .fldSti i => encFReg 1 0 i.toNat
  | .fildM16i m => encFMem 7 0 m
  | .fildM32i m => encFMem 3 0 m
  | .fildM64i m => encFMem 7 5 m
  | .fbldM80 m => encFMem 7 4 m
  | .fstM32 m => encFMem 1 2 m
  | .fstM64 m => encFMem 5 2 m
  | .fstSti i => encFReg 5 2 i.toNat
  | .fistM16i m => encFMem 7 2 m
  | .fistM32i m => encFMem 3 2 m
  | .fstpM32 m => encFMem 1 3 m
  | .fstpM64 m => encFMem 5 3 m
  | .fstpM80 m => encFMem 3 7 m
  | .fstpSti i => encFReg 5 3 i.toNat
  | .fistpM16i m => encFMem 7 3 m
  | .fistpM32i m => encFMem 3 3 m
  | .fistpM64i m => encFMem 7 7 m
  | .fbstpM80 m => encFMem 7 6 m
  | .fxchSti i => encFReg 1 1 i.toNat
  | .fldz => encFReg 1 5 6
  | .fld1 => encFReg 1 5 0
  | .fldpi => encFReg 1 5 3
  | .fldl2t => encFReg 1 5 1
  | .fldl2e => encFReg 1 5 2
  | .fldlg2 => encFReg 1 5 4
  | .fldln2 => encFReg 1 5 5
  | .fcomM32 m => encFMem 0 2 m
  | .fcomM64 m => encFMem 4 2 m
  | .fcomSti i => encFReg 0 2 i.toNat
  | .ficomM16i m => encFMem 6 2 m
  | .ficomM32i m => encFMem 2 2 m
  | .fcompM32 m => encFMem 0 3 m
  | .fcompM64 m => encFMem 4 3 m
  | .fcompSti i => encFReg 0 3 i.toNat
  | .ficompM16i m => encFMem 6 3 m
  | .ficompM32i m => encFMem 2 3 m
  | .fcompp => encFReg 6 3 1
  | .ftst => encFReg 1 4 4
  | .fxam => encFReg 1 4 5
  | .faddM32 m => encFMem 0 0 m
  | .faddM64 m => encFMem 4 0 m
  | .faddStSti i => encFReg 0 0 i.toNat
  | .faddStiSt i => encFReg 4 0 i.toNat
  | .fiaddM16i m => encFMem 6 0 m
  | .fiaddM32i m => encFMem 2 0 m
  | .faddpStiSt i => encFReg 6 0 i.toNat
  | .fmulM32 m => encFMem 0 1 m
  | .fmulM64 m => encFMem 4 1 m
  | .fmulStSti i => encFReg 0 1 i.toNat
  | .fmulStiSt i => encFReg 4 1 i.toNat
  | .fimulM16i m => encFMem 6 1 m
  | .fimulM32i m => encFMem 2 1 m
  | .fmulpStiSt i => encFReg 6 1 i.toNat
  | .fsubM32 m => encFMem 0 4 m
  | .fsubM64 m => encFMem 4 4 m
  | .fsubStSti i => encFReg 0 4 i.toNat
  | .fsubStiSt i => encFReg 4 4 i.toNat
  | .fsubrM32 m => encFMem 0 5 m
  | .fsubrM64 m => encFMem 4 5 m
  | .fsubrStSti i => encFReg 0 5 i.toNat
  | .fsubrStiSt i => encFReg 4 5 i.toNat
  | .fdivM32 m => encFMem 0 6 m
  | .fdivM64 m => encFMem 4 6 m
  | .fdivStSti i => encFReg 0 6 i.toNat
  | .fdivStiSt i => encFReg 4 6 i.toNat
  | .fdivrM32 m => encFMem 0 7 m
  | .fdivrM64 m => encFMem 4 7 m
  | .fdivrStSti i => encFReg 0 7 i.toNat
  | .fdivrStiSt i => encFReg 4 7 i.toNat
  | .fsubpStiSt i => encFReg 6 4 i.toNat
  | .fsubrpStiSt i => encFReg 6 5 i.toNat
  | .fisubM16i m => encFMem 6 4 m
  | .fisubM32i m => encFMem 2 4 m
  | .fisubrM16i m => encFMem 6 5 m
  | .fisubrM32i m => encFMem 2 5 m
  | .fdivpStiSt i => encFReg 6 6 i.toNat
  | .fdivrpStiSt i => encFReg 6 7 i.toNat
  | .fidivM16i m => encFMem 6 6 m
  | .fidivM32i m => encFMem 2 6 m
  | .fidivrM16i m => encFMem 6 7 m
  | .fidivrM32i m => encFMem 2 7 m
  | .fsqrt => encFReg 1 7 2
  | .fscale => encFReg 1 7 5
  | .fprem => encFReg 1 7 0
  | .frndint => encFReg 1 7 4
  | .fxtract => encFReg 1 6 4
  | .fabs => encFReg 1 4 1
  | .fchs => encFReg 1 4 0
  | .fptan => encFReg 1 6 2
  | .fpatan => encFReg 1 6 3
  | .f2xm1 => encFReg 1 6 0
  | .fyl2x => encFReg 1 6 1
  | .fyl2xp1 => encFReg 1 7 1
  | .fincstp => encFReg 1 6 7
  | .fdecstp => encFReg 1 6 6
  | .fnop => encFReg 1 2 0
  | .finit => encFReg 3 4 3
  | .feni => encFReg 3 4 0
  | .fdisi => encFReg 3 4 1
  | .fclex => encFReg 3 4 2
  | .fldcw m => encFMem 1 5 m
  | .fstcw m => encFMem 1 7 m
  | .fstsw m => encFMem 5 7 m
  | .fstenv m => encFMem 1 6 m
  | .fldenv m => encFMem 1 4 m
  | .fsave m => encFMem 5 6 m
  | .frstor m => encFMem 5 4 m
  | .ffreeSti i => encFReg 5 0 i.toNat
  | .iMovRegMem r m => encIMem r.code 0 1 32 m
  | .iMovMemReg m r => encIMem r.code 0 1 33 m
  | .iMovMemMem src dst => encIMem 0 0 1 36 src ++ encIMem 0 0 1 51 dst
  | .iMovbRegMem r m => encIMem r.code 0 0 32 m
  | .iMovbMemReg m r => encIMem r.code 0 0 33 m
  | .iMovbMemMem src dst => encIMem 0 0 0 36 src ++ encIMem 0 0 0 51 dst
  | .iMoviRegData r v => encIReg r.code 2 1 12 ++ wordBytes v
  | .iMoviMemData m v => encIMem 0 2 1 19 m ++ wordBytes v
  | .iMovbiRegData r v => encIReg r.code 1 0 12 ++ [v]
  | .iMovbiMemData m v => encIMem 0 1 0 19 m ++ [v]
  | .iMovpPtrMem p m => encIMem p.code 0 1 35 m
  | .iMovpMemPtr m p => encIMem p.code 0 1 38 m
  | .iLpdPtrMem p m => encIMem p.code 0 1 34 m
  | .iLpdiPtr p off seg => encIReg p.code 2 1 2 ++ wordBytes off ++ wordBytes seg
  | .iAddRegMem r m => encIMem r.code 0 1 40 m
  | .iAddMemReg m r => encIMem r.code 0 1 52 m
  | .iAddbRegMem r m => encIMem r.code 0 0 40 m
  | .iAddbMemReg m r => encIMem r.code 0 0 52 m
  | .iAddiRegData r v => encIReg r.code 2 1 8 ++ wordBytes v
  | .iAddiMemData m v => encIMem 0 2 1 48 m ++ wordBytes v
  | .iAddbiRegData r v => encIReg r.code 1 0 8 ++ [v]
  | .iAddbiMemData m v => encIMem 0 1 0 48 m ++ [v]
  | .iIncReg r => encIReg r.code 0 0 14
  | .iIncMem m => encIMem 0 0 1 58 m
  | .iIncbMem m => encIMem 0 0 0 58 m
  | .iDecReg r => encIReg r.code 0 0 15
  | .iDecMem m => encIMem 0 0 1 59 m
  | .iDecbMem m => encIMem 0 0 0 59 m
  | .iAndRegMem r m => encIMem r.code 0 1 42 m
  | .iAndMemReg m r => encIMem r.code 0 1 54 m
  | .iAndbRegMem r m => encIMem r.code 0 0 42 m
  | .iAndbMemReg m r => encIMem r.code 0 0 54 m
  | .iAndiRegData r v => encIReg r.code 2 1 10 ++ wordBytes v
  | .iAndiMemData m v => encIMem 0 2 1 50 m ++ wordBytes v
  | .iAndbiRegData r v => encIReg r.code 1 0 10 ++ [v]
  | .iAndbiMemData m v => encIMem 0 1 0 50 m ++ [v]
  | .iOrRegMem r m => encIMem r.code 0 1 41 m
  | .iOrMemReg m r => encIMem r.code 0 1 53 m
  | .iOrbRegMem r m => encIMem r.code 0 0 41 m
  | .iOrbMemReg m r => encIMem r.code 0 0 53 m
  | .iOriRegData r v => encIReg r.code 2 1 9 ++ wordBytes v
  | .iOriMemData m v => encIMem 0 2 1 49 m ++ wordBytes v
  | .iOrbiRegData r v => encIReg r.code 1 0 9 ++ [v]
  | .iOrbiMemData m v => encIMem 0 1 0 49 m ++ [v]
  | .iNotReg r => encIReg r.code 0 0 11
  | .iNotMem m => encIMem 0 0 1 55 m
  | .iNotRegMem r m => encIMem r.code 0 1 43 m
  | .iNotbMem m => encIMem 0 0 0 55 m
  | .iNotbRegMem r m => encIMem r.code 0 0 43 m
  | .iSetbMem m b => encIMem b.toNat 0 0 61 m
  | .iClrMem m b => encIMem b.toNat 0 0 62 m
  | .iCallMem m rel => encIMem 4 1 1 39 m ++ [rel]
  | .iLcallMem m rel => encIMem 4 2 1 39 m ++ wordBytes rel
  | .iJmp rel => encIReg 4 1 0 8 ++ [rel]
  | .iLjmp rel => encIReg 4 2 1 8 ++ wordBytes rel
  | .iJzReg r rel => encIReg r.code 1 0 17 ++ [rel]
  | .iJzMem m rel => encIMem 0 1 1 57 m ++ [rel]
  | .iLjzReg r rel => encIReg r.code 2 0 17 ++ wordBytes rel
  | .iLjzMem m rel => encIMem 0 2 1 57 m ++ wordBytes rel
  | .iJzbMem m rel => encIMem 0 1 0 57 m ++ [rel]
  | .iLjzbMem m rel => encIMem 0 2 0 57 m ++ wordBytes rel
  | .iJnzReg r rel => encIReg r.code 1 0 16 ++ [rel]
  | .iJnzMem m rel => encIMem 0 1 1 56 m ++ [rel]
  | .iLjnzReg r rel => encIReg r.code 2 0 16 ++ wordBytes rel
  | .iLjnzMem m rel => encIMem 0 2 1 56 m ++ wordBytes rel
  | .iJnzbMem m rel => encIMem 0 1 0 56 m ++ [rel]
  | .iLjnzbMem m rel => encIMem 0 2 0 56 m ++ wordBytes rel
  | .iJmceMem m rel => encIMem 0 1 0 44 m ++ [rel]
  | .iLjmceMem m rel => encIMem 0 2 0 44 m ++ wordBytes rel
  | .iJmcneMem m rel => encIMem 0 1 0 45 m ++ [rel]
  | .iLjmcneMem m rel => encIMem 0 2 0 45 m ++ wordBytes rel
  | .iJbtMem m b rel => encIMem b.toNat 1 0 47 m ++ [rel]
  | .iLjbtMem m b rel => encIMem b.toNat 2 0 47 m ++ wordBytes rel
  | .iJnbtMem m b rel => encIMem b.toNat 1 0 46 m ++ [rel]
  | .iLjnbtMem m b rel => encIMem b.toNat 2 0 46 m ++ wordBytes rel
  | .iTslMemData m v rel => encIMem 0 3 0 37 m ++ [v] ++ [rel]
  | .iWid src16 dst16 => encIReg (4 + 2 * src16.toNat + dst16.toNat) 0 0 0
  | .iXfer => encIReg 3 0 0 0
  | .iSintr => encIReg 2 0 0 0
  | .iHlt => encIReg 1 0 0 18
  | .iNop => encIReg 0 0 0 0

/-! ### The decoder on a word of the opcode table -/

/-- The words of 16-bit VM86 rows that the VM89 decoder reads too and that are a VM86 row's own pattern with all
fields zero: ADD r/m,r, ADD r/m,imm and CMP r/m,imm (log 11). -/
def vm86First (w : Nat) : Bool := w == 0x0000 || w == 0x8000 || w == 0x8038

/-- The bytes of a table word of `nbits` bits, first byte first, followed by bytes of zeros up to the longest
instruction. The table writes the first byte of a row in the high half of a 16-bit word (log 11). -/
def tableBytes (nbits w : Nat) : List Byte :=
  if nbits ≤ 8 then [byteOf w, 0#8, 0#8, 0#8, 0#8, 0#8]
  else [byteOf (w / 256), byteOf w, 0#8, 0#8, 0#8, 0#8]

/-- Whether a table word is read by the VM89's decoder (log 11). -/
def tableIsIop (nbits w : Nat) : Bool :=
  if nbits ≤ 8 || vm86First w then false
  else
    match decode89 (tableBytes nbits w) with
    | .ok _ => true
    | .error _ => false

/-- The instruction the decoders read from a word of the opcode table. -/
def decodeTableWord (nbits w : Nat) : Option Instr :=
  if tableIsIop nbits w then
    match decode89 (tableBytes nbits w) with
    | .ok (i, _) => some i
    | .error _ => none
  else
    match decode86 (tableBytes nbits w) with
    | .ok (i, _) => some i
    | .error _ => none

end

end Sys2Proof
end

