-- ==== Sys2Proof/Machine/Banks.lean ====
section
/-! DEFINITION. Selecting one of four or eight like things, and bit-field helpers. -/

namespace Sys2Proof

/-- The element number `i`. -/
def Bank4.get {α : Type} (b : Bank4 α) (i : BitVec 2) : α :=
  match i.toNat with
  | 0 => b.b0
  | 1 => b.b1
  | 2 => b.b2
  | _ => b.b3

/-- Replace the element number `i`. -/
def Bank4.set {α : Type} (b : Bank4 α) (i : BitVec 2) (x : α) : Bank4 α :=
  match i.toNat with
  | 0 => { b with b0 := x }
  | 1 => { b with b1 := x }
  | 2 => { b with b2 := x }
  | _ => { b with b3 := x }

/-- The element number `i`. -/
def Bank8.get {α : Type} (b : Bank8 α) (i : BitVec 3) : α :=
  match i.toNat with
  | 0 => b.b0
  | 1 => b.b1
  | 2 => b.b2
  | 3 => b.b3
  | 4 => b.b4
  | 5 => b.b5
  | 6 => b.b6
  | _ => b.b7

/-- Replace the element number `i`. -/
def Bank8.set {α : Type} (b : Bank8 α) (i : BitVec 3) (x : α) : Bank8 α :=
  match i.toNat with
  | 0 => { b with b0 := x }
  | 1 => { b with b1 := x }
  | 2 => { b with b2 := x }
  | 3 => { b with b3 := x }
  | 4 => { b with b4 := x }
  | 5 => { b with b5 := x }
  | 6 => { b with b6 := x }
  | _ => { b with b7 := x }

/-- Bit `i` of a bit vector. -/
def bit {n : Nat} (v : BitVec n) (i : Nat) : Bool := v.getLsbD i

/-- `v` with bit `i` replaced. -/
def setBit {n : Nat} (v : BitVec n) (i : Nat) (b : Bool) : BitVec n :=
  if b then v ||| BitVec.ofNat n (2 ^ i) else v &&& ~~~ BitVec.ofNat n (2 ^ i)

/-- The field of `len` bits from bit `lo`, as a number. -/
def fieldNat {n : Nat} (v : BitVec n) (lo len : Nat) : Nat := v.toNat / 2 ^ lo % 2 ^ len

/-- `v` with the field of `len` bits from bit `lo` replaced by `x`. -/
def setField {n : Nat} (v : BitVec n) (lo len x : Nat) : BitVec n :=
  BitVec.ofNat n (v.toNat / 2 ^ (lo + len) * 2 ^ (lo + len) + x % 2 ^ len * 2 ^ lo + v.toNat % 2 ^ lo)

/-- 0 or 1. -/
def bitNat (b : Bool) : Nat := if b then 1 else 0

/-- A byte from its eight bits, bit 7 first. -/
def byteBits (b7 b6 b5 b4 b3 b2 b1 b0 : Bool) : Byte :=
  BitVec.ofNat 8 (bitNat b7 * 128 + bitNat b6 * 64 + bitNat b5 * 32 + bitNat b4 * 16 + bitNat b3 * 8 + bitNat b2 * 4
    + bitNat b1 * 2 + bitNat b0)

end Sys2Proof
end

