-- ==== Sys2Proof/Machine/State.lean ====
section
/-! DEFINITION. The state of the K1810 chip set as plain data (10_state.md, 49_platform_devices.md, 00_scope.md R7),
the reasons a step can stop, and the state after RESET (70_reset_and_hazards.md R861). -/

namespace Sys2Proof.Machine

/-! ### Reasons to stop -/

/-- The chip set has no fault of its own (60_exceptions.md R802). -/
inductive Fault
  /-- Raised by `step` when the agenda names a VM89 event or grant and the platform has no VM89. Safe: the
  event has no meaning on that platform. -/
  | noSuchAgent
  deriving DecidableEq, Repr

/-- Why a step has no successor. Each is a case 93_implementation_defined.md treats as `refuse`. -/
inductive Refusal
  /-- An instruction without a meaning yet; raised by `exec`. Safe. -/
  | notModelled (mnemonic : String)
  /-- The bytes at the program counter are no instruction (U3, U4, U6, U7, U27, U28, D16); raised by `step`. Safe. -/
  | noInstruction (e : DecodeError)
  /-- An ESC code Table 3.11 does not list, with a VM87 present (U20); raised by the ESC meaning. Safe. -/
  | unlistedEsc
  /-- An ESC while BUSY = 1, other than a form that needs no WAIT (U17); raised by the VM87 meanings. Safe. -/
  | escWhileBusy
  /-- A BB bit pattern outside Table 3.5 read as an operand (U14); raised by the VM87 meanings but those of the five
  transcendental instructions (log 26). Safe. -/
  | badExtended
  /-- A channel field CC.SYN = 11 (U23); raised when a DMA transfer starts. Safe. -/
  | iopSync
  /-- An undefined SYSBUS or SOC value (U24); raised by the VM89 initialisation. Safe. -/
  | iopInit
  /-- A start command to a channel that is not idle, or a resume of one not suspended (U26). Safe. -/
  | iopCommand
  /-- WID 16 for a side whose physical bus has 8 bits (U29). Safe. -/
  | iopWidth
  /-- Translation or masked compare with a 16-bit logical width (U30). Safe. -/
  | iopByteOnly
  /-- A word transfer that starts with an odd BC when BC ends it (U31). Safe. -/
  | iopOddCount
  /-- A DMA transfer of a channel that has executed no WID since RESET (U22). Safe. -/
  | iopBeforeWid
  /-- The VT37 mode field 11 outside cascade mode (U33). Safe. -/
  | dmaType
  deriving DecidableEq, Repr

/-! ### VM86 / VM88 -/

/-- The nine defined flags of F (10_state.md R26); bits 15-12, 5, 3, 1 hold nothing (R27). -/
structure Flags where
  cf : Bool
  pf : Bool
  af : Bool
  zf : Bool
  sf : Bool
  tf : Bool
  ifl : Bool
  df : Bool
  ofl : Bool
  deriving DecidableEq, Repr

/-- The leading bytes already taken for the instruction to come (10_state.md R42). -/
structure Leading where
  seg : Option SReg
  rep : Option Bool
  lock : Bool
  /-- offset of the first leading byte, when there is one -/
  first : Option Word
  /-- offset of the last leading byte; meaningful when `first` is -/
  last : Word
  deriving DecidableEq, Repr

/-- How the last step left the current instruction (R42, R43; log 8). -/
inductive Phase
  /-- it is complete -/
  | complete
  /-- a leading byte has been taken; no request is recognised here -/
  | leading
  /-- the repeated string instruction `i` stands between two elements (43_string.md R310); it is not fetched again -/
  | element (i : Instr)
  /-- inside WAIT after a TEST cycle with TEST = 1 (45_processor_control.md R371) -/
  | testing
  deriving DecidableEq, Repr

/-- The central processor (10_state.md Part A). -/
structure Cpu where
  ax : Word
  cx : Word
  dx : Word
  bx : Word
  sp : Word
  bp : Word
  si : Word
  di : Word
  es : Word
  cs : Word
  ss : Word
  ds : Word
  ip : Word
  f : Flags
  nmiPending : Bool
  /-- the instruction that ends was MOV sr or POP sr (10_state.md R41) -/
  inhibit : Bool
  /-- the instruction in progress follows MOV sr or POP sr: `inhibit_int` as R41 keeps it, until that instruction is
  complete; it counts at the boundary before it alone (R811; log 55) -/
  shadow : Bool
  stepPending : Bool
  lead : Leading
  phase : Phase
  halted : Bool
  /-- every value that queued bytes had before a store changed them, by physical address (20_memory.md R131) -/
  stale : List Host.Cell
  /-- the bytes that the queue has taken from devices, by physical address, the next one first (20_memory.md R130) -/
  ahead : List Host.Cell
  /-- offset of the first byte of the instruction being executed, leading bytes not counted -/
  instrAddr : Word
  deriving DecidableEq, Repr

/-! ### VM87 -/

/-- The arithmetic coprocessor (10_state.md Part B). -/
structure Fpu where
  ar : Bank8 Ext80
  tag : Word
  /-- SR (R53); bit 15 is the hold of an unmasked exception, and B is 1 besides while an instruction is in execution
  (`State.fpuStatus`) -/
  sr : Word
  cr : Word
  epInstr : Addr20
  epOpcode : BitVec 11
  epOperand : Addr20
  deriving DecidableEq, Repr

/-- An instruction that the VM87 has taken from the CPU's stream and not completed (47_vm87_instructions.md R462): the
CPU as it stood at the ESC, whose registers give the address that the coprocessor captures, and the bytes of the source
operand read so far, the lowest first. -/
structure FpuJob where
  instr : Instr
  cpu : Cpu
  got : List Byte
  deriving DecidableEq, Repr

/-- What the VM87 does beside the CPU (R462-R465; log 14). -/
structure FpuRun where
  /-- instructions taken, the one in execution first; the others are N forms that it holds (R463) -/
  jobs : List FpuJob
  /-- bytes of a completed instruction that it has still to write, in order -/
  writes : List Host.Cell
  /-- while the VM87 itself executes an instruction: the bytes of its source operand -/
  feed : Option (List Byte)
  deriving DecidableEq, Repr

/-! ### VM89 -/

/-- The two channels (10_state.md R70). -/
inductive ChanNo
  | one
  | two
  deriving DecidableEq, Repr

/-- What a channel is doing (10_state.md R82). A channel that has a channel attention to answer is so by `ca`. -/
inductive Activity
  | idle
  | program
  | transfer
  deriving DecidableEq, Repr

/-- A DMA transfer cycle in progress (48_vm89_iop.md R671, R673): whether the source is read and the destination written
as words, and how many bytes have been written. -/
structure XferCycle where
  readWord : Bool
  writeWord : Bool
  written : Nat
  deriving DecidableEq, Repr

/-- One channel of the VM89 (10_state.md R71-R82). -/
structure IopChan where
  ga : Addr20
  gb : Addr20
  gc : Addr20
  tp : Addr20
  pp : Addr20
  ix : Word
  bc : Word
  cc : Word
  mc : Word
  /-- TAG bits: true is the I/O space (R79) -/
  tagGa : Bool
  tagGb : Bool
  tagGc : Bool
  tagTp : Bool
  psw : Byte
  /-- WID has been executed since RESET (R648; 93_implementation_defined.md U22) -/
  widDone : Bool
  activity : Activity
  /-- XFER executed, the transfer starts after one more instruction (R82) -/
  armed : Bool
  /-- the parameter block holds the TP and PSW of a suspended program (48_vm89_iop.md R578) -/
  suspended : Bool
  /-- the byte at TP was fetched with the byte before it and stands in the one-byte queue (R82, 48_vm89_iop.md R564) -/
  queued : Bool
  /-- the values the queued byte had before stores changed it -/
  look : List Byte
  /-- the queued byte where it was read from a device -/
  kept : Option Byte
  /-- bytes held between the read and the write cycles of a transfer, oldest first (R82) -/
  held : List Byte
  /-- the transfer cycle in progress, none between two -/
  cycle : Option XferCycle
  /-- the command to suspend has come inside a transfer cycle, and is obeyed at the end of it (48_vm89_iop.md R577) -/
  suspending : Bool
  /-- a channel attention waits to be answered (R81) -/
  ca : Bool
  /-- pins (R83) -/
  drq : Bool
  ext : Bool
  deriving DecidableEq, Repr

/-- The I/O processor (10_state.md Part C). -/
structure Iop where
  ch1 : IopChan
  ch2 : IopChan
  /-- the channel of the instruction or transfer cycle in progress -/
  cur : ChanNo
  initialised : Bool
  /-- the first CA after RESET, with its SEL level, waits for the initialisation sequence -/
  firstCa : Option Bool
  master : Bool
  ccp : Addr20
  sysBus16 : Bool
  ioBus16 : Bool
  rqgtModified : Bool
  /-- LOCK output: active during TSL and locked transfers; no channel switch and no other master (R661) -/
  lockOut : Bool
  deriving DecidableEq, Repr

/-! ### Devices -/

/-- One channel of the VT37 (49_platform_devices.md R732, R733). -/
structure DmaChan where
  car : Word
  cwr : Word
  bar : Word
  wcr : Word
  mode : BitVec 6
  deriving DecidableEq, Repr

/-- The VT37 DMA controller (R732-R746), with what its outputs did in the last grant; they last to the end of the CPU's
next step (log 50). -/
structure Vt37 where
  ch : Bank4 DmaChan
  cr : Byte
  tc : BitVec 4
  rr : BitVec 4
  mask : BitVec 4
  tr : Byte
  ff : Bool
  lastServed : Option (BitVec 2)
  /-- the controller has left SI: HRQ is raised for this channel (R741, R746) -/
  chosen : Option (BitVec 2)
  dreq : BitVec 4
  /-- DACK of the channel served (R730); its pin is `Vt37.dackPin` -/
  dack : BitVec 4
  /-- no command has been loaded since RESET, which leaves the pins DACK at 0 (R731) -/
  dackZero : Bool
  /-- the EOP output pulse of an internal TC (R731, R741) -/
  eop : Bool
  /-- the bytes that a read transfer gave to a device, in order (R743) -/
  given : List Byte
  /-- a byte of single mode has been moved: the CPU gets a bus cycle before the next (R742) -/
  yield : Bool
  deriving DecidableEq, Repr

/-- One channel of the VI54 (R751). -/
structure PitChan where
  ce : Word
  cr : Word
  /-- the constant of the running cycle (mode 3 needs its half) -/
  period : Word
  ol : Word
  rcw : BitVec 6
  rs : Byte
  fn : Bool
  out : Bool
  writeHigh : Bool
  readHigh : Bool
  countLatched : Bool
  statusLatched : Bool
  gate : Bool
  trigger : Bool
  loadPending : Bool
  /-- a constant has been loaded since the control word (R753) -/
  loaded : Bool
  counting : Bool
  strobe : Bool
  /-- mode 5: the running count has given its strobe, and the element counts on (R765) -/
  fired : Bool
  deriving DecidableEq, Repr

/-- The VI54 timer (R750). -/
structure Vi54 where
  c0 : PitChan
  c1 : PitChan
  c2 : PitChan
  deriving DecidableEq, Repr

/-- The three phases of a VG72 command, and none (R772). -/
inductive FdcPhase
  | idle
  | command
  | execution
  | result
  deriving DecidableEq, Repr

/-- The lines of one drive as the controller sees them (R770, R773). -/
structure DriveLines where
  ready : Bool
  track0 : Bool
  writeProtect : Bool
  fault : Bool
  twoSided : Bool
  deriving DecidableEq, Repr

/-- The VG72 floppy-disk controller (R770-R779). -/
structure Vg72 where
  phase : FdcPhase
  /-- command bytes received, first byte first -/
  cmd : List Byte
  /-- result bytes still to be read, in order -/
  result : List Byte
  seeking : BitVec 4
  st0 : Byte
  st1 : Byte
  st2 : Byte
  c : Byte
  h : Byte
  r : Byte
  n : Byte
  /-- the line HD SEL -/
  head : Bool
  pcn : Bank4 Byte
  ncn : Bank4 Byte
  /-- step pulses of a Recalibrate in progress -/
  steps : Bank4 Byte
  /-- the drive is recalibrating rather than seeking -/
  recal : BitVec 4
  srt : BitVec 4
  hut : BitVec 4
  hlt : BitVec 7
  nd : Bool
  rio : Byte
  /-- a data byte waits in RIO for the CPU (read) or is wanted from it (write) -/
  rqm : Bool
  /-- a byte the CPU supplied waits for the disk -/
  full : Bool
  int : Bool
  drq : Bool
  tc : Bool
  /-- the command ends after the current sector (deleted-data mark, R776) -/
  lastSector : Bool
  /-- data bytes of the current sector passed so far (R775) -/
  passed : Nat
  /-- the ID bytes of the current sector that Format track has been given, first byte first (R777) -/
  ids : List Byte
  /-- sectors that Format track has written so far (R777) -/
  sectors : Nat
  /-- the current sector of a scan still satisfies the condition with equality / at all -/
  scanEqual : Bool
  scanHit : Bool
  /-- ST0 values of seek-end and ready-change interrupts not yet sensed, oldest first -/
  sense : List Byte
  drive : Bank4 DriveLines
  deriving DecidableEq, Repr

/-- One handshake port of the RU55 (R783, R784). -/
structure RuPort where
  buf : Byte
  pins : Byte
  intr : Bool
  bf : Bool
  deriving DecidableEq, Repr

/-- The RU55: its 256 bytes of RAM as a list of cells in the form of the memory, its ports and timer (R780-R787). -/
structure Ru55 where
  ram : List Host.Cell
  ctl : Byte
  a : RuPort
  b : RuPort
  cBuf : BitVec 6
  cPins : BitVec 6
  tc : Bool
  hold : Word
  count : BitVec 14
  /-- the constant and mode the running count was started with -/
  reload : BitVec 14
  mode : BitVec 2
  running : Bool
  stopAtEnd : Bool
  startAtEnd : Bool
  out : Bool
  deriving DecidableEq, Repr

/-- The RF55 ports (R788); its ROM is part of the memory. -/
structure Rf55 where
  outA : Byte
  outB : Byte
  dirA : Byte
  dirB : Byte
  pinsA : Byte
  pinsB : Byte
  deriving DecidableEq, Repr

/-! ### Platform parameters (00_scope.md R7, 92_eei_decisions.md D46) -/

/-- A device that an address decoder selects. The machine has one of each kind (log 53), but VT37s may be cascaded: `vt37
0` is the one that the CPU grants the bus, `vt37 (k+1)` the `k`-th of the cascaded ones. `ru55` is the register block of
the RU55, `ru55Ram` its memory (49_platform_devices.md R781). -/
inductive Dev
  | vt37 (u : Nat)
  | vi54
  | vg72
  | ru55
  | ru55Ram
  | rf55
  | iopCa
  deriving DecidableEq, Repr

/-- What stands at an address or port (20_memory.md R118, R119). `device d k`: register number is the distance from the
base divided by 2 to the `k`. -/
inductive RegionKind
  | ram
  | rom
  | absent
  | device (d : Dev) (shift : Nat)
  deriving DecidableEq, Repr

/-- One entry of MEMORY_MAP or IO_MAP. -/
structure Region where
  base : Nat
  size : Nat
  kind : RegionKind
  deriving DecidableEq, Repr

/-- The device outputs that can be wired to the interrupt system (60_exceptions.md R836). -/
inductive IntLine
  | vm87
  | sintr1
  | sintr2
  | timer0
  | timer1
  | timer2
  | fdc
  | ruIntrA
  | ruIntrB
  | ruTimer
  | eop (u : Nat)
  deriving DecidableEq, Repr

/-- A VT37 whose HRQ and HLDA are wired to DREQ and DACK of a channel of another (49_platform_devices.md R742): number
`parent` of the controllers, which stands before it; and its own VT37_PAGE. -/
structure Cascade where
  parent : Nat
  channel : BitVec 2
  page : Bank4 (BitVec 4)
  deriving DecidableEq, Repr

/-- The named parameters of the platform. No step changes them. -/
structure Platform where
  vm88 : Bool
  /-- MN_MX: true is the maximum mode. It affects only which bus-control pins exist (00_scope.md R7), so no step reads it
  -/
  maxMode : Bool
  hasVm87 : Bool
  /-- the programs obey R557, so that each ESC may be executed at one point (47_vm87_instructions.md R465, D33) -/
  vm87Atomic : Bool
  /-- the error of a transcendental result, in units of the last place (U12) -/
  vm87Tolerance : Nat
  hasVm89 : Bool
  iopRemote : Bool
  /-- the VM87 is wired to RQ/GT0 of the CPU and the VM89 to RQ/GT1; else the VM89 has RQ/GT0 (60_exceptions.md R841,
  48_vm89_iop.md R562) -/
  fpuOnGt0 : Bool
  memoryMap : List Region
  remoteMap : List Region
  ioMap : List Region
  /-- what the system memory, the memory of the system's I/O space and the memory of the VM89's own bus hold at power-on,
  ROM content among it (R788), in canonical form -/
  memContent : List Host.Cell
  ioContent : List Host.Cell
  remoteContent : List Host.Cell
  /-- request lines in falling priority, each with its interrupt type -/
  wires : List (IntLine × Byte)
  nmiWire : Option IntLine
  /-- the device output wired to the pin TEST where no VM87 drives it (49_platform_devices.md R795) -/
  testWire : Option IntLine
  vt37Page : Bank4 (BitVec 4)
  /-- the cascaded VT37s, controllers 1, 2, ... in order -/
  cascades : List Cascade
  /-- the VT37 and its channel whose DREQ, DACK and EOP are wired to DRQ, DACK and TC of the VG72 (R770) -/
  fdcDma : Option (Nat × BitVec 2)
  vt37MaskAsPrinted : Bool
  tslJumpWhenZero : Bool
  fptanHalfAngle : Bool
  deriving DecidableEq, Repr

/-! ### Environment -/

/-- What the environment can do to the VG72 (R772, R776-R779). -/
inductive FdcEvent
  /-- the disk delivers a data byte (reads), or a byte to compare (scans) -/
  | byte (b : Byte)
  /-- the disk takes the byte in RIO, or wants the first (writes, format) -/
  | take
  /-- the data field of the current sector ends; CRC good -/
  | sectorEnd
  /-- the data field ends with a CRC error -/
  | dataCrc
  /-- a CRC error in an ID field -/
  | idCrc
  /-- the index pulse came twice without the sector -/
  | noSector
  /-- no address mark before the second index pulse -/
  | noMark
  /-- the sector carries a deleted-data mark where the command reads data (or the reverse) -/
  | deletedMark
  /-- an ID field with another cylinder number has been read -/
  | wrongCylinder (c : Byte)
  /-- the data address mark of the current sector is missing -/
  | noDataMark
  /-- an ID field has been read: C, H, R, N (Read ID) -/
  | id (c h r n : Byte)
  /-- the second index pulse ends Format track -/
  | formatEnd
  /-- the pin TC -/
  | tc
  /-- a step pulse of a seeking drive -/
  | step (drive : BitVec 2)
  /-- new levels of the lines of a drive -/
  | lines (drive : BitVec 2) (l : DriveLines)
  deriving DecidableEq, Repr

/-- One event of the agenda: each is a step of its own (49_platform_devices.md R701, 70_reset_and_hazards.md R860). -/
inductive Event
  | reset
  | nmi
  | intr (n : Byte)
  | intrOff
  | test (level : Bool)
  | grantCpu
  | grantIop
  | grantFpu
  | drq (c : ChanNo) (level : Bool)
  | ext (c : ChanNo) (level : Bool)
  | dreq (u : Nat) (n : BitVec 2) (level : Bool)
  /-- HLDA is given to the VT37: the device holds DREQ for at most `cycles` cycles (`eop`: it pulls EOP low after them)
  and supplies the bytes `data`, in order -/
  | dmaGrant (cycles : Nat) (eop : Bool) (data : List Byte)
  | tick (n : BitVec 2)
  | gate (n : BitVec 2) (level : Bool)
  | fdc (e : FdcEvent)
  | ruPins (a b : Byte) (c : BitVec 6)
  | ruStrobeA
  | ruStrobeB
  | ruTick
  | rfPins (a b : Byte)
  deriving DecidableEq, Repr

/-- Pins and events of the environment. -/
structure Env where
  intr : Option Byte
  test : Bool
  agenda : List Event
  /-- grants of the bus to the VT37 that a LOCK delays, in order (49_platform_devices.md R748) -/
  delayed : List Event
  deriving DecidableEq, Repr

/-! ### The whole machine -/

/-- Memory: the bytes that differ from what an unlisted address reads as, addresses strictly rising. -/
abbrev Memory := List Host.Cell

/-- The state of the machine. -/
structure State where
  cpu : Cpu
  fpu : Fpu
  run : FpuRun
  iop : Iop
  mem : Memory
  /-- the memory that stands in the system's I/O space (48_vm89_iop.md R561) -/
  iomem : Memory
  /-- the memory on the VM89's own bus in the remote configuration (48_vm89_iop.md R562) -/
  remote : Memory
  vt37 : Vt37
  /-- the cascaded VT37s (49_platform_devices.md R742) -/
  cascaded : List Vt37
  vi54 : Vi54
  vg72 : Vg72
  ru55 : Ru55
  rf55 : Rf55
  env : Env
  plat : Platform
  /-- index of the next free value (the model's own) -/
  free : Nat
  deriving DecidableEq, Repr

/-! ### Reset values (10_state.md R44, R60, R86; 70_reset_and_hazards.md R861) -/

/-- All nine flags 0 (R44). -/
def Flags.cleared : Flags :=
  { cf := false, pf := false, af := false, zf := false, sf := false, tf := false, ifl := false, df := false,
    ofl := false }

/-- No leading byte taken. -/
def Leading.none : Leading :=
  { seg := Option.none, rep := Option.none, lock := false, first := Option.none, last := 0#16 }

/-- The CPU at power-on (R44); the general registers at zero are the model's choice (log 2). -/
def Cpu.reset : Cpu :=
  { ax := 0#16, cx := 0#16, dx := 0#16, bx := 0#16, sp := 0#16, bp := 0#16, si := 0#16, di := 0#16,
    es := 0#16, cs := 0xFFFF#16, ss := 0#16, ds := 0#16, ip := 0#16, f := Flags.cleared,
    nmiPending := false, inhibit := false, shadow := false, stepPending := false, lead := Leading.none, phase := .complete,
    halted := false, stale := [], ahead := [], instrAddr := 0#16 }

/-- Eight equal things. -/
def Bank8.all {α : Type} (x : α) : Bank8 α := ⟨x, x, x, x, x, x, x, x⟩

/-- Four equal things. -/
def Bank4.all {α : Type} (x : α) : Bank4 α := ⟨x, x, x, x⟩

/-- The VM87 after RESET (R56, R60, D23); AR and C3-C0 at zero are the model's choice (log 12). -/
def Fpu.reset : Fpu :=
  { ar := Bank8.all 0#80, tag := 0xFFFF#16, sr := 0#16, cr := 0x03BF#16, epInstr := 0#20, epOpcode := 0#11,
    epOperand := 0#20 }

/-- The VM87 has nothing in execution. -/
def FpuRun.idle : FpuRun := { jobs := [], writes := [], feed := none }

/-- A VM89 channel after RESET (R86); every register at zero is the model's choice (logs 29, 30). -/
def IopChan.reset : IopChan :=
  { ga := 0#20, gb := 0#20, gc := 0#20, tp := 0#20, pp := 0#20, ix := 0#16, bc := 0#16, cc := 0#16, mc := 0#16,
    tagGa := false, tagGb := false, tagGc := false, tagTp := false, psw := 0#8, widDone := false, activity := .idle,
    armed := false, suspended := false, queued := false, look := [], kept := none, held := [], cycle := none, suspending := false, ca := false,
    drq := false,
    ext := false }

/-- The VM89 after RESET (R86): inert until the first CA; of two equal channels the first runs first (D45). -/
def Iop.reset : Iop :=
  { ch1 := IopChan.reset, ch2 := IopChan.reset, cur := .two, initialised := false, firstCa := none, master := false,
    ccp := 0#20, sysBus16 := false, ioBus16 := false, rqgtModified := false, lockOut := false }

/-- A VT37 channel at power-on: unspecified in the spec, zero in the model (log 33). -/
def DmaChan.reset : DmaChan :=
  { car := 0#16, cwr := 0#16, bar := 0#16, wcr := 0#16, mode := 0#6 }

/-- The VT37 after RESET (R740). -/
def Vt37.reset : Vt37 :=
  { ch := Bank4.all DmaChan.reset, cr := 0#8, tc := 0#4, rr := 0#4, mask := 0xF#4, tr := 0#8, ff := false,
    lastServed := none, chosen := none, dreq := 0#4, dack := 0#4, dackZero := true, eop := false, given := [], yield := false }

/-- A VI54 channel at power-on: unspecified in the spec (U32), zero in the model (log 34). -/
def PitChan.reset : PitChan :=
  { ce := 0#16, cr := 0#16, period := 0#16, ol := 0#16, rcw := 0#6, rs := 0#8, fn := false, out := false,
    writeHigh := false, readHigh := false, countLatched := false, statusLatched := false, gate := false, trigger := false,
    loadPending := false, loaded := false, counting := false, strobe := false, fired := false }

/-- The VI54 at power-on. -/
def Vi54.reset : Vi54 := { c0 := PitChan.reset, c1 := PitChan.reset, c2 := PitChan.reset }

/-- The lines of a drive at power-on (log 38). -/
def DriveLines.low : DriveLines :=
  { ready := false, track0 := false, writeProtect := false, fault := false, twoSided := false }

/-- The VG72 after RESET: no command in progress, RS = 80h (R861); the rest is the model's choice (log 35). -/
def Vg72.reset : Vg72 :=
  { phase := .idle, cmd := [], result := [], seeking := 0#4, st0 := 0#8, st1 := 0#8, st2 := 0#8,
    c := 0#8, h := 0#8, r := 0#8, n := 0#8, head := false, pcn := Bank4.all 0#8, ncn := Bank4.all 0#8, steps := Bank4.all 0#8,
    recal := 0#4, srt := 0#4, hut := 0#4, hlt := 0#7, nd := false, rio := 0#8, rqm := false, full := false,
    int := false, drq := false, tc := false, lastSector := false, passed := 0, ids := [], sectors := 0,
    scanEqual := false, scanHit := false, sense := [], drive := Bank4.all DriveLines.low }

/-- An RU55 port at power-on (log 36). -/
def RuPort.reset : RuPort := { buf := 0#8, pins := 0#8, intr := false, bf := false }

/-- The RU55 after RESET (R787); the port buffers and timer values are the model's choice (log 36). -/
def Ru55.reset : Ru55 :=
  { ram := [], ctl := 0#8, a := RuPort.reset, b := RuPort.reset, cBuf := 0#6, cPins := 0#6, tc := false, hold := 0#16,
    count := 0#14, reload := 0#14, mode := 0#2, running := false, stopAtEnd := false, startAtEnd := false, out := true }

/-- The RF55 at power-on (log 37). -/
def Rf55.reset : Rf55 := { outA := 0#8, outB := 0#8, dirA := 0#8, dirB := 0#8, pinsA := 0#8, pinsB := 0#8 }

/-- The platform that 00_scope.md R7 and 92_eei_decisions.md D1 choose by default. What they leave out is log 56:
VM89_MODE LOCAL, and RAM on the VM89's own bus wherever `remoteMap` lists nothing. -/
def Platform.default : Platform :=
  { vm88 := false, maxMode := false, hasVm87 := false, vm87Atomic := false, vm87Tolerance := 1,
    hasVm89 := false, iopRemote := false, fpuOnGt0 := false, memoryMap := [], remoteMap := [], ioMap := [], memContent := [], ioContent := [],
    remoteContent := [], wires := [],
    nmiWire := none, testWire := none, vt37Page := Bank4.all 0#4, cascades := [], fdcDma := none, vt37MaskAsPrinted := true,
    tslJumpWhenZero := true, fptanHalfAngle := true }

/-- No request, TEST = 0, no event to come (R7). -/
def Env.quiet : Env := { intr := none, test := false, agenda := [], delayed := [] }

/-- The machine after power-on RESET on a platform. -/
def State.resetOn (p : Platform) : State :=
  { cpu := Cpu.reset, fpu := Fpu.reset, run := FpuRun.idle, iop := Iop.reset, mem := p.memContent, iomem := p.ioContent,
    remote := p.remoteContent, vt37 := Vt37.reset, cascaded := p.cascades.map fun _ => Vt37.reset,
    vi54 := Vi54.reset, vg72 := Vg72.reset, ru55 := Ru55.reset, rf55 := Rf55.reset, env := Env.quiet, plat := p,
    free := 0 }

/-- The machine after power-on RESET on the default platform. -/
def State.reset : State := State.resetOn Platform.default

end Sys2Proof.Machine
end

