-- ==== Sys2Proof/Machine/Vt37.lean ====
section
/-! DEFINITION. The VT37 DMA controller as a programmed device (49_platform_devices.md R732-R740, R746, R747): its
registers and what one cycle does to them. The memory side of a cycle is in Dma.lean. -/

namespace Sys2Proof.Machine

/-- Replace the low (FF = 0) or the high (FF = 1) byte of a 16-bit register (R739). -/
def setHalf (old : Word) (high : Bool) (v : Byte) : Word :=
  if high then wordOf (lowByte old) v else wordOf v (highByte old)

/-- The byte of a 16-bit register that FF selects (R739). -/
def half (v : Word) (high : Bool) : Byte := if high then highByte v else lowByte v

/-- RESET and master clear (R740): the channel registers are not touched, the controller is in SI, and the pins DACK go
to 0 (R731; log 58). -/
def Vt37.masterClear (d : Vt37) : Vt37 :=
  { d with cr := 0#8, tc := 0#4, rr := 0#4, mask := 0xF#4, tr := 0#8, ff := false, lastServed := none, chosen := none,
           dackZero := true }

/-- The level of DREQ n read through the polarity bit CR bit 6 (R734). -/
def Vt37.dreqActive (d : Vt37) (n : Nat) : Bool := bit d.dreq n != bit d.cr 6

/-- The level of the pin DACK n: 1 for the channel served when CR bit 7 says so, else 0 (R731, R734); 0 from RESET until
a command is loaded (log 58). -/
def Vt37.dackPin (d : Vt37) (n : BitVec 2) : Bool := !d.dackZero && bit d.dack n.toNat == bit d.cr 7

/-- The status byte (R735): TC of the channels, and the pending software requests; a request that is only on the pin
shows an unknown bit (93_implementation_defined.md U33). -/
def Vt37.status (d : Vt37) (free : Byte) : Byte :=
  let req := fun n => bit d.rr n || (d.dreqActive n && bit free n)
  byteBits (req 3) (req 2) (req 1) (req 0) (bit d.tc 3) (bit d.tc 2) (bit d.tc 1) (bit d.tc 0)

/-- The read function of the sixteen addresses (R739); `free` is what an address without a read gives (U33). -/
def Vt37.read (d : Vt37) (a : Nat) (free : Byte) : Byte × Vt37 :=
  if a < 8 then
    let c := d.ch.get (BitVec.ofNat 2 (a / 2))
    (half (if a % 2 = 0 then c.car else c.cwr) d.ff, { d with ff := !d.ff })
  else
    match a with
    | 8 => (d.status free, { d with tc := 0#4 })
    | 13 => (d.tr, d)
    | _ => (free, d)

/-- All four mask bits from a byte (R737 format a). -/
def Vt37.maskAll (d : Vt37) (v : Byte) : Vt37 := { d with mask := BitVec.ofNat 4 (fieldNat v 0 4) }

/-- One mask bit from a byte (R737 format b). -/
def Vt37.maskOne (d : Vt37) (v : Byte) : Vt37 := { d with mask := setBit d.mask (fieldNat v 0 2) (bit v 2) }

/-- The write function of the sixteen addresses (R739); `asPrinted` is VT37_MASK_PORTS_AS_PRINTED (D50). -/
def Vt37.write (d : Vt37) (asPrinted : Bool) (a : Nat) (v : Byte) : Vt37 :=
  if a < 8 then
    let n := BitVec.ofNat 2 (a / 2)
    let c := d.ch.get n
    let c' : DmaChan :=
      if a % 2 = 0 then { c with bar := setHalf c.bar d.ff v, car := setHalf c.car d.ff v }
      else { c with wcr := setHalf c.wcr d.ff v, cwr := setHalf c.cwr d.ff v }
    { d with ch := d.ch.set n c', ff := !d.ff }
  else
    match a with
    | 8 => { d with cr := v, dackZero := false }
    | 9 => { d with rr := setBit d.rr (fieldNat v 0 2) (bit v 2) }
    | 10 => if asPrinted then d.maskAll v else d.maskOne v
    | 11 =>
      let n := BitVec.ofNat 2 (fieldNat v 0 2)
      { d with ch := d.ch.set n { d.ch.get n with mode := BitVec.ofNat 6 (fieldNat v 2 6) } }
    | 12 => { d with ff := false }
    | 13 => d.masterClear
    | 14 => { d with mask := 0#4 }
    | _ => if asPrinted then d.maskOne v else d.maskAll v

/-- The transfer types of MR bits 3-2 (R733, R743). -/
inductive DmaType
  | verify
  | write
  | read
  | illegal
  deriving DecidableEq, Repr

/-- The modes of MR bits 7-6 (R733, R742). -/
inductive DmaMode
  | demand
  | single
  | block
  | cascade
  deriving DecidableEq, Repr

/-- The stored mode register holds bits 7-2 of the byte (R733). -/
def DmaChan.type (c : DmaChan) : DmaType :=
  match fieldNat c.mode 0 2 with
  | 0 => .verify
  | 1 => .write
  | 2 => .read
  | _ => .illegal

/-- The mode field of a channel. -/
def DmaChan.dmaMode (c : DmaChan) : DmaMode :=
  match fieldNat c.mode 4 2 with
  | 0 => .demand
  | 1 => .single
  | 2 => .block
  | _ => .cascade

/-- MR bit 4. -/
def DmaChan.autoInit (c : DmaChan) : Bool := bit c.mode 2

/-- The next address, by MR bit 5 (R733). -/
def DmaChan.nextCar (c : DmaChan) : Word := if bit c.mode 3 then c.car - 1#16 else c.car + 1#16

/-- A request of channel n is pending (R741). -/
def Vt37.pending (d : Vt37) (n : Nat) : Bool :=
  !bit d.cr 2 && (bit d.rr n || (d.dreqActive n && !bit d.mask n))

/-- The channels in falling priority (R746). -/
def Vt37.order (d : Vt37) : List Nat :=
  match d.lastServed with
  | some k => if bit d.cr 4 then [(k.toNat + 1) % 4, (k.toNat + 2) % 4, (k.toNat + 3) % 4, k.toNat] else [0, 1, 2, 3]
  | none => [0, 1, 2, 3]

/-- The channel that wins, if any is pending (R746). -/
def Vt37.winner (d : Vt37) : Option (BitVec 2) :=
  match d.order.find? d.pending with
  | some n => some (BitVec.ofNat 2 n)
  | none => none

/-- HRQ: the controller has left SI for a channel (R741). -/
def Vt37.hrq (d : Vt37) : Bool := d.chosen.isSome

/-- The channel for which HRQ stands after the controller has looked at its requests: the one it left SI for as long as
that is pending, else the winner of those that are (R746). A request that is withdrawn before HLDA brings the controller
back to SI, DESIGN CHOICE (log 59). -/
def Vt37.resolve (d : Vt37) : Option (BitVec 2) :=
  match d.chosen with
  | some n => if d.pending n.toNat then some n else d.winner
  | none => d.winner

/-- The controller looks at its requests. -/
def Vt37.settle (d : Vt37) : Vt37 := { d with chosen := d.resolve }

/-- A new level of the pin DREQ n. -/
def Vt37.dreqTo (d : Vt37) (n : BitVec 2) (level : Bool) : Vt37 := { d with dreq := setBit d.dreq n.toNat level }

/-- The outputs of a grant end, and with them the wait of single mode (R742; log 50). -/
def Vt37.endGrant (d : Vt37) : Vt37 := { d with dack := 0#4, eop := false, given := [], yield := false }

/-- The end of a channel's service on TC or EOP (R741 `terminal`, R747). -/
def Vt37.terminal (d : Vt37) (n : BitVec 2) : Vt37 :=
  let c := d.ch.get n
  let d := { d with tc := setBit d.tc n.toNat true, rr := setBit d.rr n.toNat false }
  if c.autoInit then { d with ch := d.ch.set n { c with car := c.bar, cwr := c.wcr } }
  else { d with mask := setBit d.mask n.toNat true }

/-- What a cycle does to the address and the count of channel n, TC left aside (R741). -/
def Vt37.advance (d : Vt37) (n : BitVec 2) : Vt37 :=
  let c := d.ch.get n
  { d with ch := d.ch.set n { c with car := c.nextCar, cwr := c.cwr - 1#16 } }

/-- The same of channel 0 as the source of a memory-to-memory transfer: CR bit 1 holds the address (R745). -/
def Vt37.advanceSource (d : Vt37) : Vt37 :=
  let c := d.ch.get 0
  { d with ch := d.ch.set 0 { c with car := if bit d.cr 1 then c.car else c.nextCar, cwr := c.cwr - 1#16 } }

end Sys2Proof.Machine
end

