-- ==== Sys2Proof/Machine/Ru55.lean ====
section
/-! DEFINITION. The ports and the timer of the RU55 (49_platform_devices.md R780-R787) and the ports of the RF55
(R788). The RAM of the RU55 is the device's own, the ROM of the RF55 a region of the machine's memory. The argument `fr`
is unknown. -/

namespace Sys2Proof.Machine

/-! ### RU55 -/

/-- The use of port C, control word bits 3-2 (R782, Table 6.9): 0 ALT1, 1 ALT2, 2 ALT3, 3 ALT4. -/
def Ru55.alt (d : Ru55) : Nat := fieldNat d.ctl 2 2

/-- Port A works with handshake in ALT3 and ALT4. -/
def Ru55.handshakeA (d : Ru55) : Bool := decide (2 ≤ d.alt)

/-- Port B works with handshake in ALT4. -/
def Ru55.handshakeB (d : Ru55) : Bool := decide (d.alt = 3)

/-- The status byte (R783); bit 7 is undefined. -/
def Ru55.status (d : Ru55) (fr : Byte) : Byte :=
  byteBits (bit fr 7) d.tc (bit d.ctl 5) d.b.bf d.b.intr (bit d.ctl 4) d.a.bf d.a.intr

/-- Start the timer with the holding register's count and mode (R786). -/
def Ru55.startTimer (d : Ru55) : Ru55 :=
  { d with reload := BitVec.ofNat 14 (fieldNat d.hold 0 14), mode := BitVec.ofNat 2 (fieldNat d.hold 14 2),
           count := BitVec.ofNat 14 (fieldNat d.hold 0 14), running := true, stopAtEnd := false, startAtEnd := false,
           out := true }

/-- The timer command of control word bits 7-6 (R786). Command 01, also in the low part of a count, leaves TIMER OUT at the
level that it has, DESIGN CHOICE (log 36): R785 and R786 do not name the level of a stopped timer. -/
def Ru55.timerCommand (d : Ru55) (tm : Nat) : Ru55 :=
  match tm with
  | 0 => d
  | 1 => { d with running := false, stopAtEnd := false, startAtEnd := false }
  | 2 => if d.running then { d with stopAtEnd := true, startAtEnd := false } else d
  | _ => if d.running then { d with startAtEnd := true, stopAtEnd := false } else d.startTimer

/-- OUT to a port A or B (R784): with handshake the byte raises BF and clears INTR; a port programmed for input takes
nothing (log 36). -/
def RuPort.write (p : RuPort) (output handshake : Bool) (v : Byte) : RuPort :=
  if !output then p
  else if handshake then { p with buf := v, bf := true, intr := false }
  else { p with buf := v }

/-- IN from a port A or B (R784). -/
def RuPort.read (p : RuPort) (output handshake : Bool) : Byte × RuPort :=
  if output then (p.buf, p)
  else if handshake then (p.buf, { p with bf := false, intr := false })
  else (p.pins, p)

/-- The device's strobe on a handshake port (R784). -/
def RuPort.strobe (p : RuPort) (output enabled : Bool) : RuPort :=
  if output then { p with bf := false, intr := p.intr || enabled }
  else { p with buf := p.pins, bf := true, intr := p.intr || enabled }

/-- Port C as the CPU reads it (R782, R784): bits 7-6 are not defined. The lines of the handshake read as INTR, BF and the
level of the pin STB, DESIGN CHOICE (log 36): R784 describes an IN of port C in ALT1 and ALT2 alone. -/
def Ru55.portC (d : Ru55) (fr : Byte) : Byte :=
  let o := fun i => bit d.cBuf i
  let p := fun i => bit d.cPins i
  match d.alt with
  | 0 => byteBits (bit fr 7) (bit fr 6) (p 5) (p 4) (p 3) (p 2) (p 1) (p 0)
  | 1 => byteBits (bit fr 7) (bit fr 6) (o 5) (o 4) (o 3) (o 2) (o 1) (o 0)
  | 2 => byteBits (bit fr 7) (bit fr 6) (o 5) (o 4) (o 3) (p 2) d.a.bf d.a.intr
  | _ => byteBits (bit fr 7) (bit fr 6) (p 5) d.b.bf d.b.intr (p 2) d.a.bf d.a.intr

/-- The first (high) half of the period still runs: more than N/2 pulses are left (R785). -/
def Ru55.firstHalf (d : Ru55) : Bool := decide (d.reload.toNat / 2 < d.count.toNat)

/-- The counter as it is read (R786): it goes down by two a pulse, to 2 at the last pulse of the period. The first half
counts from N, or a low bit of 1 marks it as the book's recipe wants: R786 says both, and which holds is free. Unknown
once the count has ended (log 36). -/
def Ru55.counterWord (d : Ru55) (fr : Word) : Word :=
  if d.count = 0#14 then fr
  else
    let n := d.reload.toNat
    let left := if !d.firstHalf then 2 * d.count.toNat
      else if Config.ruMarksHalf then 2 * (d.count.toNat - (if n % 2 = 0 then n / 2 else n / 2 - 1)) + 1
      else 2 * d.count.toNat - n
    BitVec.ofNat 16 (d.mode.toNat * 16384 + left % 16384)

/-- The read function of the register addresses (R781, Table 6.11). -/
def Ru55.read (d : Ru55) (a : Nat) (fr : Word) : Byte × Ru55 :=
  match a with
  | 0 => (d.status (highByte fr), { d with tc := false })
  | 1 => let r := d.a.read (bit d.ctl 0) d.handshakeA; (r.1, { d with a := r.2 })
  | 2 => let r := d.b.read (bit d.ctl 1) d.handshakeB; (r.1, { d with b := r.2 })
  | 3 => (d.portC (highByte fr), d)
  | 4 => (lowByte (d.counterWord fr), d)
  | 5 => (highByte (d.counterWord fr), d)
  | _ => (lowByte fr, d)

/-- The write function of the register addresses; 110 and 111 are not used (U35). A control word leaves INTR and BF of
the ports as they are, and a line of port C that is no output takes nothing (log 36). -/
def Ru55.write (d : Ru55) (a : Nat) (v : Byte) : Ru55 :=
  match a with
  | 0 => ({ d with ctl := v }).timerCommand (fieldNat v 6 2)
  | 1 => { d with a := d.a.write (bit d.ctl 0) d.handshakeA v }
  | 2 => { d with b := d.b.write (bit d.ctl 1) d.handshakeB v }
  | 3 =>
    match d.alt with
    | 1 => { d with cBuf := BitVec.ofNat 6 (fieldNat v 0 6) }
    | 2 => { d with cBuf := setField d.cBuf 3 3 (fieldNat v 3 3) }
    | _ => d
  | 4 => { d with hold := wordOf v (highByte d.hold) }
  | 5 => { d with hold := wordOf (lowByte d.hold) v }
  | _ => d

/-- STB of port A (R784); it acts in handshake mode only. -/
def Ru55.strobeA (d : Ru55) : Ru55 :=
  if d.handshakeA then { d with a := d.a.strobe (bit d.ctl 0) (bit d.ctl 4) } else d

/-- STB of port B. -/
def Ru55.strobeB (d : Ru55) : Ru55 :=
  if d.handshakeB then { d with b := d.b.strobe (bit d.ctl 1) (bit d.ctl 5) } else d

/-- The end of a count (R785, R786): TC is set; a pending start, a pending stop, a single mode or a reload follows. -/
def Ru55.timerEnd (d : Ru55) : Ru55 :=
  let d := { d with tc := true, out := true }
  if d.startAtEnd then d.startTimer
  else if d.stopAtEnd || !bit d.mode 0 then { d with running := false, stopAtEnd := false }
  else { d with count := d.reload }

/-- A pulse on TIMER IN (R785). Modes 00 and 01 are high in the first half, modes 10 and 11 low in the last period. R785
allows N from 2H to 3FFFH. For the other two the model's counter wraps, DESIGN CHOICE (log 36): N = 0 counts 4000H pulses,
with TIMER OUT at 1 in modes 00 and 01, and N = 1 ends at the first pulse. -/
def Ru55.timerTick (d : Ru55) : Ru55 :=
  if !d.running then d
  else
    let d := { d with count := d.count - 1#14 }
    if d.count = 0#14 then d.timerEnd
    else if bit d.mode 1 then { d with out := d.count != 1#14 }
    else { d with out := d.firstHalf }

/-- RESET (R787): ports are simple inputs, the timer stops, TC is 0; buffers keep their bytes. INTR and BF of both ports
become 0 and TIMER OUT keeps its level, of which no rule speaks, DESIGN CHOICE (log 36). -/
def Ru55.systemReset (d : Ru55) : Ru55 :=
  { d with ctl := 0#8, a := { d.a with intr := false, bf := false }, b := { d.b with intr := false, bf := false },
           tc := false, running := false, stopAtEnd := false, startAtEnd := false }

/-! ### RF55 -/

/-- IN from a port: output lines return the driven level, input lines the pin (R788). -/
def rfPort (out dir pins : Byte) : Byte := (out &&& dir) ||| (pins &&& ~~~dir)

/-- The read function, at the addresses of the compatible 8355 (R788, U35). -/
def Rf55.read (d : Rf55) (a : Nat) (fr : Byte) : Byte × Rf55 :=
  match a with
  | 0 => (rfPort d.outA d.dirA d.pinsA, d)
  | 1 => (rfPort d.outB d.dirB d.pinsB, d)
  | _ => (fr, d)

/-- The write function (R788): the data latch of a line can be written while the line is an input. -/
def Rf55.write (d : Rf55) (a : Nat) (v : Byte) : Rf55 :=
  match a with
  | 0 => { d with outA := v }
  | 1 => { d with outB := v }
  | 2 => { d with dirA := v }
  | 3 => { d with dirB := v }
  | _ => d

/-- RESET clears the direction registers (R788, general knowledge of the 8355; log 37). -/
def Rf55.systemReset (d : Rf55) : Rf55 := { d with dirA := 0#8, dirB := 0#8 }

end Sys2Proof.Machine
end

