-- ==== Sys2Proof/Machine/Vg72.lean ====
section
/-! DEFINITION. The VG72 floppy-disk controller as its programming interface (49_platform_devices.md R770-R779): the
three phases of a command, the status bytes, and what each event of a drive does. The bit positions of ST1-ST3 and
the codes from lost figures are the parameters the spec fills in (U34; log 35). -/

namespace Sys2Proof.Machine

/-- The kinds of command (R774). -/
inductive FdcKind
  | readData
  | readDeleted
  | writeData
  | writeDeleted
  | readTrack
  | scanEqual
  | scanLow
  | scanHigh
  | readId
  | formatTrack
  | recalibrate
  | senseInterrupt
  | specify
  | senseDrive
  | seek
  | invalid
  deriving DecidableEq, Repr

/-- The command of a first byte (R774). -/
def fdcKind (b : Byte) : FdcKind :=
  let n := b.toNat
  if n = 0x07 then .recalibrate
  else if n = 0x08 then .senseInterrupt
  else if n = 0x03 then .specify
  else if n = 0x04 then .senseDrive
  else if n = 0x0F then .seek
  else
    match n % 32 with
    | 0x06 => .readData
    | 0x0C => .readDeleted
    | 0x05 => if bit b 5 then .invalid else .writeData
    | 0x09 => if bit b 5 then .invalid else .writeDeleted
    | 0x02 => if bit b 7 then .invalid else .readTrack
    | 0x11 => .scanEqual
    | 0x19 => .scanLow
    | 0x1D => .scanHigh
    | 0x0A => if bit b 7 || bit b 5 then .invalid else .readId
    | 0x0D => if bit b 7 || bit b 5 then .invalid else .formatTrack
    | _ => .invalid

/-- How many bytes a command has, the first included (R774). -/
def FdcKind.length : FdcKind → Nat
  | .readData => 9
  | .readDeleted => 9
  | .writeData => 9
  | .writeDeleted => 9
  | .readTrack => 9
  | .scanEqual => 9
  | .scanLow => 9
  | .scanHigh => 9
  | .readId => 2
  | .formatTrack => 6
  | .recalibrate => 2
  | .senseInterrupt => 1
  | .specify => 3
  | .senseDrive => 2
  | .seek => 3
  | .invalid => 1

/-- The data pass from the disk to the CPU. -/
def FdcKind.reads : FdcKind → Bool
  | .readData => true
  | .readDeleted => true
  | .readTrack => true
  | _ => false

/-- The data pass from the CPU to the disk. -/
def FdcKind.writes : FdcKind → Bool
  | .writeData => true
  | .writeDeleted => true
  | .formatTrack => true
  | _ => false

/-- A scan: the CPU's bytes are compared with the disk's (R778). -/
def FdcKind.scans : FdcKind → Bool
  | .scanEqual => true
  | .scanLow => true
  | .scanHigh => true
  | _ => false

/-- Byte `i` of the command in progress. -/
def Vg72.cmdByte (d : Vg72) (i : Nat) : Byte := d.cmd.getD i 0#8

/-- The command in progress (R774). -/
def Vg72.kind (d : Vg72) : FdcKind := fdcKind (d.cmdByte 0)

/-- The drive of the command in progress (R774, DS1 DS0). -/
def Vg72.unit (d : Vg72) : BitVec 2 := BitVec.ofNat 2 (fieldNat (d.cmdByte 1) 0 2)

/-- The main status register (R771). R771 has CB for a read or write command in progress; CB is 1 in the command and result
phases of every other command too (Specify, Sense interrupt status, Sense drive status, Invalid, the bytes of Seek and
Recalibrate), DESIGN CHOICE (log 35). -/
def Vg72.status (d : Vg72) : Byte :=
  let seek := d.seeking.toNat
  match d.phase with
  | .idle => BitVec.ofNat 8 (128 + seek)
  | .command => BitVec.ofNat 8 (128 + 16 + seek)
  | .execution =>
    BitVec.ofNat 8 (bitNat d.rqm * 128 + bitNat (d.kind.reads) * 64 + bitNat d.nd * 32 + 16 + seek)
  | .result => BitVec.ofNat 8 (128 + 64 + 16 + seek)

/-- Ask for a data byte, or offer one: INT in interrupt mode, DRQ in DMA mode (R772). -/
def Vg72.request (d : Vg72) : Vg72 :=
  { d with rqm := true, int := d.int || d.nd, drq := d.drq || !d.nd }

/-- ST3 of a drive (R773; U34). -/
def Vg72.st3 (d : Vg72) (hdUs : Nat) : Byte :=
  let l := d.drive.get (BitVec.ofNat 2 (hdUs % 4))
  BitVec.ofNat 8 (bitNat l.fault * 128 + bitNat l.writeProtect * 64 + bitNat l.ready * 32 + bitNat l.track0 * 16
    + bitNat l.twoSided * 8 + hdUs)

/-- ST0 at an interrupt of drive `u` (R773): IC, SE, EC when the drive signals a fault or `ec` says so, NR, the head and
the drive. -/
def Vg72.statusZero (d : Vg72) (ic : Nat) (se ec nr : Bool) (u : BitVec 2) : Byte :=
  BitVec.ofNat 8 (ic * 64 + bitNat se * 32 + bitNat (ec || (d.drive.get u).fault) * 16 + bitNat nr * 8 + bitNat d.head * 4
    + u.toNat)

/-- Enter the result phase with the seven result bytes and an interrupt (R772, R774, R779 cause 1; Format track, which
that list does not name, too: log 35). -/
def Vg72.finish (d : Vg72) (ic : Nat) (nr : Bool) : Vg72 :=
  let st0 := d.statusZero ic false false nr d.unit
  { d with phase := .result, st0 := st0, result := [st0, d.st1, d.st2, d.c, d.h, d.r, d.n], int := true, drq := false,
           rqm := false, full := false }

/-- EOT, the number of the last sector of the track (R774). -/
def Vg72.lastR (d : Vg72) : Byte := d.cmdByte 6

/-- MT: both sides (R774). -/
def Vg72.multiTrack (d : Vg72) : Bool := bit (d.cmdByte 0) 7

/-- SK: sectors with a deleted-data mark are skipped (R774). -/
def Vg72.skips (d : Vg72) : Bool := bit (d.cmdByte 0) 5

/-- Result values after the last sector (Table 6.6, R776). -/
def Vg72.finalId (d : Vg72) : Vg72 :=
  if d.r != d.lastR then { d with r := d.r + 1#8 }
  else if d.multiTrack then { d with r := 1#8, h := d.h ^^^ 1#8 }
  else { d with c := d.c + 1#8, r := 1#8 }

/-- The command ends correctly: ST0.IC = 00. -/
def Vg72.complete (d : Vg72) : Vg72 := d.finish 0 false

/-- The command ends abnormally: ST0.IC = 01 (R773). -/
def Vg72.abnormal (d : Vg72) : Vg72 := d.finish 1 false

/-- Overrun (R772): ST1.OR. -/
def Vg72.overrun (d : Vg72) : Vg72 := ({ d with st1 := setBit d.st1 4 true }).abnormal

/-- A result phase without an interrupt (R779). -/
def Vg72.answer (d : Vg72) (bytes : List Byte) : Vg72 := { d with phase := .result, result := bytes }

/-- Remember an interrupt cause for Sense interrupt status (R779 causes 2 and 3). -/
def Vg72.raise (d : Vg72) (st0 : Byte) : Vg72 := { d with sense := d.sense ++ [st0], int := true }

/-- A seek or recalibration of a drive has ended (R779): ST0.SE, and EC when track 0 was not found. -/
def Vg72.seekEnd (d : Vg72) (u : BitVec 2) (found : Bool) : Vg72 :=
  let d := { d with seeking := setBit d.seeking u.toNat false, recal := setBit d.recal u.toNat false }
  d.raise (d.statusZero (if found then 0 else 1) true (!found) false u)

/-- A seek or recalibration has ended and Sense interrupt status has not been given, so that the next other command is
invalid (R779). The change of a ready line, also an interrupt that Sense interrupt status must answer, does not make it so,
DESIGN CHOICE (log 35): the sentence of R779 can be read either way. -/
def Vg72.unsensed (d : Vg72) : Bool := d.sense.any fun st0 => bit st0 5

/-- The data bytes of a sector that pass through RIO (R775): with N = 00 the field DTL, which a scan does not have, at
most 128; Format track takes the four ID bytes of each of its SC sectors (R777). -/
def Vg72.sectorBytes (d : Vg72) : Nat :=
  if d.kind = .formatTrack then (if d.sectors < (d.cmdByte 3).toNat then 4 else 0)
  else if d.n = 0#8 then (if d.kind.scans then 128 else min (d.cmdByte 8).toNat 128)
  else 128 * 2 ^ d.n.toNat

/-- The next byte of the sector is asked for when it comes from the CPU, the sector has one more and no TC has come. -/
def Vg72.wantNext (d : Vg72) : Vg72 :=
  if (d.kind.writes || d.kind.scans) && !d.tc && decide (d.passed < d.sectorBytes) then d.request else d

/-- A sector begins. -/
def Vg72.newSector (d : Vg72) : Vg72 :=
  ({ d with passed := 0, ids := [], scanEqual := true, scanHit := true }).wantNext

/-- Begin a data command (R776, R777): a drive that is not ready ends it at once. So does the write protection of the drive
when the command writes, with NW and IC = 01, DESIGN CHOICE (log 35): R773 names the flag NW alone. Read track begins
with the first data field after the index pulse, whatever R the command names (R777), and counts them in R from 1, which
the result then gives by Table 6.6 (log 35). -/
def Vg72.beginData (d : Vg72) : Vg72 :=
  let l := d.drive.get d.unit
  let d := { d with st1 := 0#8, st2 := 0#8, tc := false, lastSector := false, full := false, rqm := false, sectors := 0,
                    head := bit (d.cmdByte 1) 2 }
  let d := if d.kind = .formatTrack then { d with n := d.cmdByte 2, r := 0#8 }
           else if d.kind = .readId then d
           else { d with c := d.cmdByte 2, h := d.cmdByte 3, r := d.cmdByte 4, n := d.cmdByte 5 }
  if !l.ready then d.finish 1 true
  else if d.kind.writes && l.writeProtect then ({ d with st1 := setBit d.st1 1 true }).abnormal
  else if d.kind = .readTrack then ({ d with phase := .execution, r := 1#8 }).newSector
  else ({ d with phase := .execution }).newSector

/-- Begin the execution of a complete command (R772, R779). Of several causes of an interrupt Sense interrupt status answers
the oldest, and INT stays until each has been answered, DESIGN CHOICE (log 35): R779 says that the command clears the
interrupt. -/
def Vg72.start (d : Vg72) : Vg72 :=
  let u := d.unit
  match d.kind with
  | .senseInterrupt =>
    match d.sense with
    | [] => d.answer [0x80#8]
    | st0 :: rest =>
      ({ d with sense := rest, int := !rest.isEmpty, st0 := st0 }).answer
        [st0, d.pcn.get (BitVec.ofNat 2 (fieldNat st0 0 2))]
  | .specify =>
    { d with phase := .idle, srt := BitVec.ofNat 4 (fieldNat (d.cmdByte 1) 4 4),
             hut := BitVec.ofNat 4 (fieldNat (d.cmdByte 1) 0 4), hlt := BitVec.ofNat 7 (fieldNat (d.cmdByte 2) 1 7),
             nd := bit (d.cmdByte 2) 0 }
  | .senseDrive => d.answer [d.st3 (fieldNat (d.cmdByte 1) 0 3)]
  | .recalibrate =>
    let d := { d with phase := .idle, head := false, pcn := d.pcn.set u 0#8, steps := d.steps.set u 0#8,
                      seeking := setBit d.seeking u.toNat true, recal := setBit d.recal u.toNat true }
    if (d.drive.get u).track0 then d.seekEnd u true else d
  | .seek =>
    let d := { d with phase := .idle, head := bit (d.cmdByte 1) 2, ncn := d.ncn.set u (d.cmdByte 2), seeking := setBit d.seeking u.toNat true,
                      recal := setBit d.recal u.toNat false }
    if d.pcn.get u = d.cmdByte 2 then d.seekEnd u true else d
  | .invalid => d.answer [0x80#8]
  | _ => d.beginData

/-- A command byte written to RIO (R772). Bits 7-3 of a second byte, which are 0 (R774), are not looked at (log 35). A
first byte other than Sense interrupt status is taken as invalid while the
end of a seek or recalibration has not been sensed (R779). -/
def Vg72.commandByte (d : Vg72) (v : Byte) : Vg72 :=
  if d.phase = .idle && d.unsensed && fdcKind v != .senseInterrupt then ({ d with cmd := [v] }).answer [0x80#8]
  else
    let d := if d.phase = .idle then { d with cmd := [v], phase := .command } else { d with cmd := d.cmd ++ [v] }
    if d.cmd.length < d.kind.length then d else d.start

/-- A data byte taken from RIO, by the CPU or, on DACK, by the VT37 (R772). -/
def Vg72.takeData (d : Vg72) : Vg72 := { d with rqm := false, int := !d.sense.isEmpty, drq := false }

/-- A data byte put in RIO. -/
def Vg72.putData (d : Vg72) (v : Byte) : Vg72 := { d.takeData with rio := v, full := true }

/-- DACK with RD: the byte the controller gives to memory (R772). -/
def Vg72.dackRead (d : Vg72) (fr : Byte) : Byte × Vg72 :=
  if d.drq && d.kind.reads then (d.rio, d.takeData) else (fr, d)

/-- DACK with WR: the byte the controller takes from memory. -/
def Vg72.dackWrite (d : Vg72) (v : Byte) : Vg72 := if d.drq && !d.kind.reads then d.putData v else d

/-- The write function: only RIO (A0 = 1) takes a byte (R770). R771 has the program wait for RS[7:6] = 10; a byte written
while they are not 10 (in the result phase, or in execution when none is asked for) is lost, DESIGN CHOICE (log 35). -/
def Vg72.write (d : Vg72) (a : Nat) (v : Byte) : Vg72 :=
  if a = 0 then d
  else
    match d.phase with
    | .idle => d.commandByte v
    | .command => d.commandByte v
    | .execution =>
      if d.rqm && !d.kind.reads then d.putData v else d
    | .result => d

/-- The read function (R770-R772): RS at A0 = 0; RIO gives a data byte, a result byte, or nothing defined. -/
def Vg72.read (d : Vg72) (a : Nat) (fr : Byte) : Byte × Vg72 :=
  if a = 0 then (d.status, d)
  else
    match d.phase with
    | .execution =>
      if d.rqm && d.kind.reads then (d.rio, d.takeData) else (fr, d)
    | .result =>
      match d.result with
      | b :: rest =>
        (b, { d with result := rest, int := !d.sense.isEmpty, phase := if rest.isEmpty then .idle else .result })
      | [] => (fr, { d with phase := .idle })
    | _ => (fr, d)

/-- A byte of a scan meets the condition (R778). -/
def scanMeets (k : FdcKind) (disk cpu : Byte) : Bool :=
  match k with
  | .scanEqual => disk == cpu
  | .scanLow => decide (disk.toNat ≤ cpu.toNat)
  | _ => decide (cpu.toNat ≤ disk.toNat)

/-- A command that uses both sides goes on from the last sector of side 0 to the first of side 1 (R774, R776). -/
def Vg72.otherSide (d : Vg72) : Bool := d.r == d.lastR && d.multiTrack && !bit d.h 0

/-- The first sector of side 1. -/
def Vg72.turnOver (d : Vg72) : Vg72 := ({ d with r := 1#8, h := d.h ^^^ 1#8, head := !d.head }).newSector

/-- The command leaves a sector behind, transferred or skipped, and goes on with the next, or ends with the track
(R776-R778), Read track after EOT data fields. A scan that meets its condition nowhere ends with SN; a read or write past
EOT without TC ends abnormally with EN (log 35). Format track counts a sector whose ID it has, and after SC of them the track goes on without data
(R777). -/
def Vg72.nextSector (d : Vg72) : Vg72 :=
  if d.kind = .formatTrack then
    if d.ids.length = 4 then ({ d with r := d.r + 1#8, sectors := d.sectors + 1 }).newSector else d
  else if d.kind = .readTrack then
    if d.tc || d.r == d.lastR then d.finalId.complete else ({ d with r := d.r + 1#8 }).newSector
  else if d.tc || d.lastSector then
    if d.kind.scans then ({ d with st2 := setBit d.st2 2 true }).complete else d.finalId.complete
  else if d.otherSide then d.turnOver
  else if d.r == d.lastR then
    if d.kind.scans then ({ d with st2 := setBit d.st2 2 true }).complete
    else ({ d.finalId with st1 := setBit d.st1 7 true }).abnormal
  else ({ d with r := d.r + (if d.kind.scans then d.cmdByte 8 else 1#8) }).newSector

/-- The end of a sector's data field (R776-R778), or of a scan that TC ends inside a sector: SH is then judged by the
bytes compared so far, and is 1 when there is none. The result bytes of a scan are C, H, R and N of the sector last
compared (log 35). -/
def Vg72.sectorEnd (d : Vg72) : Vg72 :=
  if d.kind.scans && d.scanHit then ({ d with st2 := setBit d.st2 3 d.scanEqual }).complete else d.nextSector

/-- The disk takes the byte in RIO (R777). Format track keeps the four ID bytes of each sector as C, H, R and N. -/
def Vg72.taken (d : Vg72) : Vg72 :=
  let d := { d with full := false, passed := d.passed + 1 }
  if d.kind = .formatTrack then
    let d := { d with ids := d.ids ++ [d.rio] }
    match d.ids with
    | [c, h, r, n] => { d with c := c, h := h, r := r, n := n }
    | _ => d.wantNext
  else d.wantNext

/-- A byte read from the disk has not been taken when the sector ends, which is past its deadline (R772); once TC has
come none is owed (log 35). -/
def Vg72.late (d : Vg72) : Bool := d.kind.reads && d.rqm && !d.tc

/-- What an event of the drive side does (R772, R776-R779). An event that does not fit the phase has no effect.
A line of readiness that changes raises the interrupt of R775 also before the first Specify, and a CRC error in a data
field ends Read track too, as it ends Read data (log 35). DESIGN CHOICE (log 35), R777 saying neither: a CRC error in an
ID field ends Read ID with DE and IC = 01, and a deleted-data mark makes Read track skip the sector with SK = 1, and with
SK = 0 set CM and go on with the next. -/
def Vg72.event (d : Vg72) (e : FdcEvent) : Vg72 :=
  match e with
  | .lines u l =>
    let old := d.drive.get u
    let d := { d with drive := d.drive.set u l }
    if old.ready = l.ready then d
    else if d.phase = .execution && d.unit = u then d.finish 3 (!l.ready)
    else d.raise (d.statusZero 3 false false (!l.ready) u)
  | .step u =>
    if !bit d.seeking u.toNat then d
    else if bit d.recal u.toNat then
      if (d.drive.get u).track0 then d.seekEnd u true
      else
        let d := { d with steps := d.steps.set u (d.steps.get u + 1#8) }
        if d.steps.get u = 77#8 then d.seekEnd u false else d
    else
      let p := d.pcn.get u
      let q := d.ncn.get u
      let p' := if p.toNat < q.toNat then p + 1#8 else if q.toNat < p.toNat then p - 1#8 else p
      let d := { d with pcn := d.pcn.set u p' }
      if p' = q then d.seekEnd u true else d
  | e =>
    if d.phase != .execution then d
    else
      match e with
      | .byte b =>
        if d.kind.reads then
          if d.tc || decide (d.sectorBytes ≤ d.passed) then d
          else if d.rqm then d.overrun
          else ({ d with rio := b, passed := d.passed + 1 }).request
        else if d.kind.scans then
          if decide (d.sectorBytes ≤ d.passed) then d
          else if !d.full then d.overrun
          else
            let d := { d with full := false, passed := d.passed + 1, scanEqual := d.scanEqual && (b == d.rio),
                              scanHit := d.scanHit && scanMeets d.kind b d.rio }
            if d.tc then d.sectorEnd else d.wantNext
        else d
      | .take =>
        if d.kind.writes then
          if d.sectorBytes ≤ d.passed then d
          else if d.full then d.taken
          else if d.tc then d else d.overrun
        else d
      | .sectorEnd => if d.late then d.overrun else d.sectorEnd
      | .dataCrc => if d.late then d.overrun else ({ d with st1 := setBit d.st1 5 true, st2 := setBit d.st2 5 true }).abnormal
      | .idCrc =>
        if d.kind = .readTrack then { d with st1 := setBit d.st1 2 true }
        else ({ d with st1 := setBit d.st1 5 true }).abnormal
      | .noSector => ({ d with st1 := setBit d.st1 2 true }).abnormal
      | .noMark => ({ d with st1 := setBit d.st1 0 true }).abnormal
      | .deletedMark =>
        if d.kind.writes then d
        else if d.skips then (if d.kind.scans then { d with st2 := setBit d.st2 6 true } else d).nextSector
        else { d with st2 := setBit d.st2 6 true, lastSector := true }
      | .wrongCylinder c =>
        let d := { d with st2 := setBit d.st2 4 true }
        if c = 0xFF#8 then { d with st2 := setBit d.st2 1 true } else d
      | .noDataMark => ({ d with st1 := setBit d.st1 0 true, st2 := setBit d.st2 0 true }).abnormal
      | .id c h r n => if d.kind = .readId then ({ d with c := c, h := h, r := r, n := n }).complete else d
      | .formatEnd => if d.kind = .formatTrack then d.complete else d
      | .tc =>
        if d.kind.scans then (if d.full then { d with tc := true } else ({ d with tc := true }).sectorEnd)
        else if d.kind.writes then { d.takeData with tc := true }
        else { d with tc := true }
      | _ => d

/-- RESET (R779, R861): no command in progress; the drive lines are the environment's. PCN, ST0 to ST2, C, H, R and N go
to 0, DESIGN CHOICE (logs 35, 52): the spec says only that the controller is idle, in its initial state. -/
def Vg72.systemReset (d : Vg72) : Vg72 := { Vg72.reset with drive := d.drive, srt := d.srt, hut := d.hut, hlt := d.hlt, nd := d.nd }

end Sys2Proof.Machine
end

