-- ==== Sys2Proof/Machine/Vi54.lean ====
section
/-! DEFINITION. The VI54 timer (49_platform_devices.md R750-R766). The argument `fr` of an operation is the unknown
word that the source leaves (U32, U36, and the count of mode 3 and of mode 0 after its end; log 34). -/

namespace Sys2Proof.Machine

/-- The RW field of the control word (R753). -/
def PitChan.rw (c : PitChan) : Nat := fieldNat c.rcw 4 2

/-- The mode number: bit 3 of the byte does not count in modes 2 and 3 (R753). -/
def PitChan.mode (c : PitChan) : Nat :=
  match fieldNat c.rcw 1 3 with
  | 6 => 2
  | 7 => 3
  | m => m

/-- The BCD bit. -/
def PitChan.bcd (c : PitChan) : Bool := bit c.rcw 0

/-- The value of four decimal digits. -/
def bcdValue (v : Word) : Nat :=
  fieldNat v 12 4 * 1000 + fieldNat v 8 4 * 100 + fieldNat v 4 4 * 10 + fieldNat v 0 4

/-- Four decimal digits of a number below 10000. -/
def toBcd (n : Nat) : Word :=
  BitVec.ofNat 16 (n / 1000 % 10 * 4096 + n / 100 % 10 * 256 + n / 10 % 10 * 16 + n % 10)

/-- Every nibble is a decimal digit. -/
def isBcd (v : Word) : Bool :=
  decide (fieldNat v 12 4 < 10 ∧ fieldNat v 8 4 < 10 ∧ fieldNat v 4 4 < 10 ∧ fieldNat v 0 4 < 10)

/-- One count down, binary modulo 2^16 or decimal modulo 10^4 (R759). -/
def PitChan.countDown (c : PitChan) (fr : Word) : Word :=
  if c.bcd then (if isBcd c.ce then toBcd ((bcdValue c.ce + 9999) % 10000) else fr) else c.ce - 1#16

/-- The number that a constant or a count stands for; 0 stands for 65536 or 10000 (R753, D48). -/
def PitChan.number (c : PitChan) (v : Word) : Nat :=
  if c.bcd then (if v = 0#16 then 10000 else bcdValue v) else if v = 0#16 then 65536 else v.toNat

/-- The half of the period in which mode 3 gives 1, with GATE = 1: more than half of the cycle's constant, rounded down,
is left, or the count has not begun (R763). -/
def PitChan.highHalf (c : PitChan) : Bool := !c.counting || decide (c.number c.period / 2 < c.number c.ce)

/-- The constant to load: unknown while a two-byte load is half done (U36). -/
def PitChan.constant (c : PitChan) (fr : Word) : Word := if c.writeHigh then fr else c.cr

/-- Load CE from CR; FN falls (R758). -/
def PitChan.load (c : PitChan) (fr : Word) : PitChan :=
  let v := c.constant fr
  { c with ce := v, period := v, fn := false }

/-- A control word for this channel (R753). A latched count that has not been read stays latched, and is read from its
first byte again (log 34). -/
def PitChan.control (c : PitChan) (v : Byte) : PitChan :=
  let c := { c with rcw := BitVec.ofNat 6 (fieldNat v 0 6), fn := true, writeHigh := false, readHigh := false,
                    counting := false, loadPending := false, loaded := false, trigger := false, strobe := false,
                    fired := false }
  { c with out := c.mode != 0 }

/-- What a complete constant starts, by mode group (R754); in mode 0 it also ends the 1 that OUT holds since the end of
the count before (R760). -/
def PitChan.constantDone (c : PitChan) : PitChan :=
  let c := { c with fn := true, writeHigh := false, loaded := true }
  match c.mode with
  | 0 => { c with loadPending := true, counting := false, out := false }
  | 4 => { c with loadPending := true, counting := false }
  | 2 => if c.counting then c else { c with loadPending := true }
  | 3 => if c.counting then c else { c with loadPending := true }
  | _ => c

/-- A byte of a constant (R754). A channel without a control word takes an unknown constant (U32). -/
def PitChan.writeByte (c : PitChan) (v : Byte) (fr : Word) : PitChan :=
  match c.rw with
  | 1 => ({ c with cr := wordOf v 0#8 }).constantDone
  | 2 => ({ c with cr := wordOf 0#8 v }).constantDone
  | 3 =>
    if c.writeHigh then ({ c with cr := wordOf (lowByte c.cr) v }).constantDone
    else
      let c := { c with cr := wordOf v (highByte c.cr), writeHigh := true }
      if c.mode = 0 ∨ c.mode = 4 then { c with counting := false, loadPending := false } else c
  | _ => { c with cr := fr }

/-- The count as a read or a latch sees it: in mode 3 it is no simple count (R763), and while a two-byte load is half
done it is any value (R754, U36). -/
def PitChan.visible (c : PitChan) (fr : Word) : Word := if c.mode = 3 ∨ c.writeHigh = true then fr else c.ce

/-- CLC, or the count half of RBC (R756, R757): ignored while a latched count is unread. Where the low byte of the count
has been read and the high byte has not, any value is latched (U36). Before the first count cycle has run, the first two
in modes 2 and 3, R756 calls OL not meaningful, and CE is latched as it stands, DESIGN CHOICE (log 34). -/
def PitChan.latchCount (c : PitChan) (fr : Word) : PitChan :=
  if c.countLatched then c else { c with ol := if c.readHigh then fr else c.visible fr, countLatched := true }

/-- A command comes while a two-byte load is half done: the count is any value (R754, U36). -/
def PitChan.leaveLoad (c : PitChan) (fr : Word) : PitChan := if c.writeHigh then { c with ce := fr } else c

/-- Another command comes while a two-byte read is half done: the count still to be read is any value (U36). -/
def PitChan.abandon (c : PitChan) (fr : Word) : PitChan :=
  if c.readHigh then { c with ol := fr, countLatched := true } else c

/-- The status byte (R758). -/
def PitChan.statusByte (c : PitChan) : Byte :=
  BitVec.ofNat 8 (bitNat c.out * 128 + bitNat c.fn * 64 + c.rcw.toNat)

/-- The status half of RBC (R757); a second one before the byte is read takes its place (log 34). -/
def PitChan.latchStatus (c : PitChan) : PitChan := { c with rs := c.statusByte, statusLatched := true }

/-- IN from the channel's address (R755-R757): status first, then the latched or the live count. A plain IN while the count
runs, which R755 says may catch the value in transition, gives CE as it stands between two steps, DESIGN CHOICE (log 34). -/
def PitChan.readByte (c : PitChan) (fr : Word) : Byte × PitChan :=
  if c.statusLatched then (c.rs, { c with statusLatched := false })
  else
    let v := if c.countLatched then c.ol else c.visible fr
    match c.rw with
    | 1 => (lowByte v, { c with countLatched := false })
    | 2 => (highByte v, { c with countLatched := false })
    | 3 =>
      if c.readHigh then (highByte v, { c with readHigh := false, countLatched := false })
      else (lowByte v, { c with readHigh := true })
    | _ => (lowByte fr, c)

/-- A period of CLK in mode 3 with a constant of 3 or less, with which the channel cannot work (R763): OUT and the count
are any values (log 34). -/
def PitChan.astray (c : PitChan) (fr : Word) : PitChan := { c with ce := fr >>> 1, out := bit fr 0 }

/-- A falling edge of CLK (R759-R765). -/
def PitChan.tick (c : PitChan) (fr : Word) : PitChan :=
  match c.mode with
  | 0 =>
    if c.loadPending then { c.load fr with loadPending := false, counting := true }
    else if c.counting then
      if c.gate then
        let c := { c with ce := c.countDown fr }
        if c.ce = 0#16 then { c with out := true, counting := false } else c
      else c
    else if c.out then { c with ce := fr } else c
  | 1 =>
    if c.trigger then { c.load fr with out := false, trigger := false, counting := true }
    else if c.counting then
      let c := { c with ce := c.countDown fr }
      if c.ce = 0#16 then { c with out := true, counting := false } else c
    else c
  | 2 =>
    if !c.gate then c
    else if c.loadPending then { c.load fr with loadPending := false, counting := true }
    else if c.counting then
      let c := { c with ce := c.countDown fr }
      let c := if c.ce = 1#16 then { c with out := false } else c
      if c.ce = 0#16 then { c.load fr with out := true } else c
    else c
  | 3 =>
    if !c.gate then c
    else if c.loadPending then { c.load fr with loadPending := false, counting := true, out := true }
    else if c.counting then
      if c.number c.period ≤ 3 then
        let d := c.astray fr
        if d.ce = 0#16 then { d.load fr with out := d.out } else d
      else
        let c := { c with ce := c.countDown fr }
        if c.ce = 0#16 then { c.load fr with out := true } else { c with out := c.highHalf }
    else c
  | 4 =>
    if c.loadPending then { c.load fr with loadPending := false, counting := true }
    else if c.strobe then { c with out := true, strobe := false }
    else if c.counting && c.gate then
      let c := { c with ce := c.countDown fr }
      if c.ce = 0#16 then { c with out := false, strobe := true, counting := false } else c
    else c
  | 5 =>
    if c.trigger then
      { c.load fr with trigger := false, counting := true, strobe := false, fired := false, out := true }
    else if c.counting then
      let c := if c.strobe then { c with out := true, strobe := false } else c
      let c := { c with ce := c.countDown fr }
      if !c.fired && c.ce = 0#16 then { c with out := false, strobe := true, fired := true } else c
    else c
  | _ => c

/-- A new level of GATE (R759-R766): OUT of mode 3 is 1 while GATE = 0 and has the level of its half again with GATE = 1.
An edge that comes before any constant starts nothing (R753; log 34). -/
def PitChan.gateTo (c : PitChan) (level : Bool) : PitChan :=
  let rising := level && !c.gate
  let c := { c with gate := level }
  match c.mode with
  | 1 => if rising && c.loaded then { c with trigger := true } else c
  | 5 => if rising && c.loaded then { c with trigger := true } else c
  | 2 => if level then c else { c with out := true }
  | 3 => { c with out := !level || c.highHalf }
  | _ => c

/-- Channel `n` of the timer; 3 does not arise as a channel number. -/
def Vi54.get (d : Vi54) (n : Nat) : PitChan :=
  match n with
  | 0 => d.c0
  | 1 => d.c1
  | _ => d.c2

/-- Replace channel `n`. -/
def Vi54.set (d : Vi54) (n : Nat) (c : PitChan) : Vi54 :=
  match n with
  | 0 => { d with c0 := c }
  | 1 => { d with c1 := c }
  | _ => { d with c2 := c }

/-- One channel's part of a read-back command (R757). -/
def PitChan.readBack (c : PitChan) (v : Byte) (selected : Bool) (fr : Word) : PitChan :=
  if selected then
    let c := c.leaveLoad fr
    let c := if bit v 5 then c else c.latchCount fr
    if bit v 4 then c else (c.abandon fr).latchStatus
  else c

/-- A byte written to A1 A0 = 11 (R753, R756, R757); each channel has an unknown word of its own. Bit 0 of a read-back
command, which must be 0, is not looked at (log 34). -/
def Vi54.command (d : Vi54) (v : Byte) (fr fr1 fr2 : Word) : Vi54 :=
  let n := fieldNat v 6 2
  if n = 3 then
    { c0 := d.c0.readBack v (bit v 1) fr, c1 := d.c1.readBack v (bit v 2) fr1, c2 := d.c2.readBack v (bit v 3) fr2 }
  else if fieldNat v 4 2 = 0 then d.set n (((d.get n).leaveLoad fr).latchCount fr)
  else d.set n ((((d.get n).leaveLoad fr).abandon fr).control v)

/-- The write function of the four addresses (R752). -/
def Vi54.write (d : Vi54) (a : Nat) (v : Byte) (fr fr1 fr2 : Word) : Vi54 :=
  if a = 3 then d.command v fr fr1 fr2 else d.set a ((d.get a).writeByte v fr)

/-- The read function of the four addresses (R752): address 11 gives no defined value. -/
def Vi54.read (d : Vi54) (a : Nat) (fr : Word) : Byte × Vi54 :=
  if a = 3 then (lowByte fr, d)
  else
    let r := (d.get a).readByte fr
    (r.1, d.set a r.2)

end Sys2Proof.Machine
end

