-- ==== Sys2Proof/Machine/Ops.lean ====
section
/-! DEFINITION. The named operations over memory, ports, stack and control flow (20_memory.md), and the one
operation that takes an interrupt with the return from it (60_exceptions.md R812, R815). -/

namespace Sys2Proof.Machine

/-! ### The list of cells -/

/-- What a byte of memory that nothing has written reads as (log 1). -/
def Memory.unlisted : Byte := 0#8

/-- One byte of memory. -/
def Memory.get : Memory → Nat → Byte
  | [], _ => Memory.unlisted
  | (k, v) :: r, a => if a = k then v else Memory.get r a

/-- Forget every entry of an address. -/
def Memory.drop : Memory → Nat → Memory
  | [], _ => []
  | (k, v) :: r, a => if a = k then Memory.drop r a else (k, v) :: Memory.drop r a

/-- Write one byte, in canonical form: writing what an unlisted address reads as removes the entry. -/
def Memory.put : Memory → Nat → Byte → Memory
  | [], a, b => if b = Memory.unlisted then [] else [(a, b)]
  | (k, v) :: r, a, b =>
    if b = Memory.unlisted then Memory.drop ((k, v) :: r) a
    else if a < k then (a, b) :: (k, v) :: r
    else if a = k then (a, b) :: r
    else (k, v) :: Memory.put r a b

/-- Addresses strictly rising from `lo` on, no entry equal to an unlisted byte, no address beyond `size`. -/
def Memory.wfFrom (size : Nat) : Nat → Memory → Bool
  | _, [] => true
  | lo, (k, v) :: r => decide (lo ≤ k) && decide (k < size) && v != Memory.unlisted && Memory.wfFrom size (k + 1) r

/-- The canonical form of the 2^20 bytes of system memory. -/
def Memory.wf (m : Memory) : Bool := Memory.wfFrom (2 ^ 20) 0 m

/-- The canonical form of the 2^16 bytes of an I/O space. -/
def Memory.wf16 (m : Memory) : Bool := Memory.wfFrom (2 ^ 16) 0 m

/-- The canonical form of the 256 bytes of the RU55. -/
def Memory.wf8 (m : Memory) : Bool := Memory.wfFrom (2 ^ 8) 0 m

/-- One byte of system memory as it stands, without a bus cycle: what the statements about memory speak of. -/
def State.byteAt (s : State) (a : Nat) : Byte := s.mem.get a

/-! ### Free values (log 39) -/

/-- The next free value's index is used up. -/
def State.bump (s : State) : State := { s with free := s.free + 1 }

/-- An unknown bit. -/
def State.takeBit (s : State) : Bool × State := (Config.freeBit s.free, s.bump)

/-- An unknown byte. -/
def State.takeByte (s : State) : Byte × State := (Config.freeByte s.free, s.bump)

/-- An unknown word. -/
def State.takeWord (s : State) : Word × State := (Config.freeWord s.free, s.bump)

/-- An unknown number. -/
def State.takeNat (s : State) : Nat × State := (Config.freeNat s.free, s.bump)

/-- An unknown temporary-real value. -/
def State.takeExt (s : State) : Ext80 × State := (Config.freeExt s.free, s.bump)

/-! ### Address decoding (20_memory.md R119) -/

/-- What stands at an address, and the distance from the region's base. -/
def findRegion (dflt : RegionKind) (a : Nat) : List Region → RegionKind × Nat
  | [] => (dflt, a)
  | r :: t => if r.base ≤ a ∧ a < r.base + r.size then (r.kind, a - r.base) else findRegion dflt a t

/-- A channel of the VM89. -/
def Iop.chan (p : Iop) : ChanNo → IopChan
  | .one => p.ch1
  | .two => p.ch2

/-- Replace a channel of the VM89. -/
def Iop.setChan (p : Iop) (n : ChanNo) (c : IopChan) : Iop :=
  match n with
  | .one => { p with ch1 := c }
  | .two => { p with ch2 := c }

/-- A CA pulse with the level of SEL (10_state.md R83, 48_vm89_iop.md R581): the first one after RESET starts the
initialisation, a later one is for the channel that SEL names. Requests not yet served are remembered once (D40). One
that comes after the first and before the initialisation is complete is lost, whatever its SEL (log 29). -/
def Iop.attention (p : Iop) (sel : Bool) : Iop :=
  if p.initialised then
    let n : ChanNo := if sel then .two else .one
    p.setChan n { p.chan n with ca := true }
  else if p.firstCa.isNone then { p with firstCa := some sel } else p

/-- VT37 number `u`: 0 is the one that the CPU grants the bus, `k+1` the `k`-th cascaded one (49_platform_devices.md
R742). -/
def State.dmac (s : State) (u : Nat) : Vt37 :=
  match u with
  | 0 => s.vt37
  | k + 1 => s.cascaded.getD k Vt37.reset

/-- Replace VT37 number `u`. -/
def State.setDmac (s : State) (u : Nat) (d : Vt37) : State :=
  match u with
  | 0 => { s with vt37 := d }
  | k + 1 => { s with cascaded := s.cascaded.set k d }

/-- The HRQ of cascaded controllers, number `u` the first of them, drives DREQ of their parents, the last one first
(R742). -/
def wireHrq (u : Nat) : List Cascade → List Vt37 → List Vt37
  | [], ds => ds
  | c :: r, ds =>
    let ds := wireHrq (u + 1) r ds
    ds.modify c.parent fun d => d.dreqTo c.channel (ds.getD u Vt37.reset).hrq

/-- All VT37s with the DREQ pins that other chips drive at their levels: DRQ of the VG72 (R770) and HRQ of the cascaded
controllers. -/
def State.dmacs (s : State) : List Vt37 :=
  let ds := s.vt37 :: s.cascaded
  wireHrq 1 s.plat.cascades (match s.plat.fdcDma with
    | some (u, n) => ds.modify u fun d => d.dreqTo n s.vg72.drq
    | none => ds)

/-- VT37 number `u` with those levels. -/
def State.dma (s : State) (u : Nat) : Vt37 := s.dmacs.getD u Vt37.reset

/-- The cascaded controllers, number `u` the first of them, look at their requests, the last one first, so that each
finds the HRQ of those behind it on its DREQ pins (R742). -/
def settleAll (u : Nat) : List Cascade → List Vt37 → List Vt37
  | [], ds => ds
  | c :: r, ds =>
    let ds := (settleAll (u + 1) r ds).modify u Vt37.settle
    ds.modify c.parent fun d => d.dreqTo c.channel (ds.getD u Vt37.reset).hrq

/-- Every VT37 looks at its requests: those in SI that find one raise HRQ (R741, R746). -/
def State.settleDma (s : State) : State :=
  let ds := (settleAll 1 s.plat.cascades s.dmacs).modify 0 Vt37.settle
  { s with vt37 := ds.getD 0 Vt37.reset, cascaded := ds.drop 1 }

/-- A byte that stands in a queue: what memory holds now, or one of the values it had since it may have been fetched
(R131, 92_eei_decisions.md D6; log 7). -/
def State.queuedByte (s : State) (now : Byte) (olds : List Byte) : Byte × State :=
  match olds with
  | [] => (now, s)
  | _ => ((now :: olds).getD (s.takeNat.1 % (olds.length + 1)) now, s.bump)

/-- A register read delivered to a device (49_platform_devices.md R701); the memory of the RU55 is read at the low eight
bits of its address (R781). -/
def State.devRead (s : State) (d : Dev) (reg : Nat) : Byte × State :=
  match d with
  | .vt37 u =>
    let f := s.takeByte
    let r := (s.dma u).read (reg % 16) f.1
    (r.1, f.2.setDmac u r.2)
  | .vi54 =>
    let f := s.takeWord
    let r := s.vi54.read (reg % 4) f.1
    (r.1, { f.2 with vi54 := r.2 })
  | .vg72 =>
    let f := s.takeByte
    let r := s.vg72.read (reg % 2) f.1
    (r.1, { f.2 with vg72 := r.2 })
  | .ru55 =>
    let f := s.takeWord
    let r := s.ru55.read (reg % 8) f.1
    (r.1, { f.2 with ru55 := r.2 })
  | .ru55Ram => (Memory.get s.ru55.ram (reg % 256), s)
  | .rf55 =>
    let f := s.takeByte
    let r := s.rf55.read (reg % 4) f.1
    (r.1, { f.2 with rf55 := r.2 })
  | .iopCa =>
    let f := s.takeByte
    (f.1, { f.2 with iop := s.iop.attention (reg % 2 == 1) })

/-- A register write delivered to a device. -/
def State.devWrite (s : State) (d : Dev) (reg : Nat) (v : Byte) : State :=
  match d with
  | .vt37 u => s.setDmac u ((s.dmac u).write s.plat.vt37MaskAsPrinted (reg % 16) v)
  | .vi54 =>
    let f := s.takeWord
    let g := f.2.takeWord
    let h := g.2.takeWord
    { h.2 with vi54 := s.vi54.write (reg % 4) v f.1 g.1 h.1 }
  | .vg72 => { s with vg72 := s.vg72.write (reg % 2) v }
  | .ru55 => { s with ru55 := s.ru55.write (reg % 8) v }
  | .ru55Ram => { s with ru55 := { s.ru55 with ram := Memory.put s.ru55.ram (reg % 256) v } }
  | .rf55 => { s with rf55 := s.rf55.write (reg % 4) v }
  | .iopCa => { s with iop := s.iop.attention (reg % 2 == 1) }

/-! ### Memory cycles -/

/-- The physical address of a segment and an offset (20_memory.md R101). -/
def phys (seg off : Word) : Nat := (seg.toNat * 16 + off.toNat) % 2 ^ 20

/-- The length of the instruction queue (10_state.md R39, R45). -/
def State.queueLen (s : State) : Nat := if s.plat.vm88 then 4 else 6

/-- The address lies in the next `n` bytes of the code segment (20_memory.md R131). -/
def inQueue (cs ip : Word) (a : Nat) : Nat → Bool
  | 0 => false
  | n + 1 => phys cs (ip + BitVec.ofNat 16 n) == a || inQueue cs ip a n

/-- A store changes the byte `old` at a physical address: a byte the CPU's queue may hold, or the look-ahead byte of a
VM89 channel, may keep for execution any value that it had (R131, 92_eei_decisions.md D6; log 7). -/
def Cpu.noteStore (c : Cpu) (len : Nat) (a : Nat) (old : Byte) : Cpu :=
  if inQueue c.cs c.ip a len && !c.stale.contains (a, old) then { c with stale := (a, old) :: c.stale } else c

/-- The same for a channel of the VM89 whose queue holds the byte at TP, in the space TP points to (10_state.md R82). -/
def IopChan.noteStore (c : IopChan) (io : Bool) (a : Nat) (old : Byte) : IopChan :=
  if c.queued && c.tagTp == io && (if io then c.tp.toNat % 2 ^ 16 else c.tp.toNat) == a && !c.look.contains old then
    { c with look := old :: c.look }
  else c

/-- Note a store in both queues of the VM89. -/
def Iop.noteStore (p : Iop) (io : Bool) (a : Nat) (old : Byte) : Iop :=
  { p with ch1 := p.ch1.noteStore io a old, ch2 := p.ch2.noteStore io a old }

/-- A byte stored in RAM. -/
def State.store8 (s : State) (a : Nat) (v : Byte) : State :=
  { s with mem := s.mem.put a v, cpu := s.cpu.noteStore s.queueLen a (s.mem.get a),
           iop := s.iop.noteStore false a (s.mem.get a) }

/-- A byte stored in the memory of the system's I/O space, which the VM89 shares in the local configuration
(48_vm89_iop.md R561). -/
def State.ioStore8 (s : State) (a : Nat) (v : Byte) : State :=
  { s with iomem := s.iomem.put a v,
           iop := if s.plat.iopRemote then s.iop else s.iop.noteStore true a (s.iomem.get a) }

/-- A byte stored in the memory on the VM89's own bus (R562). -/
def State.remoteStore8 (s : State) (a : Nat) (v : Byte) : State :=
  { s with remote := s.remote.put a v, iop := s.iop.noteStore true a (s.remote.get a) }

/-- A memory read cycle of one byte at a physical address (20_memory.md R103, R119, D15). -/
def State.read8 (s : State) (a : Nat) : Byte × State :=
  match findRegion .ram a s.plat.memoryMap with
  | (.ram, _) => (s.mem.get a, s)
  | (.rom, _) => (s.mem.get a, s)
  | (.absent, _) => s.takeByte
  | (.device d k, off) => s.devRead d (off / 2 ^ k)

/-- A memory write cycle of one byte (R104); writes to ROM and to absent memory are lost. -/
def State.write8 (s : State) (a : Nat) (v : Byte) : State :=
  match findRegion .ram a s.plat.memoryMap with
  | (.ram, _) => s.store8 a v
  | (.rom, _) => s
  | (.absent, _) => s
  | (.device d k, off) => s.devWrite d (off / 2 ^ k) v

/-- What stands at an address is the CA decoder of the VM89. -/
def isCa : RegionKind → Bool
  | .device .iopCa _ => true
  | _ => false

/-- A device answers in a region. -/
def isDevice : RegionKind → Bool
  | .device _ _ => true
  | _ => false

/-- What stands at an address is the memory of the RU55. -/
def isRu55Ram : RegionKind → Bool
  | .device .ru55Ram _ => true
  | _ => false

/-- The VM86 moves a word at an even address in one bus cycle (R111, R113): where the CA decoder stands at both bytes,
that is one CA, with SEL = A0 = 0 (10_state.md R83). -/
def State.oneCa (s : State) (dflt : RegionKind) (map : List Region) (lo hi : Nat) : Bool :=
  !s.plat.vm88 && lo % 2 == 0 && hi == lo + 1 && isCa (findRegion dflt lo map).1 && isCa (findRegion dflt hi map).1

/-- A word read at two physical addresses, the low byte first (R103, D4). -/
def State.read16p (s : State) (lo hi : Nat) : Word × State :=
  let l := s.read8 lo
  let h := if s.oneCa .ram s.plat.memoryMap lo hi then l.2.takeByte else l.2.read8 hi
  (wordOf l.1 h.1, h.2)

/-- A word write at two physical addresses, the low byte first (R104, D4). -/
def State.write16p (s : State) (lo hi : Nat) (v : Word) : State :=
  let t := s.write8 lo (lowByte v)
  if s.oneCa .ram s.plat.memoryMap lo hi then t else t.write8 hi (highByte v)

/-- MemRead(seg, off, 2): the high byte's offset wraps in the segment (R103, D3). -/
def State.read16 (s : State) (seg off : Word) : Word × State :=
  s.read16p (phys seg off) (phys seg (off + 1#16))

/-- MemWrite(seg, off, 2, v) (R104). -/
def State.write16 (s : State) (seg off v : Word) : State :=
  s.write16p (phys seg off) (phys seg (off + 1#16)) v

/-- A byte as a word with a zero high byte. -/
def zext (b : Byte) : Word := wordOf b 0#8

/-- A byte sign-extended to a word (30_encoding.md R157, R158). -/
def sext (b : Byte) : Word := b.signExtend 16

/-- MemRead(seg, off, w); a byte comes with a zero high byte. -/
def State.readMem (s : State) (w : Width) (seg off : Word) : Word × State :=
  match w with
  | .byte =>
    let r := s.read8 (phys seg off)
    (zext r.1, r.2)
  | .word => s.read16 seg off

/-- MemWrite(seg, off, w, v). -/
def State.writeMem (s : State) (w : Width) (seg off v : Word) : State :=
  match w with
  | .byte => s.write8 (phys seg off) (lowByte v)
  | .word => s.write16 seg off v

/-! ### Ports (20_memory.md R116) -/

/-- The register block of the RU55. -/
def isRu55 : RegionKind → Bool
  | .device .ru55 _ => true
  | _ => false

/-- What the VM88 puts on A15-A0 in a cycle of a direct port: A15-A8 repeat A7-A0 (49_platform_devices.md R781, C43). -/
def copiedPort (port : Word) : Word := wordOf (lowByte port) (lowByte port)

/-- What answers a port cycle. The port of a direct form has zeros above its eight bits (R116, R222). The chip select of the
RU55 is decoded from A15-A11 of the bus (49_platform_devices.md R781), so on the VM88 that chip answers a direct form at
the address with the copy, and not at the port. That no other device looks at the copy is a DESIGN CHOICE (log 60). -/
def State.portPlace (s : State) (direct : Bool) (port : Word) : RegionKind × Nat :=
  let place := findRegion .absent port.toNat s.plat.ioMap
  if direct && s.plat.vm88 then
    let chip := findRegion .absent (copiedPort port).toNat s.plat.ioMap
    if isRu55 chip.1 then chip else if isRu55 place.1 then (.absent, port.toNat) else place
  else place

/-- A port read cycle of one byte, `direct` in the forms with the port in the instruction; memory may stand in the I/O space
too (48_vm89_iop.md R561), and an absent port gives an unknown byte (D15). -/
def State.in8 (s : State) (direct : Bool) (port : Word) : Byte × State :=
  match s.portPlace direct port with
  | (.device d k, off) => s.devRead d (off / 2 ^ k)
  | (.ram, _) => (s.iomem.get port.toNat, s)
  | (.rom, _) => (s.iomem.get port.toNat, s)
  | (.absent, _) => s.takeByte

/-- A port write cycle of one byte; without a device it is lost. -/
def State.out8 (s : State) (direct : Bool) (port : Word) (v : Byte) : State :=
  match s.portPlace direct port with
  | (.device d k, off) => s.devWrite d (off / 2 ^ k) v
  | (.ram, _) => s.ioStore8 port.toNat v
  | (.rom, _) => s
  | (.absent, _) => s

/-- IoRead(port, w): a word takes the port and the next one, modulo 2^16 (R116, D3). -/
def State.ioRead (s : State) (direct : Bool) (w : Width) (port : Word) : Word × State :=
  match w with
  | .byte =>
    let r := s.in8 direct port
    (zext r.1, r.2)
  | .word =>
    let l := s.in8 direct port
    let h := if s.oneCa .absent s.plat.ioMap port.toNat (port + 1#16).toNat then l.2.takeByte
      else l.2.in8 direct (port + 1#16)
    (wordOf l.1 h.1, h.2)

/-- IoWrite(port, w, v). -/
def State.ioWrite (s : State) (direct : Bool) (w : Width) (port v : Word) : State :=
  match w with
  | .byte => s.out8 direct port (lowByte v)
  | .word =>
    let t := s.out8 direct port (lowByte v)
    if s.oneCa .absent s.plat.ioMap port.toNat (port + 1#16).toNat then t
    else t.out8 direct (port + 1#16) (highByte v)

/-! ### The stack (20_memory.md R108) -/

/-- push16. -/
def State.push16 (s : State) (v : Word) : State :=
  let s := { s with cpu := { s.cpu with sp := s.cpu.sp - 2#16 } }
  s.write16 s.cpu.ss s.cpu.sp v

/-- pop16. -/
def State.pop16 (s : State) : Word × State :=
  let r := s.read16 s.cpu.ss s.cpu.sp
  (r.1, { r.2 with cpu := { r.2.cpu with sp := s.cpu.sp + 2#16 } })

/-! ### Control transfer -/

/-- Continue at an offset of the current code segment; the queue is emptied (10_state.md R39). -/
def State.jumpNear (s : State) (ip : Word) : State :=
  { s with cpu := { s.cpu with ip := ip, stale := [], ahead := [] } }

/-- Continue at a segment and offset. -/
def State.jumpFar (s : State) (cs ip : Word) : State :=
  { s with cpu := { s.cpu with cs := cs, ip := ip, stale := [], ahead := [] } }

/-! ### The flag word and interrupts -/

/-- Replace the flags. -/
def State.setFlags (s : State) (f : Flags) : State := { s with cpu := { s.cpu with f := f } }

/-- F as a word; the bits that hold nothing come from an unknown word (10_state.md R26, R27, U1). -/
def Flags.toWord (f : Flags) (free : Word) : Word :=
  wordOf (byteBits f.sf f.zf (bit free 5) f.af (bit free 3) f.pf (bit free 1) f.cf)
    (byteBits (bit free 15) (bit free 14) (bit free 13) (bit free 12) f.ofl f.df f.ifl f.tf)

/-- F written from a word; the other bits are ignored (R27, U1). -/
def Flags.ofWord (v : Word) : Flags :=
  { cf := bit v 0, pf := bit v 2, af := bit v 4, zf := bit v 6, sf := bit v 7, tf := bit v 8, ifl := bit v 9,
    df := bit v 10, ofl := bit v 11 }

/-- Push F (40_data_transfer.md R220). -/
def State.pushFlags (s : State) : State :=
  let f := s.takeWord
  f.2.push16 (s.cpu.f.toWord f.1)

/-- The first half of the entry sequence: F, CS and IP are pushed, IF and TF cleared (60_exceptions.md R812). -/
def State.saveReturn (s : State) : State :=
  let s := s.pushFlags
  let s := s.setFlags { s.cpu.f with ifl := false, tf := false }
  let s := s.push16 s.cpu.cs
  s.push16 s.cpu.ip

/-- The second half: CS:IP is loaded from the vector at 4n, and a HLT ends (R812). -/
def State.enterVector (s : State) (n : Byte) : State :=
  let ip := s.read16p (4 * n.toNat) (4 * n.toNat + 1)
  let cs := ip.2.read16p (4 * n.toNat + 2) (4 * n.toNat + 3)
  let s := cs.2.jumpFar cs.1 ip.1
  { s with cpu := { s.cpu with halted := false } }

/-- Interrupt(n), the one entry sequence (60_exceptions.md R812). The return address is the CS:IP of the state (R814). -/
def State.interrupt (s : State) (n : Byte) : State := s.saveReturn.enterVector n

/-- The return from an interrupt (60_exceptions.md R815): IP, CS and F are popped. -/
def State.interruptReturn (s : State) : State :=
  let ip := s.pop16
  let cs := ip.2.pop16
  let f := cs.2.pop16
  let s := f.2.jumpFar cs.1 ip.1
  { s with cpu := { s.cpu with f := Flags.ofWord f.1 } }

/-- The VM87 executes an instruction or has a result to write (47_vm87_instructions.md R462). -/
def FpuRun.active (r : FpuRun) : Bool := !r.jobs.isEmpty || !r.writes.isEmpty

/-! ### Shorthand for the meanings -/

/-- What a step of this machine answers. -/
abbrev Result := Host.Outcome State Fault Refusal

end Sys2Proof.Machine
end

