-- ==== Sys2Proof/Machine/Operands.lean ====
section
/-! DEFINITION. Every operand form of the VM86: registers (10_state.md R20, R21, R24), effective addresses
(20_memory.md R135, 30_encoding.md R156), immediates (R157), the accumulator and its extension (41_arithmetic.md R241). -/

namespace Sys2Proof.Machine

/-! ### Registers -/

/-- A 16-bit general register. -/
def Cpu.reg16 (c : Cpu) : GReg → Word
  | .ax => c.ax
  | .cx => c.cx
  | .dx => c.dx
  | .bx => c.bx
  | .sp => c.sp
  | .bp => c.bp
  | .si => c.si
  | .di => c.di

/-- Write a 16-bit general register. -/
def Cpu.setReg16 (c : Cpu) (r : GReg) (v : Word) : Cpu :=
  match r with
  | .ax => { c with ax := v }
  | .cx => { c with cx := v }
  | .dx => { c with dx := v }
  | .bx => { c with bx := v }
  | .sp => { c with sp := v }
  | .bp => { c with bp := v }
  | .si => { c with si := v }
  | .di => { c with di := v }

/-- A byte register: the codes of AX, CX, DX, BX are the low bytes, those of SP, BP, SI, DI the high bytes AH, CH, DH,
BH (R21). -/
def Cpu.reg8 (c : Cpu) : GReg → Byte
  | .ax => lowByte c.ax
  | .cx => lowByte c.cx
  | .dx => lowByte c.dx
  | .bx => lowByte c.bx
  | .sp => highByte c.ax
  | .bp => highByte c.cx
  | .si => highByte c.dx
  | .di => highByte c.bx

/-- Replace the low byte of a word. -/
def withLow (w : Word) (b : Byte) : Word := wordOf b (highByte w)

/-- Replace the high byte of a word. -/
def withHigh (w : Word) (b : Byte) : Word := wordOf (lowByte w) b

/-- Write a byte register: the other byte of the word register is unchanged (R21). -/
def Cpu.setReg8 (c : Cpu) (r : GReg) (b : Byte) : Cpu :=
  match r with
  | .ax => { c with ax := withLow c.ax b }
  | .cx => { c with cx := withLow c.cx b }
  | .dx => { c with dx := withLow c.dx b }
  | .bx => { c with bx := withLow c.bx b }
  | .sp => { c with ax := withHigh c.ax b }
  | .bp => { c with cx := withHigh c.cx b }
  | .si => { c with dx := withHigh c.dx b }
  | .di => { c with bx := withHigh c.bx b }

/-- reg_read(w); a byte comes with a zero high byte. -/
def Cpu.reg (c : Cpu) (w : Width) (r : GReg) : Word :=
  match w with
  | .byte => zext (c.reg8 r)
  | .word => c.reg16 r

/-- reg_write(w, v). -/
def Cpu.setReg (c : Cpu) (w : Width) (r : GReg) (v : Word) : Cpu :=
  match w with
  | .byte => c.setReg8 r (lowByte v)
  | .word => c.setReg16 r v

/-- A segment register (R24). -/
def Cpu.sreg (c : Cpu) : SReg → Word
  | .es => c.es
  | .cs => c.cs
  | .ss => c.ss
  | .ds => c.ds

/-- Write a segment register. -/
def Cpu.setSreg (c : Cpu) (r : SReg) (v : Word) : Cpu :=
  match r with
  | .es => { c with es := v }
  | .cs => { c with cs := v }
  | .ss => { c with ss := v }
  | .ds => { c with ds := v }

/-- Read a register of the state. -/
def State.reg (s : State) (w : Width) (r : GReg) : Word := s.cpu.reg w r

/-- Write a register of the state. -/
def State.setReg (s : State) (w : Width) (r : GReg) (v : Word) : State := { s with cpu := s.cpu.setReg w r v }

/-! ### Effective addresses -/

/-- The base and index part of an effective address (20_memory.md R135). -/
def Cpu.baseIndex (c : Cpu) : EaRow → Word
  | .bxSi => c.bx + c.si
  | .bxDi => c.bx + c.di
  | .bpSi => c.bp + c.si
  | .bpDi => c.bp + c.di
  | .si => c.si
  | .di => c.di
  | .bp => c.bp
  | .bx => c.bx

/-- The effective address, modulo 2^16 (R135). -/
def Cpu.ea (c : Cpu) : MemOp → Word
  | .direct v => v
  | .noDisp e => c.baseIndex e
  | .disp8 e b => c.baseIndex e + sext b
  | .disp16 e v => c.baseIndex e + v

/-- The rows that use BP take SS by default (R105). -/
def eaSegment : EaRow → SReg
  | .bpSi => .ss
  | .bpDi => .ss
  | .bp => .ss
  | _ => .ds

/-- The default segment register of a memory operand (R105, R156). -/
def opSegment : MemOp → SReg
  | .direct _ => .ds
  | .noDisp e => eaSegment e
  | .disp8 e _ => eaSegment e
  | .disp16 e _ => eaSegment e

/-- The segment value of an access: the override when one is present (R106). -/
def Cpu.segFor (c : Cpu) (dflt : SReg) : Word := c.sreg (c.lead.seg.getD dflt)

/-- The segment value of a memory operand. -/
def Cpu.memSeg (c : Cpu) (m : MemOp) : Word := c.segFor (opSegment m)

/-- The physical address of the byte `k` of a memory operand, in its segment. -/
def Cpu.memAddr (c : Cpu) (m : MemOp) (k : Nat) : Nat := phys (c.memSeg m) (c.ea m + BitVec.ofNat 16 k)

/-- Read a memory operand. -/
def State.readOp (s : State) (w : Width) (m : MemOp) : Word × State := s.readMem w (s.cpu.memSeg m) (s.cpu.ea m)

/-- Write a memory operand whose address is taken from the registers of `c`. -/
def State.writeOp (s : State) (c : Cpu) (w : Width) (m : MemOp) (v : Word) : State :=
  s.writeMem w (c.memSeg m) (c.ea m) v

/-- rm_read(w) (40_data_transfer.md). -/
def State.readRm (s : State) (w : Width) : RM → Word × State
  | .reg r => (s.reg w r, s)
  | .mem m => s.readOp w m

/-- rm_write(w, v); the address of a memory destination is that of the registers of `c`. -/
def State.writeRm (s : State) (c : Cpu) (w : Width) (rm : RM) (v : Word) : State :=
  match rm with
  | .reg r => s.setReg w r v
  | .mem m => s.writeOp c w m v

/-- A far pointer in memory: the offset word, then the segment word two higher in the same segment (20_memory.md
R107). -/
def State.readFar (s : State) (m : MemOp) : (Word × Word) × State :=
  let seg := s.cpu.memSeg m
  let ea := s.cpu.ea m
  let lo := s.read16 seg ea
  let hi := lo.2.read16 seg (ea + 2#16)
  ((lo.1, hi.1), hi.2)

/-! ### Immediates -/

/-- The width an immediate selects. -/
def immWidth : Imm → Width
  | .b _ => .byte
  | .w _ => .word

/-- The value of an immediate. -/
def immValue : Imm → Word
  | .b v => zext v
  | .w v => v

/-- The width of an immediate of `100000 s w`. -/
def aluWidth : AluImm → Width
  | .b _ => .byte
  | .w _ => .word
  | .bAlias _ => .byte
  | .sx _ => .word

/-- The value of an immediate of `100000 s w` (30_encoding.md R157). -/
def aluValue : AluImm → Word
  | .b v => zext v
  | .w v => v
  | .bAlias v => zext v
  | .sx v => sext v

/-! ### The accumulator and its extension (41_arithmetic.md R241) -/

/-- AL or AX. -/
def State.acc (s : State) (w : Width) : Word := s.reg w .ax

/-- Write AL or AX. -/
def State.setAcc (s : State) (w : Width) (v : Word) : State := s.setReg w .ax v

/-- The register code of the extension: AH (the byte code of SP) or DX. -/
def extReg : Width → GReg
  | .byte => .sp
  | .word => .dx

/-- AH or DX. -/
def State.ext (s : State) (w : Width) : Word := s.reg w (extReg w)

/-- Write AH or DX. -/
def State.setExt (s : State) (w : Width) (v : Word) : State := s.setReg w (extReg w) v

end Sys2Proof.Machine
end

