-- ==== Sys2Proof/Machine/Flags.lean ====
section
/-! DEFINITION. Every flag computation of the VM86 (10_state.md R28-R33, 30_encoding.md R170), by exact arithmetic on
natural numbers. A byte value has a zero high byte. -/

namespace Sys2Proof.Machine

/-- The number of bits of an operand. -/
def bitsOf : Width → Nat
  | .byte => 8
  | .word => 16

/-- 2^N. -/
def modOf (w : Width) : Nat := 2 ^ bitsOf w

/-- 2^(N-1). -/
def halfOf (w : Width) : Nat := 2 ^ (bitsOf w - 1)

/-- A result of N bits. -/
def trunc (w : Width) (n : Nat) : Word := BitVec.ofNat 16 (n % modOf w)

/-- The most significant bit of an operand (R32). -/
def msb (w : Width) (v : Word) : Bool := decide (halfOf w ≤ v.toNat % modOf w)

/-- The number of one bits among the `n` lowest. -/
def ones (v : Nat) : Nat → Nat
  | 0 => 0
  | n + 1 => v / 2 ^ n % 2 + ones v n

/-- Even parity of the low byte (R29). -/
def parity (v : Word) : Bool := ones v.toNat 8 % 2 == 0

/-- The result is zero (R31). -/
def isZero (w : Width) (v : Word) : Bool := v.toNat % modOf w == 0

/-- set_szp: SF, ZF and PF from a result. -/
def Flags.szp (f : Flags) (w : Width) (r : Word) : Flags :=
  { f with sf := msb w r, zf := isZero w r, pf := parity r }

/-- The sum of two operands and a carry, N bits. -/
def addResult (w : Width) (a b : Word) (c : Bool) : Word := trunc w (a.toNat + b.toNat + bitNat c)

/-- add_flags: all six flags of an addition (R28-R33). OF is a carry into the top bit without a carry out of it, or the
reverse. -/
def Flags.add (f : Flags) (w : Width) (a b : Word) (c : Bool) : Flags :=
  let n := bitNat c
  let cout := decide (modOf w ≤ a.toNat + b.toNat + n)
  let cin := decide (halfOf w ≤ a.toNat % halfOf w + b.toNat % halfOf w + n)
  ({ f with cf := cout, af := decide (16 ≤ a.toNat % 16 + b.toNat % 16 + n), ofl := cin != cout }).szp w
    (addResult w a b c)

/-- The difference of two operands and a borrow, N bits. -/
def subResult (w : Width) (a b : Word) (c : Bool) : Word := trunc w (a.toNat + 2 * modOf w - b.toNat - bitNat c)

/-- sub_flags: all six flags of a subtraction. -/
def Flags.sub (f : Flags) (w : Width) (a b : Word) (c : Bool) : Flags :=
  let n := bitNat c
  let bout := decide (a.toNat < b.toNat + n)
  let bin := decide (a.toNat % halfOf w < b.toNat % halfOf w + n)
  ({ f with cf := bout, af := decide (a.toNat % 16 < b.toNat % 16 + n), ofl := bin != bout }).szp w
    (subResult w a b c)

/-- logic_flags: OF = CF = 0, SF ZF PF from the result, AF undefined (U2). -/
def Flags.logic (f : Flags) (w : Width) (r : Word) (freeAf : Bool) : Flags :=
  ({ f with cf := false, ofl := false, af := freeAf }).szp w r

/-- The six arithmetic flags from an unknown word: after DIV and IDIV (R170, U2). -/
def Flags.unknown (f : Flags) (u : Word) : Flags :=
  { f with cf := bit u 0, pf := bit u 2, af := bit u 4, zf := bit u 6, sf := bit u 7, ofl := bit u 11 }

/-- Take an unknown bit for AF and set the flags of a logic result. -/
def State.logicFlags (s : State) (w : Width) (r : Word) : State :=
  let u := s.takeBit
  u.2.setFlags (s.cpu.f.logic w r u.1)

/-! ### Shifts and rotates (42_logic_shift.md R277-R285): one position -/

/-- The kinds of shift. -/
inductive ShiftKind
  | rol
  | ror
  | rcl
  | rcr
  | shl
  | shr
  | sar
  deriving DecidableEq, Repr

/-- One position: the new operand and the new CF. -/
def shiftStep (k : ShiftKind) (w : Width) (v : Word) (cf : Bool) : Word × Bool :=
  let n := v.toNat % modOf w
  match k with
  | .shl => (trunc w (n * 2), msb w v)
  | .shr => (trunc w (n / 2), bit v 0)
  | .sar => (trunc w (n / 2 + bitNat (msb w v) * halfOf w), bit v 0)
  | .rol => (trunc w (n * 2 + bitNat (msb w v)), msb w v)
  | .ror => (trunc w (n / 2 + bitNat (bit v 0) * halfOf w), bit v 0)
  | .rcl => (trunc w (n * 2 + bitNat cf), msb w v)
  | .rcr => (trunc w (n / 2 + bitNat cf * halfOf w), bit v 0)

/-- `n` positions (R277). -/
def shiftN (k : ShiftKind) (w : Width) : Nat → Word × Bool → Word × Bool
  | 0, p => p
  | n + 1, p => shiftN k w n (shiftStep k w p.1 p.2)

/-- The kinds that set SF, ZF and PF and leave AF undefined (R278). -/
def ShiftKind.isShift : ShiftKind → Bool
  | .shl => true
  | .shr => true
  | .sar => true
  | _ => false

/-- OF after a shift by the constant 1 (R279-R285): the sign bit changed; SAR clears it. -/
def shiftOverflow (k : ShiftKind) (w : Width) (old : Word) (r : Word × Bool) : Bool :=
  match k with
  | .shl => msb w r.1 != r.2
  | .rol => msb w r.1 != r.2
  | .rcl => msb w r.1 != r.2
  | .shr => msb w old
  | .sar => false
  | .ror => msb w r.1 != bit r.1 (bitsOf w - 2)
  | .rcr => msb w r.1 != bit r.1 (bitsOf w - 2)

/-- The flags after a shift by at least one position (R278); `u` supplies the undefined ones. -/
def Flags.shift (f : Flags) (k : ShiftKind) (c : ShiftCount) (w : Width) (old : Word) (r : Word × Bool) (u : Word) :
    Flags :=
  let ofl : Bool :=
    match k, c with
    | .sar, _ => false
    | k, .one => shiftOverflow k w old r
    | _, .cl => bit u 11
  let f := { f with cf := r.2, ofl := ofl }
  if k.isShift then ({ f with af := bit u 4 }).szp w r.1 else f

/-! ### Conditions (30_encoding.md R171) -/

/-- The condition of a conditional jump. -/
inductive Cond
  | o
  | no
  | b
  | nb
  | e
  | ne
  | be
  | a
  | s
  | ns
  | p
  | np
  | l
  | ge
  | le
  | g
  deriving DecidableEq, Repr

/-- Whether a condition holds (Table 2.11). -/
def Cond.holds (c : Cond) (f : Flags) : Bool :=
  match c with
  | .o => f.ofl
  | .no => !f.ofl
  | .b => f.cf
  | .nb => !f.cf
  | .e => f.zf
  | .ne => !f.zf
  | .be => f.cf || f.zf
  | .a => !(f.cf || f.zf)
  | .s => f.sf
  | .ns => !f.sf
  | .p => f.pf
  | .np => !f.pf
  | .l => f.sf != f.ofl
  | .ge => !(f.sf != f.ofl)
  | .le => (f.sf != f.ofl) || f.zf
  | .g => !((f.sf != f.ofl) || f.zf)

end Sys2Proof.Machine
end

