-- ==== Sys2Proof/Machine/Arith.lean ====
section
/-! DEFINITION. The arithmetic instructions of the VM86 (41_arithmetic.md). -/

namespace Sys2Proof.Machine

/-- The two-operand operations (41_arithmetic.md R232, 42_logic_shift.md R270). -/
inductive AluOp
  | add
  | adc
  | sub
  | sbb
  | cmp
  | and
  | or
  | xor
  | test
  deriving DecidableEq, Repr

/-- CMP and TEST write no operand (R237, R274). -/
def AluOp.writes : AluOp → Bool
  | .cmp => false
  | .test => false
  | _ => true

/-- The result of an operation on `a` (left) and `b`, with the old CF. -/
def AluOp.result (op : AluOp) (w : Width) (a b : Word) (cf : Bool) : Word :=
  match op with
  | .add => addResult w a b false
  | .adc => addResult w a b cf
  | .sub => subResult w a b false
  | .sbb => subResult w a b cf
  | .cmp => subResult w a b false
  | .and => a &&& b
  | .or => a ||| b
  | .xor => a ^^^ b
  | .test => a &&& b

/-- The state with the flags of an operation. -/
def State.aluFlags (s : State) (op : AluOp) (w : Width) (a b : Word) : State :=
  match op with
  | .add => s.setFlags (s.cpu.f.add w a b false)
  | .adc => s.setFlags (s.cpu.f.add w a b s.cpu.f.cf)
  | .sub => s.setFlags (s.cpu.f.sub w a b false)
  | .sbb => s.setFlags (s.cpu.f.sub w a b s.cpu.f.cf)
  | .cmp => s.setFlags (s.cpu.f.sub w a b false)
  | .and => s.logicFlags w (a &&& b)
  | .or => s.logicFlags w (a ||| b)
  | .xor => s.logicFlags w (a ^^^ b)
  | .test => s.logicFlags w (a &&& b)

/-- A two-operand instruction with destination r/m and the right operand `b`. -/
def aluToRm (op : AluOp) (w : Width) (rm : RM) (b : Word) (s : State) : Result :=
  let a := s.readRm w rm
  let t := a.2.aluFlags op w a.1 b
  .next (if op.writes then t.writeRm s.cpu w rm (op.result w a.1 b s.cpu.f.cf) else t)

/-- The forms r/m,r and r,r/m (R232). -/
def aluRmReg (op : AluOp) (d : Dir) (w : Width) (r : GReg) (rm : RM) (s : State) : Result :=
  match d with
  | .toRm => aluToRm op w rm (s.reg w r) s
  | .toReg =>
    let a := s.reg w r
    let b := s.readRm w rm
    let t := b.2.aluFlags op w a b.1
    .next (if op.writes then t.setReg w r (op.result w a b.1 s.cpu.f.cf) else t)

/-- ADD, register and r/m (R233). -/
def execAddRmR (d : Dir) (w : Width) (r : GReg) (rm : RM) (s : State) : Result := aluRmReg .add d w r rm s

/-- ADD r/m,imm (R233). -/
def execAddRmImm (rm : RM) (v : AluImm) (s : State) : Result := aluToRm .add (aluWidth v) rm (aluValue v) s

/-- ADD ac,imm (R233). -/
def execAddAccImm (v : Imm) (s : State) : Result := aluToRm .add (immWidth v) (.reg .ax) (immValue v) s

/-- ADC, register and r/m (R234). -/
def execAdcRmR (d : Dir) (w : Width) (r : GReg) (rm : RM) (s : State) : Result := aluRmReg .adc d w r rm s

/-- ADC r/m,imm (R234). -/
def execAdcRmImm (rm : RM) (v : AluImm) (s : State) : Result := aluToRm .adc (aluWidth v) rm (aluValue v) s

/-- ADC ac,imm (R234). -/
def execAdcAccImm (v : Imm) (s : State) : Result := aluToRm .adc (immWidth v) (.reg .ax) (immValue v) s

/-- SUB, register and r/m (R235). -/
def execSubRmR (d : Dir) (w : Width) (r : GReg) (rm : RM) (s : State) : Result := aluRmReg .sub d w r rm s

/-- SUB r/m,imm (R235). -/
def execSubRmImm (rm : RM) (v : AluImm) (s : State) : Result := aluToRm .sub (aluWidth v) rm (aluValue v) s

/-- SUB ac,imm (R235). -/
def execSubAccImm (v : Imm) (s : State) : Result := aluToRm .sub (immWidth v) (.reg .ax) (immValue v) s

/-- SBB, register and r/m (R236). -/
def execSbbRmR (d : Dir) (w : Width) (r : GReg) (rm : RM) (s : State) : Result := aluRmReg .sbb d w r rm s

/-- SBB r/m,imm (R236). -/
def execSbbRmImm (rm : RM) (v : AluImm) (s : State) : Result := aluToRm .sbb (aluWidth v) rm (aluValue v) s

/-- SBB ac,imm (R236). -/
def execSbbAccImm (v : Imm) (s : State) : Result := aluToRm .sbb (immWidth v) (.reg .ax) (immValue v) s

/-- CMP, register and r/m (R237). -/
def execCmpRmR (d : Dir) (w : Width) (r : GReg) (rm : RM) (s : State) : Result := aluRmReg .cmp d w r rm s

/-- CMP r/m,imm (R237). -/
def execCmpRmImm (rm : RM) (v : AluImm) (s : State) : Result := aluToRm .cmp (aluWidth v) rm (aluValue v) s

/-- CMP ac,imm (R237). -/
def execCmpAccImm (v : Imm) (s : State) : Result := aluToRm .cmp (immWidth v) (.reg .ax) (immValue v) s

/-- INC by the addition flags, CF kept (R238). -/
def incOp (w : Width) (rm : RM) (s : State) : Result :=
  let a := s.readRm w rm
  let f := { a.2.cpu.f.add w a.1 1#16 false with cf := s.cpu.f.cf }
  .next ((a.2.setFlags f).writeRm s.cpu w rm (addResult w a.1 1#16 false))

/-- DEC by the subtraction flags, CF kept (R239). -/
def decOp (w : Width) (rm : RM) (s : State) : Result :=
  let a := s.readRm w rm
  let f := { a.2.cpu.f.sub w a.1 1#16 false with cf := s.cpu.f.cf }
  .next ((a.2.setFlags f).writeRm s.cpu w rm (subResult w a.1 1#16 false))

/-- INC r/m (R238). -/
def execIncRm (w : Width) (rm : RM) (s : State) : Result := incOp w rm s

/-- INC r16 (R238). -/
def execIncR (r : GReg) (s : State) : Result := incOp .word (.reg r) s

/-- DEC r/m (R239). -/
def execDecRm (w : Width) (rm : RM) (s : State) : Result := decOp w rm s

/-- DEC r16 (R239). -/
def execDecR (r : GReg) (s : State) : Result := decOp .word (.reg r) s

/-- NEG r/m: 0 - dst (R240). -/
def execNegRm (w : Width) (rm : RM) (s : State) : Result :=
  let a := s.readRm w rm
  let t := a.2.setFlags (a.2.cpu.f.sub w 0#16 a.1 false)
  .next (t.writeRm s.cpu w rm (subResult w 0#16 a.1 false))

/-! ### Multiplication and division (R241-R246) -/

/-- ext:ac as one number of 2N bits. -/
def State.extAcc (s : State) (w : Width) : Nat := (s.ext w).toNat * modOf w + (s.acc w).toNat

/-- Write ext:ac from a number, modulo 2^(2N). -/
def State.setExtAcc (s : State) (w : Width) (p : Nat) : State :=
  (s.setAcc w (trunc w p)).setExt w (trunc w (p / modOf w))

/-- The signed value of an N-bit operand. -/
def signedOf (w : Width) (v : Word) : Int :=
  if msb w v then (v.toNat % modOf w : Nat) - (modOf w : Nat) else (v.toNat % modOf w : Nat)

/-- The signed value of a number of 2N bits. -/
def signedOf2 (w : Width) (n : Nat) : Int :=
  if modOf w * halfOf w ≤ n then (n : Int) - (modOf w * modOf w : Nat) else n

/-- An integer in two's complement of 2N bits. -/
def wrap2 (w : Width) (i : Int) : Nat := (i % ((modOf w * modOf w : Nat) : Int)).toNat

/-- An integer in two's complement of N bits. -/
def wrap1 (w : Width) (i : Int) : Word := BitVec.ofNat 16 (i % ((modOf w : Nat) : Int)).toNat

/-- The flags of a product: CF = OF, the other four undefined (R243, R244, U2). -/
def Flags.product (f : Flags) (big : Bool) (u : Word) : Flags := { f.unknown u with cf := big, ofl := big }

/-- MUL (R243). -/
def execMulRm (w : Width) (rm : RM) (s : State) : Result :=
  let b := s.readRm w rm
  let p := (s.acc w).toNat * b.1.toNat
  let u := b.2.takeWord
  .next ((u.2.setExtAcc w p).setFlags (s.cpu.f.product (decide (p / modOf w ≠ 0)) u.1))

/-- IMUL (R244): CF = OF = 1 when the high half is not the sign extension of the low half. -/
def execImulRm (w : Width) (rm : RM) (s : State) : Result :=
  let b := s.readRm w rm
  let p := signedOf w (s.acc w) * signedOf w b.1
  let u := b.2.takeWord
  .next ((u.2.setExtAcc w (wrap2 w p)).setFlags
    (s.cpu.f.product (decide (p < -(halfOf w : Int) ∨ (halfOf w : Int) ≤ p)) u.1))

/-- The divide error (R242): quotient and remainder registers and the six flags are unknown (U5, U2), then the type 0
interrupt with the address of the next instruction. -/
def State.divideError (s : State) (w : Width) : State :=
  let q := s.takeWord
  let r := q.2.takeWord
  let u := r.2.takeWord
  (((u.2.setAcc w q.1).setExt w r.1).setFlags (s.cpu.f.unknown u.1)).interrupt 0#8

/-- The quotient and remainder of a division, with unknown flags. -/
def State.quotient (s : State) (w : Width) (q r : Word) : State :=
  let u := s.takeWord
  ((u.2.setAcc w q).setExt w r).setFlags (s.cpu.f.unknown u.1)

/-- DIV (R245). -/
def execDivRm (w : Width) (rm : RM) (s : State) : Result :=
  let b := s.readRm w rm
  let n := s.extAcc w
  let d := b.1.toNat
  if d = 0 ∨ modOf w ≤ n / d then .next (b.2.divideError w)
  else .next (b.2.quotient w (trunc w (n / d)) (trunc w (n % d)))

/-- IDIV (R246): the quotient is truncated toward zero and its range is the full range of a signed operand. -/
def execIdivRm (w : Width) (rm : RM) (s : State) : Result :=
  let b := s.readRm w rm
  let n := signedOf2 w (s.extAcc w)
  let d := signedOf w b.1
  let q := Int.tdiv n d
  if d = 0 ∨ q < -(halfOf w : Int) ∨ (halfOf w : Int) ≤ q then .next (b.2.divideError w)
  else .next (b.2.quotient w (wrap1 w q) (wrap1 w (Int.tmod n d)))

/-- CBW (R247). -/
def execCbw (s : State) : Result := .next (s.setReg .word .ax (sext (s.cpu.reg8 .ax)))

/-- CWD (R248). -/
def execCwd (s : State) : Result :=
  .next (s.setReg .word .dx (if msb .word s.cpu.ax then 0xFFFF#16 else 0#16))

/-! ### Decimal and ASCII correction (R249-R254) -/

/-- Write AL. -/
def State.setAl (s : State) (n : Nat) : State := s.setReg .byte .ax (BitVec.ofNat 16 (n % 256))

/-- Write AH. -/
def State.setAh (s : State) (n : Nat) : State := s.setReg .byte .sp (BitVec.ofNat 16 (n % 256))

/-- The common form of DAA and DAS: the two corrections and the flags; OF is unknown. -/
def decimalAdjust (s : State) (low high : Nat) : Result :=
  let al := (s.cpu.reg8 .ax).toNat
  let c1 := decide (9 < al % 16) || s.cpu.f.af
  let c2 := decide (0x99 < al) || s.cpu.f.cf
  let a1 := if c1 then (al + low) % 256 else al
  let a2 := if c2 then (a1 + high) % 256 else a1
  let u := s.takeBit
  .next ((u.2.setAl a2).setFlags
    (({ s.cpu.f with af := c1, cf := c2, ofl := u.1 }).szp .byte (BitVec.ofNat 16 a2)))

/-- DAA (R249). -/
def execDaa (s : State) : Result := decimalAdjust s 0x06 0x60

/-- DAS (R250): adding 256 - 6 and 256 - 96 subtracts modulo 256. -/
def execDas (s : State) : Result := decimalAdjust s 0xFA 0xA0

/-- The common form of AAA and AAS; OF, SF, ZF, PF are unknown. -/
def asciiAdjust (s : State) (al6 ah1 : Nat) : Result :=
  let al := (s.cpu.reg8 .ax).toNat
  let ah := (s.cpu.reg8 .sp).toNat
  let c := decide (9 < al % 16) || s.cpu.f.af
  let u := s.takeWord
  let t := u.2.setAl ((if c then al + al6 else al) % 16)
  let t := if c then t.setAh (ah + ah1) else t
  .next (t.setFlags { s.cpu.f.unknown u.1 with af := c, cf := c })

/-- AAA (R251). -/
def execAaa (s : State) : Result := asciiAdjust s 6 1

/-- AAS (R252). -/
def execAas (s : State) : Result := asciiAdjust s 250 255

/-- The flags after AAM and AAD: SF, ZF, PF from AL, the others unknown (R253, R254). -/
def State.asciiFlags (s : State) (al : Nat) : State :=
  let u := s.takeWord
  u.2.setFlags ((s.cpu.f.unknown u.1).szp .byte (BitVec.ofNat 16 (al % 256)))

/-- AAM (R253). -/
def execAam (s : State) : Result :=
  let al := (s.cpu.reg8 .ax).toNat
  .next (((s.setAl (al % 10)).setAh (al / 10)).asciiFlags (al % 10))

/-- AAD (R254). -/
def execAad (s : State) : Result :=
  let al := (s.cpu.reg8 .ax).toNat
  let ah := (s.cpu.reg8 .sp).toNat
  .next (((s.setAl (ah * 10 + al)).setAh 0).asciiFlags (ah * 10 + al))

end Sys2Proof.Machine
end

