-- ==== Sys2Proof/Machine/Control.lean ====
section
/-! DEFINITION. The control-transfer instructions of the VM86 (44_control_transfer.md). -/

namespace Sys2Proof.Machine

/-- The relative target (R320). -/
def State.relative (s : State) (d : Word) : Word := s.cpu.ip + d

/-- JMP SHORT (R321). -/
def execJmpShort (rel : Byte) (s : State) : Result := .next (s.jumpNear (s.relative (sext rel)))

/-- JMP NEAR (R322). -/
def execJmpNear (rel : Word) (s : State) : Result := .next (s.jumpNear (s.relative rel))

/-- JMP r/m16 (R323): the value is absolute. -/
def execJmpRm (rm : RM) (s : State) : Result :=
  let t := s.readRm .word rm
  .next (t.2.jumpNear t.1)

/-- JMP FAR (R324). -/
def execJmpFar (off seg : Word) (s : State) : Result := .next (s.jumpFar seg off)

/-- JMP m32 (R325). -/
def execJmpMem (m : MemOp) (s : State) : Result :=
  let p := s.readFar m
  .next (p.2.jumpFar p.1.2 p.1.1)

/-- CALL NEAR (R326). -/
def execCallNear (rel : Word) (s : State) : Result := .next ((s.push16 s.cpu.ip).jumpNear (s.relative rel))

/-- CALL r/m16 (R327): the operand is read before the push. -/
def execCallRm (rm : RM) (s : State) : Result :=
  let t := s.readRm .word rm
  .next ((t.2.push16 s.cpu.ip).jumpNear t.1)

/-- CALL FAR (R328). -/
def execCallFar (off seg : Word) (s : State) : Result :=
  .next (((s.push16 s.cpu.cs).push16 s.cpu.ip).jumpFar seg off)

/-- CALL m32 (R329): the pointer is read before the pushes. -/
def execCallMem (m : MemOp) (s : State) : Result :=
  let p := s.readFar m
  .next (((p.2.push16 s.cpu.cs).push16 s.cpu.ip).jumpFar p.1.2 p.1.1)

/-- Remove `n` bytes of parameters from the stack (R332). -/
def State.addSp (s : State) (n : Word) : State := { s with cpu := { s.cpu with sp := s.cpu.sp + n } }

/-- RET near (R330). -/
def execRetNear (s : State) : Result :=
  let ip := s.pop16
  .next (ip.2.jumpNear ip.1)

/-- RET far (R331). -/
def execRetFar (s : State) : Result :=
  let ip := s.pop16
  let cs := ip.2.pop16
  .next (cs.2.jumpFar cs.1 ip.1)

/-- RET d near (R332). -/
def execRetNearImm (n : Word) (s : State) : Result :=
  let ip := s.pop16
  .next ((ip.2.jumpNear ip.1).addSp n)

/-- RET d far (R333). -/
def execRetFarImm (n : Word) (s : State) : Result :=
  let ip := s.pop16
  let cs := ip.2.pop16
  .next ((cs.2.jumpFar cs.1 ip.1).addSp n)

/-- A conditional jump (R334). -/
def branch (taken : Bool) (rel : Byte) (s : State) : Result :=
  .next (if taken then s.jumpNear (s.relative (sext rel)) else s)

/-- JO (R347). -/
def execJo (rel : Byte) (s : State) : Result := branch (Cond.holds .o s.cpu.f) rel s

/-- JNO (R348). -/
def execJno (rel : Byte) (s : State) : Result := branch (Cond.holds .no s.cpu.f) rel s

/-- JB (R341). -/
def execJb (rel : Byte) (s : State) : Result := branch (Cond.holds .b s.cpu.f) rel s

/-- JNB (R342). -/
def execJnb (rel : Byte) (s : State) : Result := branch (Cond.holds .nb s.cpu.f) rel s

/-- JE (R343). -/
def execJe (rel : Byte) (s : State) : Result := branch (Cond.holds .e s.cpu.f) rel s

/-- JNE (R344). -/
def execJne (rel : Byte) (s : State) : Result := branch (Cond.holds .ne s.cpu.f) rel s

/-- JBE (R340). -/
def execJbe (rel : Byte) (s : State) : Result := branch (Cond.holds .be s.cpu.f) rel s

/-- JA (R339). -/
def execJa (rel : Byte) (s : State) : Result := branch (Cond.holds .a s.cpu.f) rel s

/-- JS (R345). -/
def execJs (rel : Byte) (s : State) : Result := branch (Cond.holds .s s.cpu.f) rel s

/-- JNS (R346). -/
def execJns (rel : Byte) (s : State) : Result := branch (Cond.holds .ns s.cpu.f) rel s

/-- JP (R349). -/
def execJp (rel : Byte) (s : State) : Result := branch (Cond.holds .p s.cpu.f) rel s

/-- JNP (R350). -/
def execJnp (rel : Byte) (s : State) : Result := branch (Cond.holds .np s.cpu.f) rel s

/-- JL (R337). -/
def execJl (rel : Byte) (s : State) : Result := branch (Cond.holds .l s.cpu.f) rel s

/-- JGE (R338). -/
def execJge (rel : Byte) (s : State) : Result := branch (Cond.holds .ge s.cpu.f) rel s

/-- JLE (R336). -/
def execJle (rel : Byte) (s : State) : Result := branch (Cond.holds .le s.cpu.f) rel s

/-- JG (R335). -/
def execJg (rel : Byte) (s : State) : Result := branch (Cond.holds .g s.cpu.f) rel s

/-- Decrement CX without flags (R351). -/
def State.decCx (s : State) : State := { s with cpu := { s.cpu with cx := s.cpu.cx - 1#16 } }

/-- LOOPNE (R353). -/
def execLoopne (rel : Byte) (s : State) : Result :=
  let t := s.decCx
  branch (t.cpu.cx != 0#16 && !t.cpu.f.zf) rel t

/-- LOOPE (R352). -/
def execLoope (rel : Byte) (s : State) : Result :=
  let t := s.decCx
  branch (t.cpu.cx != 0#16 && t.cpu.f.zf) rel t

/-- LOOP (R351). -/
def execLoop (rel : Byte) (s : State) : Result :=
  let t := s.decCx
  branch (t.cpu.cx != 0#16) rel t

/-- JCXZ (R354). -/
def execJcxz (rel : Byte) (s : State) : Result := branch (s.cpu.cx == 0#16) rel s

/-- INT type (R355). -/
def execIntN (n : Byte) (s : State) : Result := .next (s.interrupt n)

/-- INT 3 (R356). -/
def execInt3 (s : State) : Result := .next (s.interrupt 3#8)

/-- INTO (R357). -/
def execInto (s : State) : Result := .next (if s.cpu.f.ofl then s.interrupt 4#8 else s)

/-- IRET (R358). -/
def execIret (s : State) : Result := .next s.interruptReturn

end Sys2Proof.Machine
end

