-- ==== Sys2Proof/Machine/DataTransfer.lean ====
section
/-! DEFINITION. The data-transfer instructions of the VM86 (40_data_transfer.md). On entry IP is already the address of the next
instruction (10_state.md R25). -/

namespace Sys2Proof.Machine

/-- MOV r/m,r and MOV r,r/m (R200). -/
def execMovRmR (d : Dir) (w : Width) (r : GReg) (rm : RM) (s : State) : Result :=
  match d with
  | .toRm => .next (s.writeRm s.cpu w rm (s.reg w r))
  | .toReg =>
    let v := s.readRm w rm
    .next (v.2.setReg w r v.1)

/-- MOV r/m,imm (R201). -/
def execMovRmImm (rm : RM) (v : Imm) (s : State) : Result :=
  .next (s.writeRm s.cpu (immWidth v) rm (immValue v))

/-- MOV r,imm (R202). -/
def execMovRImm (r : GReg) (v : Imm) (s : State) : Result :=
  .next (s.setReg (immWidth v) r (immValue v))

/-- MOV ac,m and MOV m,ac (R203). -/
def execMovAcc (d : Dir) (w : Width) (a : Word) (s : State) : Result :=
  match d with
  | .toReg =>
    let v := s.readOp w (.direct a)
    .next (v.2.setAcc w v.1)
  | .toRm => .next (s.writeOp s.cpu w (.direct a) (s.acc w))

/-- Load a segment register and hold off interrupts for one instruction (10_state.md R41). -/
def State.loadSreg (s : State) (r : SReg) (v : Word) : State :=
  { s with cpu := { s.cpu.setSreg r v with inhibit := true } }

/-- MOV sr,r/m (R204). -/
def execMovSrRm (sr : SReg) (rm : RM) (s : State) : Result :=
  let v := s.readRm .word rm
  .next (v.2.loadSreg sr v.1)

/-- MOV r/m,sr (R205). -/
def execMovRmSr (sr : SReg) (rm : RM) (s : State) : Result :=
  .next (s.writeRm s.cpu .word rm (s.cpu.sreg sr))

/-- XCHG r,r/m (R206): the operand is read, then written, then the register. -/
def execXchgRRm (w : Width) (r : GReg) (rm : RM) (s : State) : Result :=
  let a := s.reg w r
  let b := s.readRm w rm
  .next ((b.2.writeRm s.cpu w rm a).setReg w r b.1)

/-- XCHG AX,r (R207). -/
def execXchgAxR (r : GReg) (s : State) : Result :=
  let t := s.reg .word .ax
  .next ((s.setReg .word .ax (s.reg .word r)).setReg .word r t)

/-- NOP (45_processor_control.md R368). -/
def execNop (s : State) : Result := .next s

/-- XLAT (R208): a variable access at BX + AL. -/
def execXlat (s : State) : Result :=
  let v := s.readMem .byte (s.cpu.segFor .ds) (s.cpu.bx + s.acc .byte)
  .next (v.2.setAcc .byte v.1)

/-- LEA (R209): the address only, no access. -/
def execLea (r : GReg) (m : MemOp) (s : State) : Result := .next (s.setReg .word r (s.cpu.ea m))

/-- LDS (R210): both words are read through the old segment value. -/
def execLds (r : GReg) (m : MemOp) (s : State) : Result :=
  let p := s.readFar m
  let s := p.2.setReg .word r p.1.1
  .next { s with cpu := { s.cpu with ds := p.1.2 } }

/-- LES (R211). -/
def execLes (r : GReg) (m : MemOp) (s : State) : Result :=
  let p := s.readFar m
  let s := p.2.setReg .word r p.1.1
  .next { s with cpu := { s.cpu with es := p.1.2 } }

/-- LAHF (R212): bits 5, 3, 1 of AH are unknown (U1). -/
def execLahf (s : State) : Result :=
  let u := s.takeWord
  .next (u.2.setReg .byte .sp (zext (lowByte (s.cpu.f.toWord u.1))))

/-- SAHF (R213): SF, ZF, AF, PF, CF from AH. -/
def execSahf (s : State) : Result :=
  let h := s.cpu.reg8 .sp
  .next (s.setFlags { s.cpu.f with sf := bit h 7, zf := bit h 6, af := bit h 4, pf := bit h 2, cf := bit h 0 })

/-- Push a register: PUSH SP stores the decremented value (R215, D17). -/
def State.pushReg (s : State) (r : GReg) : State :=
  s.push16 (match r with | .sp => s.cpu.sp - 2#16 | r => s.cpu.reg16 r)

/-- PUSH r/m (R214). -/
def execPushRm (rm : RM) (s : State) : Result :=
  match rm with
  | .reg r => .next (s.pushReg r)
  | .mem m =>
    let v := s.readOp .word m
    .next (v.2.push16 v.1)

/-- PUSH r (R215). -/
def execPushR (r : GReg) (s : State) : Result := .next (s.pushReg r)

/-- PUSH sr (R216). -/
def execPushSr (sr : SReg) (s : State) : Result := .next (s.push16 (s.cpu.sreg sr))

/-- POP r/m (R217): POP SP leaves the popped word in SP (D17). -/
def execPopRm (rm : RM) (s : State) : Result :=
  let v := s.pop16
  .next (v.2.writeRm v.2.cpu .word rm v.1)

/-- POP r (R218). -/
def execPopR (r : GReg) (s : State) : Result :=
  let v := s.pop16
  .next (v.2.setReg .word r v.1)

/-- POP sr (R219). -/
def execPopSr (sr : SReg) (s : State) : Result :=
  let v := s.pop16
  .next (v.2.loadSreg sr v.1)

/-- PUSHF (R220). -/
def execPushf (s : State) : Result := .next s.pushFlags

/-- POPF (R221). -/
def execPopf (s : State) : Result :=
  let v := s.pop16
  .next (v.2.setFlags (Flags.ofWord v.1))

/-- IN ac,port (R222). -/
def execInPort (w : Width) (p : Byte) (s : State) : Result :=
  let v := s.ioRead true w (zext p)
  .next (v.2.setAcc w v.1)

/-- IN ac,DX (R223). -/
def execInDx (w : Width) (s : State) : Result :=
  let v := s.ioRead false w s.cpu.dx
  .next (v.2.setAcc w v.1)

/-- OUT port,ac (R224). -/
def execOutPort (w : Width) (p : Byte) (s : State) : Result := .next (s.ioWrite true w (zext p) (s.acc w))

/-- OUT DX,ac (R225). -/
def execOutDx (w : Width) (s : State) : Result := .next (s.ioWrite false w s.cpu.dx (s.acc w))

end Sys2Proof.Machine
end

