-- ==== Sys2Proof/Machine/FpuNum.lean ====
section
/-! DEFINITION. The numbers of the VM87: formats, conversion, rounding and the arithmetic of special operands
(46_vm87_numerics.md), as functions on bit patterns. Magnitudes are exact naturals times a power of two. -/

namespace Sys2Proof.Machine

/-! ### The temporary-real format (R404) -/

/-- The classes of Table 3.5; `bad` is a pattern outside the table (U14). -/
inductive FClass
  | zero
  | pseudoZero
  | denormal
  | unnormal
  | normal
  | infinity
  | nan
  | bad
  deriving DecidableEq, Repr

/-- A pattern from sign, exponent field and mantissa. -/
def mkExt (sign : Bool) (e m : Nat) : Ext80 :=
  BitVec.ofNat 80 (bitNat sign * 2 ^ 79 + e % 2 ^ 15 * 2 ^ 64 + m % 2 ^ 64)

/-- The sign bit. -/
def extSign (v : Ext80) : Bool := bit v 79

/-- The exponent field. -/
def extExp (v : Ext80) : Nat := fieldNat v 64 15

/-- The mantissa, the integer bit at bit 63. -/
def extMant (v : Ext80) : Nat := fieldNat v 0 64

/-- The class of a pattern (Table 3.5, R436). -/
def extClass (v : Ext80) : FClass :=
  let e := extExp v
  let m := extMant v
  if e = 0 then (if m = 0 then .zero else if m < 2 ^ 63 then .denormal else .bad)
  else if e = 32767 then (if m = 2 ^ 63 then .infinity else if m < 2 ^ 63 then .bad else .nan)
  else if m = 0 then .pseudoZero else if m < 2 ^ 63 then .unnormal else .normal

/-- The tag of a pattern (10_state.md R52, D28). One outside Table 3.5 has the tag 00 with an exponent field of 0 and 10
with one of all ones, DESIGN CHOICE (log 26): R52 names no tag for it. -/
def extTag (v : Ext80) : Nat :=
  match extClass v with
  | .zero => 1
  | .infinity => 2
  | .nan => 2
  | .bad => if extExp v = 0 then 0 else 2
  | _ => 0

/-- The indefinite code (Table 3.5). -/
def indefinite : Ext80 := mkExt true 32767 0xC000000000000000

/-- Infinity of a sign. -/
def extInf (sign : Bool) : Ext80 := mkExt sign 32767 (2 ^ 63)

/-- Zero of a sign. -/
def extZero (sign : Bool) : Ext80 := mkExt sign 0 0

/-- An operand of an instruction: its value, and whether it is denormalised in the format it was read from (R422). -/
structure Opnd where
  v : Ext80
  den : Bool
  deriving DecidableEq, Repr

/-- An operand that stands in an arithmetic register. -/
def Opnd.ofReg (v : Ext80) : Opnd := { v := v, den := extClass v == .denormal }

/-- The class of an operand. -/
def Opnd.cls (o : Opnd) : FClass := if o.den then .denormal else extClass o.v

/-- The exponent field that gives the value: field 0 stands for the true exponent -16382 (R404, R422). -/
def effExp (v : Ext80) : Nat := if extExp v = 0 then 1 else extExp v

/-! ### Exact magnitudes and rounding (R410-R412) -/

/-- The magnitude `m * 2^e`, plus something less than `2^e` when `sticky`. -/
structure Mag where
  m : Nat
  e : Int
  sticky : Bool
  deriving DecidableEq, Repr

/-- The true exponent of the leading bit of a non-zero magnitude. -/
def Mag.top (x : Mag) : Int := x.e + (Nat.log2 x.m : Int)

/-- The magnitude of a finite temporary real. -/
def extMag (v : Ext80) : Mag := { m := extMant v, e := (effExp v : Int) - 16446, sticky := false }

/-- The number of leading zeros of a mantissa. -/
def leadingZeros (m : Nat) : Nat := if m = 0 then 64 else 63 - Nat.log2 m

/-- Round a magnitude to a multiple of `2^q`: the multiple, and whether it differs from the exact value (R410). -/
def Mag.round (rc : Nat) (sign : Bool) (x : Mag) (q : Int) : Nat × Bool :=
  if q ≤ x.e then (x.m * 2 ^ (x.e - q).toNat, x.sticky)
  else
    let d := (q - x.e).toNat
    let k := x.m / 2 ^ d
    let r := x.m % 2 ^ d
    let h := 2 ^ (d - 1)
    let inexact := r != 0 || x.sticky
    let up := match rc with
      | 0 => decide (h < r) || (r == h && (x.sticky || k % 2 == 1))
      | 1 => inexact && sign
      | 2 => inexact && !sign
      | _ => false
    (if up then k + 1 else k, inexact)

/-- The conditions an instruction meets, and its result. With `ie` the other conditions are not examined (R429) and
`val` is the masked response. -/
structure FRes where
  ie : Bool
  de : Bool
  ze : Bool
  oe : Bool
  ue : Bool
  pe : Bool
  val : Ext80
  deriving DecidableEq, Repr

/-- An exact result without a condition. -/
def FRes.exact (v : Ext80) : FRes :=
  { ie := false, de := false, ze := false, oe := false, ue := false, pe := false, val := v }

/-- Invalid operation with a masked response. -/
def FRes.invalid (v : Ext80) : FRes := { FRes.exact v with ie := true }

/-- The control a computation depends on: rounding, precision, infinity control, the masks of OE and UE (R53, R55),
and the free values it may use. -/
structure FCtl where
  rc : Nat
  prec : Nat
  affine : Bool
  om : Bool
  um : Bool
  wildN : Nat
  wildX : Ext80
  wildB : Byte
  deriving DecidableEq, Repr

/-- PE of a transcendental result that the spec does not define: free (log 16). -/
def FCtl.loosePe (c : FCtl) : Bool := bit c.wildB 1

/-- The sign of a zero that the spec does not state: free (log 16). -/
def FCtl.looseSign (c : FCtl) : Bool := bit c.wildB 2

/-- UE of a result of F2XM1 that the spec does not define: free (log 16). -/
def FCtl.looseUe (c : FCtl) : Bool := bit c.wildB 3

/-- A mantissa of `p` bits rounded from a magnitude, with its true exponent and whether it is inexact. -/
def roundMant (rc p : Nat) (sign : Bool) (x : Mag) : Nat × Int × Bool :=
  let r := x.round rc sign (x.top - ((p : Int) - 1))
  if r.1 = 2 ^ p then (2 ^ (p - 1), x.top + 1, r.2) else (r.1, x.top, r.2)

/-- A pattern whose exponent field is an integer; outside the field's range the spec gives no value. -/
def extOfInt (c : FCtl) (sign : Bool) (e : Int) (m : Nat) : Ext80 :=
  if 1 ≤ e ∧ e ≤ 32766 then mkExt sign e.toNat m else c.wildX

/-- Deliver a non-zero result to a register: round to the precision, then the rules of overflow and underflow
(R412, R424, R425, D24, D26; log 41). -/
def packNormal (c : FCtl) (p : Nat) (sign : Bool) (x : Mag) : FRes :=
  let r := roundMant c.rc p sign x
  let m := r.1 * 2 ^ (64 - p)
  let e := r.2.1 + 16383
  if 32766 < e then
    if c.om then { FRes.exact (extInf sign) with oe := true, pe := true }
    else { FRes.exact (extOfInt c sign (e - 24576) m) with oe := true }
  else if e < 1 then
    if c.um then
      let d := ({ m := m, e := e - 16446, sticky := false } : Mag).round c.rc sign (-16445)
      { FRes.exact (if d.1 < 2 ^ 63 then mkExt sign 0 d.1 else mkExt sign 1 d.1) with ue := true, pe := r.2.2 || d.2 }
    else { FRes.exact (extOfInt c sign (e + 24576) m) with ue := true }
  else { FRes.exact (mkExt sign e.toNat m) with pe := r.2.2 }

/-- Deliver a non-zero result with a given exponent field, so that the mantissa keeps leading zeros (R434; log 18). -/
def packAt (c : FCtl) (p : Nat) (sign : Bool) (x : Mag) (field : Nat) : FRes :=
  let r := x.round c.rc sign ((field : Int) - 16383 - ((p : Int) - 1))
  if r.1 < 2 ^ p then { FRes.exact (mkExt sign field (r.1 * 2 ^ (64 - p))) with pe := r.2 }
  else packNormal c p sign x

/-- Deliver a non-zero result of unnormalised operands: the spec gives only that the exponent field lies between `lo` and
`hi` above the normalised one (R434, U15). A result whose leading bit lies below the least normal number then stays
unnormal, with a field of at least 1 and without UE (log 18). -/
def packUnnormal (c : FCtl) (p : Nat) (sign : Bool) (x : Mag) (lo hi : Int) : FRes :=
  let low := if lo < 1 then 1 else lo
  let high := if 32766 < hi then 32766 else hi
  if low ≤ high then packAt c p sign x (low + ((c.wildN % (high - low + 1).toNat : Nat) : Int)).toNat
  else packNormal c p sign x

/-- A zero result of pseudo-zero operands: zero or a pseudo-zero (R434, R436, U15; log 18). -/
def wildZero (c : FCtl) (sign : Bool) : Ext80 := mkExt sign (c.wildN % 32767) 0

/-! ### Two operands -/

/-- The NAN that a masked invalid operation returns (R437, D29): `d` is the destination operand. -/
def pickNan (d o : Ext80) : Ext80 :=
  if extClass d == .nan then
    (if extClass o == .nan && decide (extMant d < extMant o) then o else d)
  else o

/-- The class stands outside the normal path of arithmetic. -/
def FClass.odd : FClass → Bool
  | .unnormal => true
  | .denormal => true
  | .pseudoZero => true
  | _ => false

/-- Zero or pseudo-zero (R436). -/
def FClass.zeroLike : FClass → Bool
  | .zero => true
  | .pseudoZero => true
  | _ => false

/-- The sign of a zero sum of operands that are not both zeros of one sign (Table 3.17, note 2). -/
def zeroSumSign (rc : Nat) : Bool := rc == 1

/-- A magnitude with a sign. -/
def signed (neg : Bool) (n : Nat) : Int := if neg then -(n : Int) else n

/-- Addition of finite operands, `bs` the effective sign of `b`. -/
def addFinite (c : FCtl) (a b : Opnd) (bs : Bool) : FRes :=
  let as := extSign a.v
  let x := extMag a.v
  let y := extMag b.v
  let e := if x.e ≤ y.e then x.e else y.e
  let sum := signed as (x.m * 2 ^ (x.e - e).toNat) + signed bs (y.m * 2 ^ (y.e - e).toNat)
  let odd := a.cls.odd || b.cls.odd
  let z : Mag := { m := sum.natAbs, e := e, sticky := false }
  let hi : Int := if x.m = 0 then effExp b.v else if y.m = 0 then effExp a.v
    else if effExp a.v ≤ effExp b.v then effExp b.v else effExp a.v
  let r :=
    if sum = 0 then
      let sg := if x.m = 0 && as == bs then as else zeroSumSign c.rc
      FRes.exact (if a.cls == .pseudoZero || b.cls == .pseudoZero then wildZero c sg else extZero sg)
    else if odd then packUnnormal c c.prec (decide (sum < 0)) z (z.top + 16383) hi
    else packNormal c c.prec (decide (sum < 0)) z
  { r with de := a.den || b.den }

/-- Addition, or subtraction with `sub` (R435, R437, R438, R434); `d` tells which operand is the destination. -/
def fpAdd (c : FCtl) (sub : Bool) (a b : Opnd) (aIsDst : Bool) : FRes :=
  let bs := extSign b.v != sub
  if a.cls == .nan || b.cls == .nan then
    FRes.invalid (if aIsDst then pickNan a.v b.v else pickNan b.v a.v)
  else if a.cls == .infinity then
    if b.cls == .infinity then
      if c.affine && extSign a.v == bs then FRes.exact a.v else FRes.invalid indefinite
    else { FRes.exact a.v with de := b.den }
  else if b.cls == .infinity then { FRes.exact (extInf bs) with de := a.den }
  else addFinite c a b bs

/-- Multiplication (R435, R437, R438, R434). -/
def fpMul (c : FCtl) (a b : Opnd) (aIsDst : Bool) : FRes :=
  let sg := extSign a.v != extSign b.v
  let de := a.den || b.den
  if a.cls == .nan || b.cls == .nan then
    FRes.invalid (if aIsDst then pickNan a.v b.v else pickNan b.v a.v)
  else if (a.cls == .infinity && b.cls == .zero) || (a.cls == .zero && b.cls == .infinity) then
    FRes.invalid indefinite
  else if a.cls == .infinity || b.cls == .infinity then { FRes.exact (extInf sg) with de := de }
  else if a.cls == .zero || b.cls == .zero then { FRes.exact (extZero sg) with de := de }
  else if a.cls == .pseudoZero || b.cls == .pseudoZero then { FRes.exact (wildZero c sg) with de := de }
  else
    let x := extMag a.v
    let y := extMag b.v
    let z : Mag := { m := x.m * y.m, e := x.e + y.e, sticky := false }
    let t := z.top + 16383
    let r := if a.cls.odd || b.cls.odd then
        packUnnormal c c.prec sg z (t + 1)
          (t + (leadingZeros (extMant a.v) : Int) + (leadingZeros (extMant b.v) : Int) + 1)
      else packNormal c c.prec sg z
    { r with de := de }

/-- Division of `a` by `b` (R423, R435, R436, R437, R438, R434). An infinity or a zero divided by a denormal or an
unnormal is invalid, by the rows of the divisor and not by those of the dividend (log 54). -/
def fpDiv (c : FCtl) (a b : Opnd) (aIsDst : Bool) : FRes :=
  let sg := extSign a.v != extSign b.v
  let de := a.den || b.den
  if a.cls == .nan || b.cls == .nan then
    FRes.invalid (if aIsDst then pickNan a.v b.v else pickNan b.v a.v)
  else if a.cls == .infinity && b.cls == .infinity then FRes.invalid indefinite
  else if b.cls == .unnormal || b.cls == .denormal then FRes.invalid indefinite
  else if a.cls == .infinity then FRes.exact (extInf sg)
  else if b.cls == .infinity then { FRes.exact (extZero sg) with de := de }
  else if a.cls.zeroLike then
    if b.cls.zeroLike then FRes.invalid indefinite else FRes.exact (extZero sg)
  else if b.cls.zeroLike then { FRes.exact (extInf sg) with de := de, ze := true }
  else
    let x := extMag a.v
    let y := extMag b.v
    let n := x.m * 2 ^ 130
    let z : Mag := { m := n / y.m, e := x.e - y.e - 130, sticky := n % y.m != 0 }
    let t := z.top + 16383
    let r := if a.cls.odd then packUnnormal c c.prec sg z (t + 1) (t + (leadingZeros (extMant a.v) : Int) + 1)
      else packNormal c c.prec sg z
    { r with de := de }

/-- The relation of two operands (R440). -/
inductive Rel
  | gt
  | lt
  | eq
  | unordered
  deriving DecidableEq, Repr

/-- The relation of two finite values. -/
def relFinite (a b : Ext80) : Rel :=
  let x := extMag a
  let y := extMag b
  let e := if x.e ≤ y.e then x.e else y.e
  let d := signed (extSign a) (x.m * 2 ^ (x.e - e).toNat) - signed (extSign b) (y.m * 2 ^ (y.e - e).toNat)
  if d = 0 then .eq else if d < 0 then .lt else .gt

/-- Comparison: IE, DE and the relation (R421, R434-R438). -/
def fpCompare (affine : Bool) (a b : Opnd) : Bool × Bool × Rel :=
  let inf := a.cls == .infinity || b.cls == .infinity
  if a.cls == .nan || b.cls == .nan then (true, false, .unordered)
  else if inf && !affine then (true, false, .unordered)
  else if a.cls == .infinity then
    if b.cls == .infinity && extSign a.v == extSign b.v then (false, false, .eq)
    else (false, b.den, if extSign a.v then .lt else .gt)
  else if b.cls == .infinity then (false, a.den, if extSign b.v then .gt else .lt)
  else (false, a.den || b.den, relFinite a.v b.v)

/-! ### One operand -/

/-- The integer square root, built from bit `i` downwards. -/
def isqrtFrom : Nat → Nat → Nat → Nat
  | 0, _, r => r
  | i + 1, n, r => if (r + 2 ^ i) * (r + 2 ^ i) ≤ n then isqrtFrom i n (r + 2 ^ i) else isqrtFrom i n r

/-- Square root (R511, R421). -/
def fpSqrt (c : FCtl) (a : Opnd) : FRes :=
  match a.cls with
  | .nan => FRes.invalid a.v
  | .bad => FRes.invalid indefinite
  | .unnormal => FRes.invalid indefinite
  | .denormal => FRes.invalid indefinite
  | .pseudoZero => FRes.invalid indefinite
  | .zero => FRes.exact a.v
  | .infinity => if c.affine && !extSign a.v then FRes.exact a.v else FRes.invalid indefinite
  | .normal =>
    if extSign a.v then FRes.invalid indefinite
    else
      let x := extMag a.v
      let k : Nat := if x.e % 2 = 0 then 130 else 131
      let n := x.m * 2 ^ k
      let r := isqrtFrom 100 n 0
      packNormal c c.prec false { m := r, e := (x.e - (k : Int)) / 2, sticky := r * r != n }

/-- The value of a finite operand truncated toward zero. -/
def truncValue (v : Ext80) : Int :=
  let x := extMag v
  signed (extSign v) (if 0 ≤ x.e then x.m * 2 ^ x.e.toNat else x.m / 2 ^ (-x.e).toNat)

/-- The magnitude of a finite operand is below one. -/
def belowOne (v : Ext80) : Bool := extMant v == 0 || decide ((extMag v).top < 0)

/-- Scale `a` by the integer in `n` (R512, R438, U18; log 20), with the conditions of the rounding. The sign of an infinity
scaled by a finite number is that of the infinity, DESIGN CHOICE (log 54): the legend of `*` in R438, read by its letter,
names the sign of the other operand, and the product of R512 keeps the sign of ST(0). -/
def scaleValue (c : FCtl) (a n : Opnd) : FRes :=
  if a.cls == .nan || n.cls == .nan then FRes.invalid (pickNan a.v n.v)
  else if n.cls == .infinity then
    if a.cls == .zero then FRes.exact a.v else FRes.invalid indefinite
  else if a.cls == .infinity then FRes.exact a.v
  else if (belowOne n.v && !n.cls.zeroLike) || decide (2 ^ 15 < (truncValue n.v).natAbs)
      || ((truncValue n.v).natAbs == 2 ^ 15 && relFinite (mkExt false (extExp n.v) (extMant n.v))
            (mkExt false 0x400E (2 ^ 63)) == .gt) then
    { FRes.exact c.wildX with oe := c.wildN % 2 == 1, ue := c.wildN / 2 % 2 == 1 }
  else if a.cls == .zero then FRes.exact a.v
  else if a.cls == .pseudoZero then FRes.exact (wildZero c (extSign a.v))
  else
    let x := extMag a.v
    let k := truncValue n.v
    let z : Mag := { x with e := x.e + k }
    let f := (effExp a.v : Int) + k
    if a.cls.odd then packUnnormal c 64 (extSign a.v) z (if f ≤ 32766 then f else z.top + 16383) f
    else packNormal c 64 (extSign a.v) z

/-- FSCALE: its flags are IE, OE and UE alone (R512, R556), so that neither a denormalised operand sets DE nor lost bits
PE (log 46). -/
def fpScale (c : FCtl) (a n : Opnd) : FRes := { scaleValue c a n with pe := false }

/-- One execution of the partial remainder: the result, whether it is complete, and the low three bits of the quotient
(R513, R440, U19). An invalid one is complete, and its C3, C1, C0 are free; an unnormalised dividend of an infinite
divisor stays as it is (log 21). -/
def fpRem (c : FCtl) (a b : Opnd) : FRes × Bool × Nat :=
  if a.cls == .nan || b.cls == .nan then (FRes.invalid (pickNan a.v b.v), true, c.wildN)
  else if a.cls == .infinity || b.cls.zeroLike || b.cls == .unnormal || b.cls == .denormal then
    (FRes.invalid indefinite, true, c.wildN)
  else if b.cls == .infinity then ({ FRes.exact a.v with de := a.den }, true, 0)
  else if a.cls.zeroLike then (FRes.exact (extZero (extSign a.v)), true, 0)
  else
    let x := extMag a.v
    let y := extMag b.v
    let gap := x.top - y.top
    let k := if gap < 64 then 0 else c.wildN % gap.toNat
    let e := if x.e ≤ y.e then x.e else y.e
    let n := x.m * 2 ^ (x.e - e).toNat
    let d := y.m * 2 ^ (y.e - e).toNat
    let r := n % (d * 2 ^ k)
    let done := decide (r < d)
    let sg := extSign a.v
    let v := if r = 0 then FRes.exact (extZero sg) else packNormal c 64 sg { m := r, e := e, sticky := false }
    ({ v with de := a.den, oe := false, pe := false }, done, if done then n / d else c.wildN)

/-- Round to an integer (R514, R434, R436, R438). A number whose magnitude rounds to 0 keeps its sign (log 54). The flags
are IE and PE alone (R514, R556), so that a denormalised operand does not set DE (log 46). -/
def fpRoundInt (c : FCtl) (a : Opnd) : FRes :=
  match a.cls with
  | .nan => FRes.invalid a.v
  | .bad => FRes.invalid indefinite
  | .infinity => FRes.exact a.v
  | .zero => FRes.exact a.v
  | .pseudoZero => FRes.exact (extZero (extSign a.v))
  | _ =>
    let x := extMag a.v
    let r := if 0 ≤ x.e then (x.m * 2 ^ x.e.toNat, false) else x.round c.rc (extSign a.v) 0
    let v := if r.1 = 0 then FRes.exact (extZero (extSign a.v))
      else packNormal c 64 (extSign a.v) { m := r.1, e := 0, sticky := false }
    { v with pe := r.2 }

/-- An integer as a temporary real, exactly (R406). -/
def extOfIntValue (n : Int) : Ext80 :=
  if n = 0 then extZero false
  else
    let m := n.natAbs
    mkExt (decide (n < 0)) (16383 + Nat.log2 m) (m * 2 ^ (63 - Nat.log2 m))

/-- The value of an exponent field as a temporary real: the field less the bias (R515). -/
def extOfField (e : Nat) : Ext80 := extOfIntValue ((e : Int) - 16383)

/-- Exponent and mantissa of an operand (R515, R435, R421; logs 42, 43): IE, the exponent result, the mantissa result. -/
def fpExtract (a : Opnd) : Bool × Ext80 × Ext80 :=
  match a.cls with
  | .nan => (true, a.v, a.v)
  | .bad => (true, indefinite, indefinite)
  | .infinity => (true, indefinite, indefinite)
  | .zero => (false, a.v, a.v)
  | _ => (false, extOfField (effExp a.v), mkExt (extSign a.v) 0x3FFF (extMant a.v))

/-! ### Memory formats (R400-R406, R413) -/

/-- Fraction width, exponent width and bias of the short (`false`) and the long real. -/
def realShape (long : Bool) : Nat × Nat × Nat := if long then (52, 11, 1023) else (23, 8, 127)

/-- A short or long real as an operand, exactly (R403, R406, R433). -/
def ofReal (long : Bool) (w : Nat) : Opnd :=
  let f := (realShape long).1
  let eb := (realShape long).2.1
  let bias := (realShape long).2.2
  let sg := w / 2 ^ (f + eb) % 2 == 1
  let e := w / 2 ^ f % 2 ^ eb
  let fr := w % 2 ^ f
  if e = 0 then
    if fr = 0 then { v := extZero sg, den := false }
    else { v := mkExt sg (16384 - bias) (fr * 2 ^ (63 - f)), den := true }
  else if e = 2 ^ eb - 1 then { v := mkExt sg 32767 (2 ^ 63 + fr * 2 ^ (63 - f)), den := false }
  else { v := mkExt sg (e + 16383 - bias) (2 ^ 63 + fr * 2 ^ (63 - f)), den := false }

/-- A two's complement integer of `bits` bits. -/
def signedBits (bits w : Nat) : Int := if w < 2 ^ (bits - 1) then (w : Int) else (w : Int) - ((2 ^ bits : Nat) : Int)

/-- The decimal value of the `n` digits from the lowest, or nothing when a digit exceeds 9. -/
def bcdDigits : Nat → Nat → Option Nat
  | 0, _ => some 0
  | n + 1, w =>
    if w % 16 ≤ 9 then
      match bcdDigits n (w / 16) with
      | some r => some (w % 16 + 10 * r)
      | none => none
    else none

/-- A packed decimal number as a temporary real; a digit above 9 gives an unknown value (R402, U13), and bits 78-72 are
not looked at (log 17). -/
def ofBcd (wild : Ext80) (w : Nat) : Ext80 :=
  match bcdDigits 18 w with
  | some 0 => extZero (w / 2 ^ 79 % 2 == 1)
  | some n =>
    let v := extOfIntValue n
    mkExt (w / 2 ^ 79 % 2 == 1) (extExp v) (extMant v)
  | none => wild

/-- What a store to memory meets, and the number it writes. `val` with `ie` is the indefinite code of the format. -/
structure SRes where
  ie : Bool
  oe : Bool
  ue : Bool
  pe : Bool
  val : Nat
  deriving DecidableEq, Repr

/-- A store without a condition. -/
def SRes.exact (v : Nat) : SRes := { ie := false, oe := false, ue := false, pe := false, val := v }

/-- A short or long real from sign, exponent field and fraction. -/
def mkReal (long sign : Bool) (e f : Nat) : Nat :=
  let sh := realShape long
  bitNat sign * 2 ^ (sh.1 + sh.2.1) + e * 2 ^ sh.1 + f

/-- A NAN's fraction cut to the width of the format; when nothing is left the fraction is unknown but not zero (R413;
log 44). -/
def nanFraction (f wild : Nat) (m : Nat) : Nat :=
  let k := m % 2 ^ 63 / 2 ^ (63 - f)
  if k = 0 then 1 + wild % (2 ^ f - 1) else k

/-- Convert to a short or long real (R413, R424, R425, R434). An unnormalised source underflows when its leading bit lies
below the least normal number of the format, a pseudo-zero when its exponent field says so (log 54); else it is invalid.
The flags are IE, OE, UE and PE alone (R473, R475, R556), so that a denormal does not set DE (log 46). A NAN is stored
without IE (R413; log 44). -/
def storeReal (c : FCtl) (long : Bool) (v : Ext80) : SRes :=
  let f := (realShape long).1
  let eb := (realShape long).2.1
  let bias := (realShape long).2.2
  let sg := extSign v
  let indef : SRes := { SRes.exact (mkReal long true (2 ^ eb - 1) (2 ^ (f - 1))) with ie := true }
  let emin : Int := 1 - (bias : Int)
  let pack : Mag → SRes := fun x =>
    let r := roundMant c.rc (f + 1) sg x
    if (bias : Int) < r.2.1 then
      { SRes.exact (mkReal long sg (2 ^ eb - 1) 0) with oe := true, pe := true }
    else if r.2.1 < emin then
      let d := ({ m := r.1, e := r.2.1 - (f : Int), sticky := false } : Mag).round c.rc sg (emin - (f : Int))
      { SRes.exact (mkReal long sg 0 0 + d.1) with ue := true, pe := r.2.2 || d.2 }
    else { SRes.exact (mkReal long sg (r.2.1 + (bias : Int)).toNat (r.1 % 2 ^ f)) with pe := r.2.2 }
  match extClass v with
  | .zero => SRes.exact (mkReal long sg 0 0)
  | .infinity => SRes.exact (mkReal long sg (2 ^ eb - 1) 0)
  | .nan => SRes.exact (mkReal long sg (2 ^ eb - 1) (nanFraction f c.wildN (extMant v)))
  | .bad => indef
  | .normal => pack (extMag v)
  | .pseudoZero =>
    if (extExp v : Int) - 16383 < emin then { SRes.exact (mkReal long sg 0 0) with ue := true } else indef
  | _ => if (extMag v).top < emin then { pack (extMag v) with ue := true } else indef

/-- The magnitude of a zero or normal operand rounded to an integer, and whether it is inexact. -/
def roundedMagnitude (rc : Nat) (v : Ext80) : Nat × Bool :=
  let x := extMag v
  if 0 ≤ x.e then (x.m * 2 ^ x.e.toNat, false) else x.round rc (extSign v) 0

/-- Convert to a two's complement integer of `bits` bits (R413, D25). -/
def storeInt (c : FCtl) (bits : Nat) (v : Ext80) : SRes :=
  let indef : SRes := { SRes.exact (2 ^ (bits - 1)) with ie := true }
  let conv : SRes :=
    let r := roundedMagnitude c.rc v
    if r.1 < 2 ^ (bits - 1) then
      { SRes.exact (if extSign v && r.1 != 0 then 2 ^ bits - r.1 else r.1) with pe := r.2 }
    else indef
  match extClass v with
  | .zero => conv
  | .normal => conv
  | _ => indef

/-- The decimal digits of a number, four bits each, `n` of them. -/
def digitsOf : Nat → Nat → Nat
  | 0, _ => 0
  | n + 1, v => v % 10 + 16 * digitsOf n (v / 10)

/-- The indefinite code of the packed decimal format (R402). -/
def bcdIndefinite : Nat := 2 ^ 80 - 1

/-- Convert to packed decimal (R413, R402, R477). The one flag is IE (R477, R556), so that an inexact conversion does not
set PE (log 46). A negative number that rounds to 0 is stored as -0 (log 54). -/
def storeBcd (c : FCtl) (v : Ext80) : SRes :=
  let indef : SRes := { SRes.exact bcdIndefinite with ie := true }
  let conv : SRes :=
    let n := (roundedMagnitude c.rc v).1
    if n < 10 ^ 18 then SRes.exact (bitNat (extSign v) * 2 ^ 79 + digitsOf 18 n) else indef
  match extClass v with
  | .zero => conv
  | .normal => conv
  | _ => indef

end Sys2Proof.Machine
end

