-- ==== Sys2Proof/Machine/FpuOps.lean ====
section
/-! DEFINITION. The shared operations of the VM87 instructions: how an ESC reaches the coprocessor and its memory
operand (47_vm87_instructions.md R460-R466), the register stack (10_state.md R50-R52), and raising an exception with its
masked and unmasked response (46_vm87_numerics.md R420-R429). -/

namespace Sys2Proof.Machine

/-! ### The register stack and the status register -/

/-- The number of the register that is ST(0) (R53). -/
def Fpu.top (f : Fpu) : BitVec 3 := BitVec.ofNat 3 (fieldNat f.sr 11 3)

/-- The physical number of ST(i) (R50). -/
def Fpu.number (f : Fpu) (i : BitVec 3) : BitVec 3 := f.top + i

/-- The content of ST(i). -/
def Fpu.st (f : Fpu) (i : BitVec 3) : Ext80 := f.ar.get (f.number i)

/-- TAG(i), the field of the register now named ST(i) (R52, D21). -/
def Fpu.tagOf (f : Fpu) (i : BitVec 3) : Nat := fieldNat f.tag (2 * (f.number i).toNat) 2

/-- ST(i) is empty. -/
def Fpu.isEmpty (f : Fpu) (i : BitVec 3) : Bool := f.tagOf i == 3

/-- Write TAG(i). -/
def Fpu.setTag (f : Fpu) (i : BitVec 3) (t : Nat) : Fpu :=
  { f with tag := setField f.tag (2 * (f.number i).toNat) 2 t }

/-- Write ST(i) and its tag. -/
def Fpu.put (f : Fpu) (i : BitVec 3) (v : Ext80) : Fpu :=
  { f with ar := f.ar.set (f.number i) v, tag := setField f.tag (2 * (f.number i).toNat) 2 (extTag v) }

/-- Write the stack pointer. -/
def Fpu.setTop (f : Fpu) (t : BitVec 3) : Fpu := { f with sr := setField f.sr 11 3 t.toNat }

/-- pop() (R51). -/
def Fpu.pop (f : Fpu) : Fpu := (f.setTag 0 3).setTop (f.top + 1)

/-- pop() some number of times. -/
def Fpu.popN (f : Fpu) : Nat → Fpu
  | 0 => f
  | n + 1 => f.pop.popN n

/-- The condition number `k` is masked: its mask, or IEM (R420). -/
def Fpu.masked (f : Fpu) (k : Nat) : Bool := bit f.cr 7 || bit f.cr k

/-- The request of an unmasked condition (10_state.md R53, R59): IR rises, and BUSY stays unless IEM gates the request
(R420; log 14). -/
def Fpu.request (f : Fpu) : Fpu := { f with sr := setBit (setBit f.sr 7 true) 15 (bit f.sr 15 || !bit f.cr 7) }

/-- Set the flag of condition `k`; where its own mask is 0 the interrupt request rises, also under IEM (R420). -/
def Fpu.raise (f : Fpu) (k : Nat) : Fpu :=
  let g := { f with sr := setBit f.sr k true }
  if bit f.cr k then g else g.request

/-- The operand in ST(i); an empty register reads as the indefinite code (R426). -/
def Fpu.operand (f : Fpu) (i : BitVec 3) : Ext80 := if f.isEmpty i then indefinite else f.st i

/-- Write the condition codes C3, C2, C0 (R440). -/
def Fpu.setCodes (f : Fpu) (c3 c2 c0 : Bool) : Fpu :=
  { f with sr := setBit (setBit (setBit f.sr 14 c3) 10 c2) 8 c0 }

/-- Write C1. -/
def Fpu.setC1 (f : Fpu) (c1 : Bool) : Fpu := { f with sr := setBit f.sr 9 c1 }

/-- An unmasked exception holds BUSY between instructions (10_state.md R59): bit 15 of the field `sr`. -/
def Fpu.busy (f : Fpu) : Bool := bit f.sr 15

/-- SR while the coprocessor executes an instruction: B is 1 (10_state.md R53, R59; R462). -/
def Fpu.srActive (f : Fpu) : Word := setBit f.sr 15 true

/-- The word that a store of SR writes: the store is in execution, so that B is 1 (log 14), and bit 6 is 0. -/
def Fpu.srImage (f : Fpu) : Word := f.srActive &&& 0xFFBF#16

/-- SR as it is now: the field `sr`, with B = 1 while the coprocessor executes an instruction (10_state.md R53, R59). -/
def State.fpuStatus (s : State) : Word := if s.run.active then s.fpu.srActive else s.fpu.sr

/-- The INT pin (10_state.md R59). -/
def Fpu.int (f : Fpu) : Bool := bit f.sr 7 && !bit f.cr 7

/-- The control of a computation; the free values have index `k`. -/
def Fpu.ctl (f : Fpu) (k : Nat) : FCtl :=
  { rc := fieldNat f.cr 10 2,
    prec := match fieldNat f.cr 8 2 with
      | 0 => 24
      | 1 => 1 + Config.reservedPrecision % 64
      | 2 => 53
      | _ => 64,
    affine := bit f.cr 12, om := f.masked 3, um := f.masked 4,
    wildN := Config.freeNat k, wildX := Config.freeExt k, wildB := Config.freeByte k }

/-! ### Responses to conditions -/

/-- Deliver a computed result through `put`, in the order of R429; an unmasked IE, DE or ZE leaves the registers as they
are (R428), and an unmasked OE or UE hides PE. After an unmasked OE or UE all that `put` does happens, the pop of FADDP and
its like included, DESIGN CHOICE (log 25): R425 and R428 say that the result is written and are silent on the pop. -/
def Fpu.deliver (f : Fpu) (r : FRes) (put : Fpu → Ext80 → Fpu) : Fpu :=
  if r.ie then
    let g := f.raise 0
    if f.masked 0 then put g r.val else g
  else
    let g := if r.de then f.raise 1 else f
    if r.de && !f.masked 1 then g
    else
      let g := if r.ze then g.raise 2 else g
      if r.ze && !f.masked 2 then g
      else
        let g := if r.oe then g.raise 3 else g
        let g := if r.ue then g.raise 4 else g
        let stops := (r.oe && !f.masked 3) || (r.ue && !f.masked 4)
        let g := if r.pe && !stops then g.raise 5 else g
        put g r.val

/-- Load an operand on the stack (R470, R426): `ie` is an empty source. -/
def Fpu.load (f : Fpu) (o : Opnd) (ie : Bool) : Fpu :=
  let down := f.setTop (f.top - 1)
  let full := !down.isEmpty 0
  if ie || full then
    let g := f.raise 0
    if f.masked 0 then (g.setTop (f.top - 1)).put 0 indefinite else g
  else
    let g := if o.den then f.raise 1 else f
    if o.den && !f.masked 1 then g else (g.setTop (f.top - 1)).put 0 o.v

/-- The codes of a relation (R440). -/
def Fpu.setRel (f : Fpu) : Rel → Fpu
  | .gt => f.setCodes false false false
  | .lt => f.setCodes false false true
  | .eq => f.setCodes true false false
  | .unordered => f.setCodes true true true

/-- Compare ST(0) with an operand, then pop (R486-R491). -/
def Fpu.compare (f : Fpu) (b : Opnd) (pops : Nat) : Fpu :=
  let r := fpCompare (bit f.cr 12) (Opnd.ofReg (f.operand 0)) b
  if r.1 then
    let g := f.raise 0
    if f.masked 0 then (g.setRel r.2.2).popN pops else g
  else
    let g := if r.2.1 then f.raise 1 else f
    if r.2.1 && !f.masked 1 then g else (g.setRel r.2.2).popN pops

/-! ### How an ESC reaches the coprocessor -/

/-- The second byte of an ESC with a memory operand (R460). -/
def escByte (y : Nat) (m : MemOp) : Nat := ((encodeRm y (.mem m)).headD 0#8).toNat

/-- The instruction pointer and operation code of EP (10_state.md R57, D22). With leading bytes before the ESC the
address is that of any one of them or of the ESC (U10; log 24). -/
def State.noteEp (s : State) (x second : Nat) : State :=
  let t := s.takeNat
  let back := match s.cpu.lead.first with
    | none => 0
    | some a => t.1 % ((s.cpu.instrAddr - a).toNat + 1)
  { t.2 with fpu := { s.fpu with
      epInstr := BitVec.ofNat 20 (phys s.cpu.cs (s.cpu.instrAddr - BitVec.ofNat 16 back)),
      epOpcode := BitVec.ofNat 11 (x * 256 + second) } }

/-- The operand pointer of EP. -/
def State.noteOperand (s : State) (a : Nat) : State :=
  { s with fpu := { s.fpu with epOperand := BitVec.ofNat 20 a } }

/-- The 20-bit address the coprocessor captures (R462). -/
def State.escAddr (s : State) (m : MemOp) : Nat := phys (s.cpu.memSeg m) (s.cpu.ea m)

/-- Bytes that the coprocessor reads by itself, the lowest first (R462, D32). -/
def State.fpuBytes (s : State) (a : Nat) : Nat → Nat × State
  | 0 => (0, s)
  | n + 1 =>
    let b := s.read8 (a % 2 ^ 20)
    let r := b.2.fpuBytes (a + 1) n
    (b.1.toNat + 256 * r.1, r.2)

/-- The number that bytes make, the lowest first. -/
def bytesNat : List Byte → Nat
  | [] => 0
  | b :: r => b.toNat + 256 * bytesNat r

/-- A source operand of `n` bytes, two or more: those that the VM87 has read already, or the word that the CPU reads and
then the coprocessor's own cycles. At offset FFFFh the CPU's second byte is not the operand's (D32). -/
def State.fpuSource (s : State) (m : MemOp) (n : Nat) : Nat × State :=
  match s.run.feed with
  | some bs => (bytesNat bs % 256 ^ n, s)
  | none =>
    let d := s.readOp .word m
    let a := s.escAddr m
    if s.cpu.ea m = 0xFFFF#16 then
      let r := d.2.fpuBytes (a + 1) (n - 1)
      ((lowByte d.1).toNat + 256 * r.1, r.2)
    else
      let r := d.2.fpuBytes (a + 2) (n - 2)
      (d.1.toNat + 65536 * r.1, r.2)

/-- Bytes that the coprocessor writes, the lowest first (R462, D32). -/
def State.fpuStoreBytes (s : State) (a v : Nat) : Nat → State
  | 0 => s
  | n + 1 => (s.write8 (a % 2 ^ 20) (BitVec.ofNat 8 v)).fpuStoreBytes (a + 1) (v / 256) n

/-- The cells that `n` bytes of a number fill. -/
def cellsOf (a v : Nat) : Nat → List Host.Cell
  | 0 => []
  | n + 1 => (a % 2 ^ 20, BitVec.ofNat 8 v) :: cellsOf (a + 1) (v / 256) n

/-- A result of `n` bytes: written at once, or kept for the bus cycles of the VM87 that executes by itself. -/
def State.fpuWrite (s : State) (a v n : Nat) : State :=
  match s.run.feed with
  | some _ => { s with run := { s.run with writes := s.run.writes ++ cellsOf a v n } }
  | none => s.fpuStoreBytes a v n

/-- The CPU's read of a memory operand, which it has done when the VM87 executes by itself (R462). -/
def State.escRead (s : State) (m : MemOp) : State :=
  match s.run.feed with
  | some _ => s
  | none => (s.readOp .word m).2

/-- An ESC without a memory operand. Without a VM87 it does nothing (45_processor_control.md R372); `n` marks the forms
that need no WAIT (R463). -/
def escReg (n : Bool) (x second : Nat) (s : State) (k : State → Result) : Result :=
  if !s.plat.hasVm87 then .next s
  else if s.fpu.busy && !n then .refused .escWhileBusy
  else k (s.noteEp x second)

/-- An ESC with a source operand of `n` bytes. -/
def escSrc (x y n : Nat) (m : MemOp) (s : State) (k : Nat → State → Result) : Result :=
  if !s.plat.hasVm87 then .next (s.readOp .word m).2
  else if s.fpu.busy then .refused .escWhileBusy
  else
    let r := s.fpuSource m n
    k r.1 ((r.2.noteEp x (escByte y m)).noteOperand (s.escAddr m))

/-- An ESC with a destination in memory: the CPU's dummy read, then the coprocessor at the captured address (R462). -/
def escDst (n : Bool) (x y : Nat) (m : MemOp) (s : State) (k : Nat → State → Result) : Result :=
  if !s.plat.hasVm87 then .next (s.readOp .word m).2
  else if s.fpu.busy && !n then .refused .escWhileBusy
  else k (s.escAddr m) (((s.escRead m).noteEp x (escByte y m)).noteOperand (s.escAddr m))

/-- Replace the coprocessor. -/
def State.setFpu (s : State) (f : Fpu) : State := { s with fpu := f }

/-! ### Families -/

/-- The memory formats of an arithmetic source (R400). -/
inductive FSrc
  | short
  | long
  | word
  | dword
  | qword
  deriving DecidableEq, Repr

/-- Its length in bytes. -/
def FSrc.size : FSrc → Nat
  | .short => 4
  | .long => 8
  | .word => 2
  | .dword => 4
  | .qword => 8

/-- Its value (R401, R403, R406). -/
def FSrc.opnd : FSrc → Nat → Opnd
  | .short, w => ofReal false w
  | .long, w => ofReal true w
  | .word, w => { v := extOfIntValue (signedBits 16 w), den := false }
  | .dword, w => { v := extOfIntValue (signedBits 32 w), den := false }
  | .qword, w => { v := extOfIntValue (signedBits 64 w), den := false }

/-- A dyadic operation: control, left and right operand, whether the left one is the destination. -/
abbrev Dyadic := FCtl → Opnd → Opnd → Bool → FRes

/-- Perform a dyadic operation into ST(dst) and pop; a pattern outside Table 3.5 is refused (U14). -/
def fpuDyadic (g : Dyadic) (a b : Opnd) (aIsDst : Bool) (dst : BitVec 3) (pops : Nat) (s : State) : Result :=
  if a.cls == .bad || b.cls == .bad then .refused .badExtended
  else
    let r := g (s.fpu.ctl s.free) a b aIsDst
    .next (s.bump.setFpu (s.fpu.deliver r fun f v => (f.put dst v).popN pops))

/-- `ST(0) <- ST(0) op src`, or with `rev` `src op ST(0)`. -/
def fpuMemArith (x y : Nat) (k : FSrc) (g : Dyadic) (rev : Bool) (m : MemOp) (s : State) : Result :=
  escSrc x y k.size m s fun w t =>
    let a := Opnd.ofReg (t.fpu.operand 0)
    let b := k.opnd w
    if rev then fpuDyadic g b a false 0 0 t else fpuDyadic g a b true 0 0 t

/-- `ST(0) <- ST(0) op ST(i)`, or with `rev` `ST(i) op ST(0)`. -/
def fpuTopArith (x second : Nat) (g : Dyadic) (rev : Bool) (i : BitVec 3) (s : State) : Result :=
  escReg false x (second + i.toNat) s fun t =>
    let a := Opnd.ofReg (t.fpu.operand 0)
    let b := Opnd.ofReg (t.fpu.operand i)
    if rev then fpuDyadic g b a false 0 0 t else fpuDyadic g a b true 0 0 t

/-- `ST(i) <- ST(0) op ST(i)`, or with `rev` `ST(i) op ST(0)`, then pops, after an unmasked OE or UE too, DESIGN CHOICE
(log 25). -/
def fpuStiArith (x second : Nat) (g : Dyadic) (rev : Bool) (pops : Nat) (i : BitVec 3) (s : State) : Result :=
  escReg false x (second + i.toNat) s fun t =>
    let a := Opnd.ofReg (t.fpu.operand 0)
    let b := Opnd.ofReg (t.fpu.operand i)
    if rev then fpuDyadic g b a true i pops t else fpuDyadic g a b false i pops t

/-- Compare ST(0) with an operand. -/
def fpuCompareWith (b : Opnd) (pops : Nat) (s : State) : Result :=
  if (Opnd.ofReg (s.fpu.operand 0)).cls == .bad || b.cls == .bad then .refused .badExtended
  else .next (s.setFpu (s.fpu.compare b pops))

/-- Compare with memory. -/
def fpuMemCompare (x y : Nat) (k : FSrc) (pops : Nat) (m : MemOp) (s : State) : Result :=
  escSrc x y k.size m s fun w t => fpuCompareWith (k.opnd w) pops t

/-- Compare with ST(i). -/
def fpuStiCompare (x second : Nat) (pops : Nat) (i : BitVec 3) (s : State) : Result :=
  escReg false x (second + i.toNat) s fun t => fpuCompareWith (Opnd.ofReg (t.fpu.operand i)) pops t

/-- Load from memory. -/
def fpuMemLoad (x y : Nat) (k : FSrc) (m : MemOp) (s : State) : Result :=
  escSrc x y k.size m s fun w t => .next (t.setFpu (t.fpu.load (k.opnd w) false))

/-- Load a constant (R479-R485). -/
def fpuConst (second : Nat) (v : Ext80) (s : State) : Result :=
  escReg false 1 second s fun t => .next (t.setFpu (t.fpu.load { v := v, den := false } false))

/-- One operand, ST(0), into ST(0). -/
def fpuMonadic (second : Nat) (g : FCtl → Opnd → FRes) (s : State) : Result :=
  escReg false 1 second s fun t =>
    let a := Opnd.ofReg (t.fpu.operand 0)
    if a.cls == .bad then .refused .badExtended
    else .next (t.bump.setFpu (t.fpu.deliver (g (t.fpu.ctl t.free) a) fun f v => f.put 0 v))

/-- A pattern with its sign bit changed. -/
def withSign (g : Bool → Bool) (v : Ext80) : Ext80 := mkExt (g (extSign v)) (extExp v) (extMant v)

/-- FABS and FCHS (R516, R517): the sign bit of ST(0) alone changes, that of a NAN or a denormal too, and the one flag is IE
for an empty ST(0) (R556), which masked reads as the indefinite code (R426; log 45). -/
def fpuSign (second : Nat) (g : Bool → Bool) (s : State) : Result :=
  escReg false 1 second s fun t =>
    let v := t.fpu.operand 0
    if extClass v == .bad then .refused .badExtended
    else .next (t.setFpu (t.fpu.deliver { FRes.exact (withSign g v) with ie := t.fpu.isEmpty 0 } fun f w => f.put 0 w))

/-- What follows a store's conversion: the conditions in the order of R429, then the bytes and the pop. An unmasked IE, OE
or UE stores nothing (R425, R428, D24). -/
def State.fpuFinishStore (s : State) (r : SRes) (a n pops : Nat) : State :=
  let f := s.fpu
  if r.ie then
    let g := f.raise 0
    if f.masked 0 then (s.setFpu (g.popN pops)).fpuWrite a r.val n else s.setFpu g
  else
    let g := if r.oe then f.raise 3 else f
    let g := if r.ue then g.raise 4 else g
    if (r.oe && !f.masked 3) || (r.ue && !f.masked 4) then s.setFpu g
    else
      let g := if r.pe then g.raise 5 else g
      (s.setFpu (g.popN pops)).fpuWrite a r.val n

/-- Store ST(0) in `n` bytes of memory (R473-R477); `raw` is the 80-bit copy that reads no pattern. -/
def fpuStore (x y n : Nat) (raw : Bool) (conv : FCtl → Ext80 → SRes) (pops : Nat) (m : MemOp) (s : State) : Result :=
  escDst false x y m s fun a t =>
    let v := t.fpu.operand 0
    if extClass v == .bad && !raw then .refused .badExtended
    else
      let r := conv (t.fpu.ctl t.free) v
      .next (t.bump.fpuFinishStore { r with ie := r.ie || t.fpu.isEmpty 0 } a n pops)

/-- Copy ST(0) to ST(i) with its tag (R473, R475). -/
def fpuStoreSti (second : Nat) (pops : Nat) (i : BitVec 3) (s : State) : Result :=
  escReg false 5 (second + i.toNat) s fun t =>
    let f := t.fpu
    if f.isEmpty 0 then .next (t.setFpu (f.deliver (FRes.invalid indefinite) fun g v => (g.put i v).popN pops))
    else .next (t.setFpu (((f.put i (f.st 0)).setTag i (f.tagOf 0)).popN pops))

/-! ### Initialisation and the environment image (R523, R530-R533) -/

/-- The arithmetic registers with unknown contents. -/
def freeRegisters (k : Nat) : Bank8 Ext80 :=
  ⟨Config.freeExt k, Config.freeExt (k + 1), Config.freeExt (k + 2), Config.freeExt (k + 3), Config.freeExt (k + 4),
    Config.freeExt (k + 5), Config.freeExt (k + 6), Config.freeExt (k + 7)⟩

/-- The state after RESET, FINIT and FSAVE (10_state.md R60): C3-C0 and the arithmetic registers are unspecified, here
the free values from number `k` on (log 12). -/
def Fpu.init (k : Nat) : Fpu :=
  { Fpu.reset with ar := freeRegisters k, sr := Config.freeWord k &&& 0x4700#16 }

/-- An initialisation uses up eight free values. -/
def State.fpuInit (s : State) : State := { s with fpu := Fpu.init s.free, free := s.free + 8 }

/-- An address and eleven more bits as two words (10_state.md R57). -/
def pointerImage (a : Addr20) (low : Nat) : Nat :=
  a.toNat % 2 ^ 16 + 2 ^ 16 * (low + a.toNat / 2 ^ 16 * 2 ^ 12)

/-- The 14 bytes of Fig. 3.16 as a number (R530). The bit B of SR is 1, as the store is in execution (R53, R462; log 14). -/
def Fpu.envImage (f : Fpu) : Nat :=
  (f.cr &&& 0x1FBF#16).toNat + 2 ^ 16 * f.srImage.toNat + 2 ^ 32 * f.tag.toNat
    + 2 ^ 48 * pointerImage f.epInstr f.epOpcode.toNat + 2 ^ 80 * pointerImage f.epOperand 0

/-- The environment from its image: the bits of CR that are not used are unknown after a load (U8; log 23). -/
def Fpu.ofEnvImage (f : Fpu) (w : Nat) (unused : Word) : Fpu :=
  { f with
    cr := (BitVec.ofNat 16 w &&& 0x1FBF#16) ||| (unused &&& 0xE040#16),
    sr := BitVec.ofNat 16 (w / 2 ^ 16) &&& 0xFFBF#16,
    tag := BitVec.ofNat 16 (w / 2 ^ 32),
    epInstr := BitVec.ofNat 20 (w / 2 ^ 48 % 2 ^ 16 + w / 2 ^ 76 % 2 ^ 4 * 2 ^ 16),
    epOpcode := BitVec.ofNat 11 (w / 2 ^ 64),
    epOperand := BitVec.ofNat 20 (w / 2 ^ 80 % 2 ^ 16 + w / 2 ^ 108 % 2 ^ 4 * 2 ^ 16) }

/-- An exception flag is set whose own mask is 0 (R526). -/
def Fpu.unmaskedFlag (f : Fpu) : Bool := (f.sr &&& ~~~f.cr &&& 0x3F#16) != 0#16

/-- The image of ST(i) and those above it, `n` of them from number `i`, ten bytes each (R532). -/
def Fpu.stackImage (f : Fpu) (i : Nat) : Nat → Nat
  | 0 => 0
  | n + 1 => (f.st (BitVec.ofNat 3 i)).toNat + 2 ^ 80 * f.stackImage (i + 1) n

/-- Write ST(i) and those above it from their image; the tags are not touched (R533). -/
def Fpu.ofStackImage (f : Fpu) (i w : Nat) : Nat → Fpu
  | 0 => f
  | n + 1 =>
    ({ f with ar := f.ar.set (f.number (BitVec.ofNat 3 i)) (BitVec.ofNat 80 w) }).ofStackImage (i + 1) (w / 2 ^ 80) n

end Sys2Proof.Machine
end

