-- ==== Sys2Proof/Machine/FpuArith.lean ====
section
/-! DEFINITION. The comparisons and the four arithmetic operations of the VM87 (47_vm87_instructions.md, section 3). -/

namespace Sys2Proof.Machine

/-- FCOM short real (R486). -/
def execFcomM32 (m : MemOp) (s : State) : Result := fpuMemCompare 0 2 .short 0 m s

/-- FCOM long real (R486). -/
def execFcomM64 (m : MemOp) (s : State) : Result := fpuMemCompare 4 2 .long 0 m s

/-- FCOM ST(i) (R486). -/
def execFcomSti (i : BitVec 3) (s : State) : Result := fpuStiCompare 0 0xD0 0 i s

/-- FICOM word integer (R487). -/
def execFicomM16i (m : MemOp) (s : State) : Result := fpuMemCompare 6 2 .word 0 m s

/-- FICOM short integer (R487). -/
def execFicomM32i (m : MemOp) (s : State) : Result := fpuMemCompare 2 2 .dword 0 m s

/-- FCOMP short real (R488). -/
def execFcompM32 (m : MemOp) (s : State) : Result := fpuMemCompare 0 3 .short 1 m s

/-- FCOMP long real (R488). -/
def execFcompM64 (m : MemOp) (s : State) : Result := fpuMemCompare 4 3 .long 1 m s

/-- FCOMP ST(i) (R488). -/
def execFcompSti (i : BitVec 3) (s : State) : Result := fpuStiCompare 0 0xD8 1 i s

/-- FICOMP word integer (R489). -/
def execFicompM16i (m : MemOp) (s : State) : Result := fpuMemCompare 6 3 .word 1 m s

/-- FICOMP short integer (R489). -/
def execFicompM32i (m : MemOp) (s : State) : Result := fpuMemCompare 2 3 .dword 1 m s

/-- FCOMPP (R490). -/
def execFcompp (s : State) : Result :=
  escReg false 6 0xD9 s fun t => fpuCompareWith (Opnd.ofReg (t.fpu.operand 1)) 2 t

/-- FTST (R491). -/
def execFtst (s : State) : Result :=
  escReg false 1 0xE4 s fun t => fpuCompareWith { v := extZero false, den := false } 0 t

/-- FXAM (R492, R440); of an empty register C2 and C1 are unknown (U16; log 19). -/
def execFxam (s : State) : Result :=
  escReg false 1 0xE5 s fun t =>
    let f := t.fpu
    let sg := extSign (f.st 0)
    if f.isEmpty 0 then
      let c2 := t.takeBit
      let c1 := c2.2.takeBit
      .next (c1.2.setFpu ((f.setCodes true c2.1 true).setC1 c1.1))
    else
      match extClass (f.st 0) with
      | .zero => .next (t.setFpu ((f.setCodes true false false).setC1 sg))
      | .pseudoZero => .next (t.setFpu ((f.setCodes false false false).setC1 sg))
      | .denormal => .next (t.setFpu ((f.setCodes true true false).setC1 sg))
      | .unnormal => .next (t.setFpu ((f.setCodes false false false).setC1 sg))
      | .normal => .next (t.setFpu ((f.setCodes false true false).setC1 sg))
      | .infinity => .next (t.setFpu ((f.setCodes false true true).setC1 sg))
      | .nan => .next (t.setFpu ((f.setCodes false false true).setC1 sg))
      | .bad => .refused .badExtended

/-- FADD short real (R493). -/
def execFaddM32 (m : MemOp) (s : State) : Result := fpuMemArith 0 0 .short (fun c => fpAdd c false) false m s

/-- FADD long real (R493). -/
def execFaddM64 (m : MemOp) (s : State) : Result := fpuMemArith 4 0 .long (fun c => fpAdd c false) false m s

/-- FADD ST,ST(i) (R493). -/
def execFaddStSti (i : BitVec 3) (s : State) : Result := fpuTopArith 0 0xC0 (fun c => fpAdd c false) false i s

/-- FADD ST(i),ST (R493). -/
def execFaddStiSt (i : BitVec 3) (s : State) : Result := fpuStiArith 4 0xC0 (fun c => fpAdd c false) false 0 i s

/-- FIADD word integer (R494). -/
def execFiaddM16i (m : MemOp) (s : State) : Result := fpuMemArith 6 0 .word (fun c => fpAdd c false) false m s

/-- FIADD short integer (R494). -/
def execFiaddM32i (m : MemOp) (s : State) : Result := fpuMemArith 2 0 .dword (fun c => fpAdd c false) false m s

/-- FADDP ST(i),ST (R495). -/
def execFaddpStiSt (i : BitVec 3) (s : State) : Result := fpuStiArith 6 0xC0 (fun c => fpAdd c false) false 1 i s

/-- FMUL short real (R502). -/
def execFmulM32 (m : MemOp) (s : State) : Result := fpuMemArith 0 1 .short fpMul false m s

/-- FMUL long real (R502). -/
def execFmulM64 (m : MemOp) (s : State) : Result := fpuMemArith 4 1 .long fpMul false m s

/-- FMUL ST,ST(i) (R502). -/
def execFmulStSti (i : BitVec 3) (s : State) : Result := fpuTopArith 0 0xC8 fpMul false i s

/-- FMUL ST(i),ST (R502). -/
def execFmulStiSt (i : BitVec 3) (s : State) : Result := fpuStiArith 4 0xC8 fpMul false 0 i s

/-- FIMUL word integer (R503). -/
def execFimulM16i (m : MemOp) (s : State) : Result := fpuMemArith 6 1 .word fpMul false m s

/-- FIMUL short integer (R503). -/
def execFimulM32i (m : MemOp) (s : State) : Result := fpuMemArith 2 1 .dword fpMul false m s

/-- FMULP ST(i),ST (R504). -/
def execFmulpStiSt (i : BitVec 3) (s : State) : Result := fpuStiArith 6 0xC8 fpMul false 1 i s

/-- FSUB short real (R496). -/
def execFsubM32 (m : MemOp) (s : State) : Result := fpuMemArith 0 4 .short (fun c => fpAdd c true) false m s

/-- FSUB long real (R496). -/
def execFsubM64 (m : MemOp) (s : State) : Result := fpuMemArith 4 4 .long (fun c => fpAdd c true) false m s

/-- FSUB ST,ST(i) (R496). -/
def execFsubStSti (i : BitVec 3) (s : State) : Result := fpuTopArith 0 0xE0 (fun c => fpAdd c true) false i s

/-- FSUB ST(i),ST (R496). -/
def execFsubStiSt (i : BitVec 3) (s : State) : Result := fpuStiArith 4 0xE0 (fun c => fpAdd c true) false 0 i s

/-- FSUBR short real (R497). -/
def execFsubrM32 (m : MemOp) (s : State) : Result := fpuMemArith 0 5 .short (fun c => fpAdd c true) true m s

/-- FSUBR long real (R497). -/
def execFsubrM64 (m : MemOp) (s : State) : Result := fpuMemArith 4 5 .long (fun c => fpAdd c true) true m s

/-- FSUBR ST,ST(i) (R497). -/
def execFsubrStSti (i : BitVec 3) (s : State) : Result := fpuTopArith 0 0xE8 (fun c => fpAdd c true) true i s

/-- FSUBR ST(i),ST (R497). -/
def execFsubrStiSt (i : BitVec 3) (s : State) : Result := fpuStiArith 4 0xE8 (fun c => fpAdd c true) true 0 i s

/-- FDIV short real (R505). -/
def execFdivM32 (m : MemOp) (s : State) : Result := fpuMemArith 0 6 .short fpDiv false m s

/-- FDIV long real (R505). -/
def execFdivM64 (m : MemOp) (s : State) : Result := fpuMemArith 4 6 .long fpDiv false m s

/-- FDIV ST,ST(i) (R505). -/
def execFdivStSti (i : BitVec 3) (s : State) : Result := fpuTopArith 0 0xF0 fpDiv false i s

/-- FDIV ST(i),ST (R505). -/
def execFdivStiSt (i : BitVec 3) (s : State) : Result := fpuStiArith 4 0xF0 fpDiv false 0 i s

/-- FDIVR short real (R506). -/
def execFdivrM32 (m : MemOp) (s : State) : Result := fpuMemArith 0 7 .short fpDiv true m s

/-- FDIVR long real (R506). -/
def execFdivrM64 (m : MemOp) (s : State) : Result := fpuMemArith 4 7 .long fpDiv true m s

/-- FDIVR ST,ST(i) (R506). -/
def execFdivrStSti (i : BitVec 3) (s : State) : Result := fpuTopArith 0 0xF8 fpDiv true i s

/-- FDIVR ST(i),ST (R506). -/
def execFdivrStiSt (i : BitVec 3) (s : State) : Result := fpuStiArith 4 0xF8 fpDiv true 0 i s

/-- FSUBP ST(i),ST (R498). -/
def execFsubpStiSt (i : BitVec 3) (s : State) : Result := fpuStiArith 6 0xE0 (fun c => fpAdd c true) false 1 i s

/-- FSUBRP ST(i),ST (R499). -/
def execFsubrpStiSt (i : BitVec 3) (s : State) : Result := fpuStiArith 6 0xE8 (fun c => fpAdd c true) true 1 i s

/-- FISUB word integer (R500). -/
def execFisubM16i (m : MemOp) (s : State) : Result := fpuMemArith 6 4 .word (fun c => fpAdd c true) false m s

/-- FISUB short integer (R500). -/
def execFisubM32i (m : MemOp) (s : State) : Result := fpuMemArith 2 4 .dword (fun c => fpAdd c true) false m s

/-- FISUBR word integer (R501). -/
def execFisubrM16i (m : MemOp) (s : State) : Result := fpuMemArith 6 5 .word (fun c => fpAdd c true) true m s

/-- FISUBR short integer (R501). -/
def execFisubrM32i (m : MemOp) (s : State) : Result := fpuMemArith 2 5 .dword (fun c => fpAdd c true) true m s

/-- FDIVP ST(i),ST (R507). -/
def execFdivpStiSt (i : BitVec 3) (s : State) : Result := fpuStiArith 6 0xF0 fpDiv false 1 i s

/-- FDIVRP ST(i),ST (R508). -/
def execFdivrpStiSt (i : BitVec 3) (s : State) : Result := fpuStiArith 6 0xF8 fpDiv true 1 i s

/-- FIDIV word integer (R509). -/
def execFidivM16i (m : MemOp) (s : State) : Result := fpuMemArith 6 6 .word fpDiv false m s

/-- FIDIV short integer (R509). -/
def execFidivM32i (m : MemOp) (s : State) : Result := fpuMemArith 2 6 .dword fpDiv false m s

/-- FIDIVR word integer (R510). -/
def execFidivrM16i (m : MemOp) (s : State) : Result := fpuMemArith 6 7 .word fpDiv true m s

/-- FIDIVR short integer (R510). -/
def execFidivrM32i (m : MemOp) (s : State) : Result := fpuMemArith 2 7 .dword fpDiv true m s

end Sys2Proof.Machine
end

