-- ==== Sys2Proof/Machine/FpuControl.lean ====
section
/-! DEFINITION. The control instructions of the VM87 (47_vm87_instructions.md, section 5) and the unlisted ESC codes. -/

namespace Sys2Proof.Machine

/-- A set flag whose mask is 0 raises the request, and BUSY with it when IEM = 0 (10_state.md R53; R524, R526, R466;
log 14). -/
def Fpu.react (f : Fpu) : Fpu := if f.unmaskedFlag then f.request else f

/-- The same after a load of the whole environment, whose bit B is not the coprocessor's (R531, R533; log 14). -/
def Fpu.reload (f : Fpu) : Fpu := ({ f with sr := setBit f.sr 15 false }).react

/-- The four instructions that move the environment: no change of EP (D22). The state given on is the one after the CPU's
dummy read. -/
def escEnv (n : Bool) (m : MemOp) (s : State) (k : State → Result) : Result :=
  if !s.plat.hasVm87 then .next (s.readOp .word m).2
  else if s.fpu.busy && !n then .refused .escWhileBusy
  else k (s.escRead m)

/-- ESC with a code that Table 3.11 does not list (45_processor_control.md R372, R550): without a VM87 the CPU reads a
word of a memory operand and goes on; with one the code is refused (U20). -/
def execEsc (_x _y : BitVec 3) (rm : RM) (s : State) : Result :=
  if s.plat.hasVm87 then .refused .unlistedEsc
  else
    match rm with
    | .reg _ => .next s
    | .mem m => .next (s.readOp .word m).2

/-- FINCSTP (R534). -/
def execFincstp (s : State) : Result :=
  escReg false 1 0xF7 s fun t => .next (t.setFpu (t.fpu.setTop (t.fpu.top + 1)))

/-- FDECSTP (R535). -/
def execFdecstp (s : State) : Result :=
  escReg false 1 0xF6 s fun t => .next (t.setFpu (t.fpu.setTop (t.fpu.top - 1)))

/-- FNOP (R537). -/
def execFnop (s : State) : Result := escReg false 1 0xD0 s fun t => .next t

/-- FINIT, FNINIT (R523); C3-C0 and AR are unknown afterwards (10_state.md R54, R60). -/
def execFinit (s : State) : Result :=
  escReg true 3 0xE3 s fun t => .next t.fpuInit

/-- FENI, FNENI (R524): a request that IEM has gated appears, and BUSY with it. -/
def execFeni (s : State) : Result :=
  escReg true 3 0xE0 s fun t => .next (t.setFpu ({ t.fpu with cr := setBit t.fpu.cr 7 false }).react)

/-- FDISI, FNDISI (R525). -/
def execFdisi (s : State) : Result :=
  escReg true 3 0xE1 s fun t => .next (t.setFpu { t.fpu with cr := setBit t.fpu.cr 7 true })

/-- FCLEX, FNCLEX (R529). -/
def execFclex (s : State) : Result :=
  escReg true 3 0xE2 s fun t => .next (t.setFpu { t.fpu with sr := t.fpu.sr &&& 0x7F40#16 })

/-- FLDCW (R526); the bits of CR that are not used are unknown after a load (U8; log 23). A request that stands, with IR
and the hold of BUSY, stays when the new masks cover every flag that is set, DESIGN CHOICE (log 14): R53 has FCLEX clear
it. -/
def execFldcw (m : MemOp) (s : State) : Result :=
  escSrc 1 5 2 m s fun w t =>
    let u := t.takeWord
    .next (u.2.setFpu { t.fpu with cr := (BitVec.ofNat 16 w &&& 0x1FBF#16) ||| (u.1 &&& 0xE040#16) }.react)

/-- FSTCW, FNSTCW (R527). -/
def execFstcw (m : MemOp) (s : State) : Result :=
  escDst true 1 7 m s fun a t => .next (t.fpuWrite a t.fpu.cr.toNat 2)

/-- FSTSW, FNSTSW (R528). The bit B that it stores is 1, as it is in execution (R53, R462; log 14). -/
def execFstsw (m : MemOp) (s : State) : Result :=
  escDst true 5 7 m s fun a t => .next (t.fpuWrite a t.fpu.srImage.toNat 2)

/-- FSTENV, FNSTENV (R530): EP is stored, not changed (D22); then all six masks are set, and BUSY falls (R466),
while IR stays, DESIGN CHOICE (log 14). -/
def execFstenv (m : MemOp) (s : State) : Result :=
  escEnv true m s fun t =>
    .next ((t.setFpu { t.fpu with cr := t.fpu.cr ||| 0x3F#16, sr := setBit t.fpu.sr 15 false }).fpuWrite (s.escAddr m)
      t.fpu.envImage 14)

/-- FLDENV (R531). -/
def execFldenv (m : MemOp) (s : State) : Result :=
  escEnv false m s fun _ =>
    let r := s.fpuSource m 14
    let u := r.2.takeWord
    .next (u.2.setFpu (r.2.fpu.ofEnvImage r.1 u.1).reload)

/-- FSAVE, FNSAVE (R532): 94 bytes, then the initialisation of FINIT. -/
def execFsave (m : MemOp) (s : State) : Result :=
  escEnv true m s fun t =>
    .next (t.fpuInit.fpuWrite (s.escAddr m)
      (t.fpu.envImage + 2 ^ 112 * t.fpu.stackImage 0 8) 94)

/-- FRSTOR (R533). -/
def execFrstor (m : MemOp) (s : State) : Result :=
  escEnv false m s fun _ =>
    let r := s.fpuSource m 94
    let u := r.2.takeWord
    .next (u.2.setFpu ((r.2.fpu.ofEnvImage r.1 u.1).ofStackImage 0 (r.1 / 2 ^ 112) 8).reload)

/-- FFREE ST(i): the tag alone (R536). -/
def execFfreeSti (i : BitVec 3) (s : State) : Result :=
  escReg false 5 (0xC0 + i.toNat) s fun t => .next (t.setFpu (t.fpu.setTag i 3))

end Sys2Proof.Machine
end

