-- ==== Sys2Proof/Machine/FpuApprox.lean ====
section
/-! DEFINITION. The five transcendental functions of the VM87 (46_vm87_numerics.md R412, 93_implementation_defined.md U12;
log 16): the value of the function from a power series in fixed point, and a result that differs from it by a free number
of units of the last place within the tolerance. -/

namespace Sys2Proof.Machine

/-! ### Fixed point -/

/-- One, in fixed point with 256 fraction bits. -/
def fixOne : Nat := 2 ^ 256

/-- The product of two fixed-point numbers. -/
def fixMul (a b : Nat) : Nat := a * b / fixOne

/-- The quotient of two fixed-point numbers. -/
def fixDiv (a b : Nat) : Nat := a * fixOne / b

/-- The square root of a fixed-point number below 4. -/
def fixSqrt (a : Nat) : Nat := isqrtFrom 260 (a * fixOne) 0

/-- The natural logarithm of 2. -/
def fixLn2 : Nat := 0xb17217f7d1cf79abc9e3b39803f2f6af40f343267298b62d8a0d175b8baafa2c

/-- A magnitude in fixed point. -/
def Mag.fix (x : Mag) : Nat := if 0 ≤ x.e + 256 then x.m * 2 ^ (x.e + 256).toNat else x.m / 2 ^ (-(x.e + 256)).toNat

/-- A magnitude times a fixed-point number, its error below one part in `2^100`. -/
def Mag.times (x : Mag) (f : Nat) : Mag := { m := x.m * f, e := x.e - 256, sticky := false }

/-- The product of two magnitudes. -/
def Mag.mul (x y : Mag) : Mag := { m := x.m * y.m, e := x.e + y.e, sticky := false }

/-- The quotient of two magnitudes. -/
def Mag.quot (x y : Mag) : Mag := { m := x.m * 2 ^ 256 / y.m, e := x.e - y.e - 256, sticky := false }

/-- The factorial. -/
def factorial : Nat → Nat
  | 0 => 1
  | n + 1 => (n + 1) * factorial n

/-- The terms `k` to `k + n` of the power series in `u` whose coefficient `j` is `1 / d j`, of falling size, with
alternating signs when `alt`; divided by `u ^ k`. -/
def series (alt : Bool) (d : Nat → Nat) (u k : Nat) : Nat → Nat
  | 0 => fixOne / d k
  | n + 1 =>
    let r := fixMul u (series alt d u (k + 1) n)
    if alt then fixOne / d k - r else fixOne / d k + r

/-- The number of terms that leaves an error below one part in `2^190`. -/
def seriesLength : Nat := 48

/-- `(e^t - 1) / t`. -/
def expFactor (t : Nat) : Nat := series false (fun k => factorial (k + 1)) t 0 seriesLength

/-- `tg a / a`. -/
def tanFactor (a : Nat) : Nat :=
  let u := fixMul a a
  fixDiv (series true (fun k => factorial (2 * k + 1)) u 0 seriesLength)
    (series true (fun k => factorial (2 * k)) u 0 seriesLength)

/-- `tg (t/2) / tg t`, from the square of `tg t`. -/
def halfTan (u : Nat) : Nat := fixDiv fixOne (fixOne + fixSqrt (fixOne + u))

/-- `arctg q / q`: the angle is halved twice, then the series. -/
def atanFactor (q : Nat) : Nat :=
  let u := fixMul q q
  let r := halfTan u
  let v := fixMul u (fixMul r r)
  let p := halfTan v
  4 * fixMul (fixMul r p) (series true (fun k => 2 * k + 1) (fixMul v (fixMul p p)) 0 seriesLength)

/-- `log2 (1 + d) / d` for `d` of a sign and a magnitude of at most one half: `2 artanh (d / (2 + d)) / (d ln 2)`. -/
def logFactor (neg : Bool) (d : Nat) : Nat :=
  let two := if neg then 2 * fixOne - d else 2 * fixOne + d
  let s := fixDiv d two
  fixDiv (fixDiv (2 * series false (fun k => 2 * k + 1) (fixMul s s) 0 seriesLength) two) fixLn2

/-! ### The functions on magnitudes -/

/-- `2^x - 1`. -/
def exactExp (x : Mag) : Mag := (x.times fixLn2).times (expFactor (fixMul x.fix fixLn2))

/-- `tg a`. -/
def exactTan (a : Mag) : Mag := a.times (tanFactor a.fix)

/-- `arctg (y / x)`. -/
def exactAtan (y x : Mag) : Mag := (y.quot x).times (atanFactor (y.quot x).fix)

/-- `log2 (1 + d)`: a magnitude; its sign is that of `d`. -/
def exactLogPlus (neg : Bool) (d : Mag) : Mag := d.times (logFactor neg d.fix)

/-- `log2 x` of a positive normal number: the sign and the magnitude. The number is a power of two times a factor from
3/4 to 3/2, whose distance from one is exact. -/
def exactLog (x : Ext80) : Bool × Mag :=
  let m := extMant x
  let up := decide (3 * 2 ^ 62 ≤ m)
  let k : Int := (extExp x : Int) - 16383 + (if up then 1 else 0)
  let d : Mag := if up then { m := 2 ^ 64 - m, e := -64, sticky := false } else { m := m - 2 ^ 63, e := -63, sticky := false }
  let l := exactLogPlus up d
  if k = 0 then (up, l)
  else
    let v := k * (fixOne : Int) + signed up l.fix
    (decide (v < 0), { m := v.natAbs, e := -256, sticky := false })

/-! ### Results -/

/-- The free number of units by which a result differs from the exact value, at most the tolerance either way. -/
def FCtl.error (c : FCtl) (tol : Nat) : Int := ((c.wildN % (2 * tol + 1) : Nat) : Int) - tol

/-- A value to the 64 bits of a normal number, or to those that a denormal has when UE is masked, then moved by the error
in units of the last place. -/
def Mag.near (c : FCtl) (tol : Nat) (x : Mag) : Mag :=
  if c.um ∧ x.top < -16382 then
    { m := (((x.round 0 false (-16445)).1 : Int) + c.error tol).toNat, e := -16445, sticky := false }
  else
    let r := roundMant 0 64 false x
    { m := ((r.1 : Int) + c.error tol).toNat, e := r.2.1 - 63, sticky := false }

/-- A result that the spec does not define (R557): the value and PE are free (log 16). It is also what a pattern outside
Table 3.5 gives as operand of FPTAN, FPATAN, F2XM1, FYL2X or FYL2XP1, DESIGN CHOICE (log 26): R557 leaves the result
undefined, these instructions do not check their operands, and the model does not refuse them as U14 would. -/
def FCtl.undefinedResult (c : FCtl) : FRes := { FRes.exact c.wildX with pe := c.loosePe }

/-- A result of FPTAN, FPATAN, FYL2X and FYL2XP1, delivered by `pack`. Their rules and Table 3.14 list neither OE nor UE
(R556), so that one below the normal numbers is the denormal next to it, or a zero, whatever UM is (R412, U12); one above
the largest number, of which no temporary real is an approximation, is free. PE is set (R427; logs 16, 46). -/
def FCtl.inRange (c : FCtl) (pack : FCtl → FRes) : FRes :=
  let r := pack { c with um := true }
  if r.oe then { FRes.exact c.wildX with pe := true } else { r with ue := false }

/-- The approximation of a non-zero value that no temporary real equals, so that PE is set (R410, R427). -/
def approxResult (c : FCtl) (tol : Nat) (sign : Bool) (x : Mag) : FRes :=
  { packNormal c 64 sign (x.near c tol) with pe := true }

/-- An operand of a transcendental instruction that is normalised (R557). -/
def isNormal (v : Ext80) : Bool := extClass v == .normal

/-- F2XM1 (R520): `2^x - 1` for `0 <= x <= 0.5`, which is irrational but at 0; else not defined, UE included, which is in
the list of its flags. -/
def approx2xm1 (c : FCtl) (tol : Nat) (x : Ext80) : FRes :=
  if extClass x == .zero then FRes.exact x
  else if isNormal x && !extSign x && decide ((extMag x).fix ≤ fixOne / 2) then
    approxResult c tol false (exactExp (extMag x))
  else { c.undefinedResult with ue := c.looseUe }

/-- FPTAN (R518): the angle is `z/2`, or `z` when the parameter FPTAN_HALF_ANGLE is false (D30). -/
def tanAngle (half : Bool) (z : Ext80) : Mag := { extMag z with e := if half then (extMag z).e - 1 else (extMag z).e }

/-- The x of FPTAN, which the source leaves open but for the ratio (R518): the model takes a positive normal number with
a free mantissa and a free exponent field of 64 values, from 3FFFh on, for an operand out of the range too. Of the least
numbers `z` the field is at least 4007h, so that y is a normal number and keeps the ratio (log 16). -/
def approxTanX (c : FCtl) (tol : Nat) (z : Ext80) : Ext80 :=
  mkExt false ((if extExp z < 8 then 0x4007 else 0x3FFF) + c.wildN / (2 * tol + 1) % 64)
    (2 ^ 63 + extMant c.wildX % 2 ^ 63)

/-- The y of FPTAN for `0 <= z <= pi/4`: x times the tangent, which is irrational but at 0; else not defined.
R518 gives y = 0 for z = 0 and no sign of it for z = -0 (log 16). -/
def approxTanY (c : FCtl) (tol : Nat) (half : Bool) (z : Ext80) : FRes :=
  if extClass z == .zero then FRes.exact (extZero (extSign z && c.looseSign))
  else if isNormal z && !extSign z && relFinite z (mkExt false 0x3FFE 0xC90FDAA22168C235) == .lt then
    c.inRange fun c => approxResult c tol false ((extMag (approxTanX c tol z)).mul (exactTan (tanAngle half z)))
  else c.undefinedResult

/-- FPATAN (R519): `arctg (y/x)` for `0 < y < x`, which is irrational; else not defined. -/
def approxAtan (c : FCtl) (tol : Nat) (x y : Ext80) : FRes :=
  if isNormal x && isNormal y && !extSign x && !extSign y && relFinite y x == .lt then
    c.inRange fun c => approxResult c tol false (exactAtan (extMag y) (extMag x))
  else c.undefinedResult

/-- The product of `y` and a logarithm with the sign `neg`. One that is rational, as `whole` says, and that a temporary
real equals, is delivered exactly (the example of R521). A `y` that is neither a zero nor normal gives no defined result,
whatever the logarithm (R434, R437, R557). No rule states the sign of a zero result, DESIGN CHOICE (log 16): where the
logarithm is not 0 the model takes the sum of the signs of the two factors (as R435 does for products), and where it is 0
(x = 1 in FYL2X) the sign is free. -/
def approxProduct (c : FCtl) (tol : Nat) (y : Ext80) (neg : Bool) (l : Mag) (whole : Bool) : FRes :=
  let sg := extSign y != neg
  if extClass y == .zero || isNormal y then
    if l.m == 0 then FRes.exact (extZero c.looseSign)
    else if extClass y == .zero then FRes.exact (extZero sg)
    else
      let z := (extMag y).mul l
      c.inRange fun c =>
        if whole && !(roundMant c.rc 64 sg z).2.2 then packNormal c 64 sg z else approxResult c tol sg z
  else c.undefinedResult

/-- FYL2X (R521): `y log2 x` for `x > 0`, else not defined. The logarithm is rational for a power of two alone. -/
def approxYl2x (c : FCtl) (tol : Nat) (x y : Ext80) : FRes :=
  if isNormal x && !extSign x then approxProduct c tol y (exactLog x).1 (exactLog x).2 (extMant x == 2 ^ 63)
  else c.undefinedResult

/-- FYL2XP1 (R522): `y log2 (x + 1)` for `0 < |x| < 1 - 1/sqrt 2`, where the logarithm is irrational; else not defined.
-/
def approxYl2xp1 (c : FCtl) (tol : Nat) (x y : Ext80) : FRes :=
  if isNormal x && decide ((extMag x).fix < fixOne - fixDiv fixOne (fixSqrt (2 * fixOne))) then
    approxProduct c tol y (extSign x) (exactLogPlus (extSign x) (extMag x)) false
  else c.undefinedResult

end Sys2Proof.Machine
end

