-- ==== Sys2Proof/Machine/FpuSpecial.lean ====
section
/-! DEFINITION. The special computing instructions of the VM87 (47_vm87_instructions.md, section 4). -/

namespace Sys2Proof.Machine

/-- Two results (R515, R518): the first, with the conditions, replaces ST(0), the second is pushed. A full new top is a
stack overflow (R426). -/
def Fpu.pushPair (f : Fpu) (first : FRes) (second : Ext80) : Fpu :=
  let full := !(f.setTop (f.top - 1)).isEmpty 0
  f.deliver { first with ie := first.ie || full } fun g v =>
    (((g.put 0 v).setTop (f.top - 1)).put 0 (if full then indefinite else second))

/-- FSQRT (R511). -/
def execFsqrt (s : State) : Result := fpuMonadic 0xFA fpSqrt s

/-- FSCALE (R512, U18). -/
def execFscale (s : State) : Result :=
  escReg false 1 0xFD s fun t =>
    fpuDyadic (fun c a n _ => fpScale c a n) (Opnd.ofReg (t.fpu.operand 0)) (Opnd.ofReg (t.fpu.operand 1)) true 0 0 t

/-- FPREM (R513, U19): C0, C3, C1 are the low bits of the quotient, C2 says that it is not complete (R440, C26). -/
def execFprem (s : State) : Result :=
  escReg false 1 0xF8 s fun t =>
    let a := Opnd.ofReg (t.fpu.operand 0)
    let d := Opnd.ofReg (t.fpu.operand 1)
    if a.cls == .bad || d.cls == .bad then .refused .badExtended
    else
      let r := fpRem (t.fpu.ctl t.free) a d
      .next (t.bump.setFpu (t.fpu.deliver r.1 fun f v =>
        ((f.setCodes (r.2.2 / 2 % 2 == 1) (!r.2.1) (r.2.2 / 4 % 2 == 1)).setC1 (r.2.2 % 2 == 1)).put 0 v))

/-- FRNDINT (R514). -/
def execFrndint (s : State) : Result := fpuMonadic 0xFC fpRoundInt s

/-- FXTRACT (R515): the exponent replaces ST(0) and the mantissa is pushed. The one flag is IE (R556), so that a
denormalised operand does not set DE (log 46). -/
def execFxtract (s : State) : Result :=
  escReg false 1 0xF4 s fun t =>
    let f := t.fpu
    let a := Opnd.ofReg (f.operand 0)
    if a.cls == .bad then .refused .badExtended
    else
      let r := fpExtract a
      .next (t.bump.setFpu (f.pushPair { FRes.exact r.2.1 with ie := r.1 } r.2.2))

/-- FABS (R516): the sign bit is cleared. -/
def execFabs (s : State) : Result := fpuSign 0xE1 (fun _ => false) s

/-- FCHS (R517): the sign bit is inverted. -/
def execFchs (s : State) : Result := fpuSign 0xE0 not s

/-- FPTAN (R518, D30, U12): only the ratio y/x is given; the operand is not checked. An empty ST(0) sets IE, and masked it
reads as the indefinite code, a NAN, of which the result is free (R426, R437). -/
def execFptan (s : State) : Result :=
  escReg false 1 0xF2 s fun t =>
    let f := t.fpu
    let c := f.ctl t.free
    let tol := t.plat.vm87Tolerance
    .next (t.bump.setFpu (f.pushPair { approxTanY c tol t.plat.fptanHalfAngle (f.operand 0) with ie := f.isEmpty 0 }
      (approxTanX c tol (f.operand 0))))

/-- FPATAN (R519, U12): arctg(ST(1)/ST(0)); the operands are not checked. An empty operand sets IE, and masked it reads as
the indefinite code, a NAN, of which the result is free (R426, R437). -/
def execFpatan (s : State) : Result :=
  escReg false 1 0xF3 s fun t =>
    let f := t.fpu
    let c := f.ctl t.free
    let r := approxAtan c t.plat.vm87Tolerance (f.operand 0) (f.operand 1)
    .next (t.bump.setFpu (f.deliver { r with ie := f.isEmpty 0 || f.isEmpty 1 } fun g w => g.pop.put 0 w))

/-- F2XM1 (R520, U12): a zero keeps its sign. The operand is not checked and IE is not in the list of the flags (R556): an
empty ST(0) reads as the indefinite code, a NAN, of which the result is free (R426, R437; log 46). -/
def execF2xm1 (s : State) : Result :=
  escReg false 1 0xF0 s fun t =>
    let f := t.fpu
    let c := f.ctl t.free
    let r := approx2xm1 c t.plat.vm87Tolerance (f.operand 0)
    .next (t.bump.setFpu (f.deliver r fun g w => g.put 0 w))

/-- FYL2X (R521, U12): the operands are not checked, empty ones as in F2XM1 (R556; log 46). -/
def execFyl2x (s : State) : Result :=
  escReg false 1 0xF1 s fun t =>
    let f := t.fpu
    let c := f.ctl t.free
    let r := approxYl2x c t.plat.vm87Tolerance (f.operand 0) (f.operand 1)
    .next (t.bump.setFpu (f.deliver r fun g w => g.pop.put 0 w))

/-- FYL2XP1 (R522, U12): the operands are not checked, empty ones as in F2XM1 (R556; log 46). -/
def execFyl2xp1 (s : State) : Result :=
  escReg false 1 0xF9 s fun t =>
    let f := t.fpu
    let c := f.ctl t.free
    let r := approxYl2xp1 c t.plat.vm87Tolerance (f.operand 0) (f.operand 1)
    .next (t.bump.setFpu (f.deliver r fun g w => g.pop.put 0 w))

end Sys2Proof.Machine
end

