-- ==== Sys2Proof/Machine/FpuTransfer.lean ====
section
/-! DEFINITION. The data transfer instructions of the VM87 (47_vm87_instructions.md, section 2). -/

namespace Sys2Proof.Machine

/-- An empty register receives the indefinite code (R421). -/
def Fpu.fill (f : Fpu) (i : BitVec 3) : Fpu := if f.isEmpty i then f.put i indefinite else f

/-- Exchange ST(0) and ST(i) with their tags (R478). -/
def Fpu.exchange (f : Fpu) (i : BitVec 3) : Fpu :=
  let v := f.st 0
  let t := f.tagOf 0
  (((f.put 0 (f.st i)).setTag 0 (f.tagOf i)).put i v).setTag i t

/-- One of the five irrational constants: one of the two temporary reals around the true value (R485, U11; log 15). -/
def romConst (k e m : Nat) : Ext80 := mkExt false e (m + bitNat (Config.constUp k))

/-- FLD short real (R470). -/
def execFldM32 (m : MemOp) (s : State) : Result := fpuMemLoad 1 0 .short m s

/-- FLD long real (R470). -/
def execFldM64 (m : MemOp) (s : State) : Result := fpuMemLoad 5 0 .long m s

/-- FLD temporary real: copied bit for bit (R470). -/
def execFldM80 (m : MemOp) (s : State) : Result :=
  escSrc 3 5 10 m s fun w t =>
    let v := BitVec.ofNat 80 w
    if extClass v == .bad then .refused .badExtended
    else .next (t.setFpu (t.fpu.load { v := v, den := false } false))

/-- FLD ST(i): the content is read before ST changes (R470). -/
def execFldSti (i : BitVec 3) (s : State) : Result :=
  escReg false 1 (0xC0 + i.toNat) s fun t =>
    let v := t.fpu.operand i
    if extClass v == .bad then .refused .badExtended
    else .next (t.setFpu (t.fpu.load { v := v, den := false } (t.fpu.isEmpty i)))

/-- FILD word integer (R471). -/
def execFildM16i (m : MemOp) (s : State) : Result := fpuMemLoad 7 0 .word m s

/-- FILD short integer (R471). -/
def execFildM32i (m : MemOp) (s : State) : Result := fpuMemLoad 3 0 .dword m s

/-- FILD long integer (R471). -/
def execFildM64i (m : MemOp) (s : State) : Result := fpuMemLoad 7 5 .qword m s

/-- FBLD packed decimal (R472); a digit above 9 gives an unknown value (U13). -/
def execFbldM80 (m : MemOp) (s : State) : Result :=
  escSrc 7 4 10 m s fun w t =>
    let r := t.takeExt
    .next (r.2.setFpu (r.2.fpu.load { v := ofBcd r.1 w, den := false } false))

/-- FST short real (R473). -/
def execFstM32 (m : MemOp) (s : State) : Result :=
  fpuStore 1 2 4 false (fun c v => storeReal c false v) 0 m s

/-- FST long real (R473). -/
def execFstM64 (m : MemOp) (s : State) : Result :=
  fpuStore 5 2 8 false (fun c v => storeReal c true v) 0 m s

/-- FST ST(i) (R473). -/
def execFstSti (i : BitVec 3) (s : State) : Result := fpuStoreSti 0xD0 0 i s

/-- FIST word integer (R474). -/
def execFistM16i (m : MemOp) (s : State) : Result :=
  fpuStore 7 2 2 false (fun c v => storeInt c 16 v) 0 m s

/-- FIST short integer (R474). -/
def execFistM32i (m : MemOp) (s : State) : Result :=
  fpuStore 3 2 4 false (fun c v => storeInt c 32 v) 0 m s

/-- FSTP short real (R475). -/
def execFstpM32 (m : MemOp) (s : State) : Result :=
  fpuStore 1 3 4 false (fun c v => storeReal c false v) 1 m s

/-- FSTP long real (R475). -/
def execFstpM64 (m : MemOp) (s : State) : Result :=
  fpuStore 5 3 8 false (fun c v => storeReal c true v) 1 m s

/-- FSTP temporary real: the 80 bits unchanged (R475, R413). -/
def execFstpM80 (m : MemOp) (s : State) : Result :=
  fpuStore 3 7 10 true (fun _ v => SRes.exact v.toNat) 1 m s

/-- FSTP ST(i) (R475). -/
def execFstpSti (i : BitVec 3) (s : State) : Result := fpuStoreSti 0xD8 1 i s

/-- FISTP word integer (R476). -/
def execFistpM16i (m : MemOp) (s : State) : Result :=
  fpuStore 7 3 2 false (fun c v => storeInt c 16 v) 1 m s

/-- FISTP short integer (R476). -/
def execFistpM32i (m : MemOp) (s : State) : Result :=
  fpuStore 3 3 4 false (fun c v => storeInt c 32 v) 1 m s

/-- FISTP long integer (R476). -/
def execFistpM64i (m : MemOp) (s : State) : Result :=
  fpuStore 7 7 8 false (fun c v => storeInt c 64 v) 1 m s

/-- FBSTP packed decimal (R477). -/
def execFbstpM80 (m : MemOp) (s : State) : Result :=
  fpuStore 7 6 10 false storeBcd 1 m s

/-- FXCH ST(i) (R478, R421). -/
def execFxchSti (i : BitVec 3) (s : State) : Result :=
  escReg false 1 (0xC8 + i.toNat) s fun t =>
    let f := t.fpu
    if f.isEmpty 0 || f.isEmpty i then
      let g := f.raise 0
      .next (t.setFpu (if f.masked 0 then ((g.fill 0).fill i).exchange i else g))
    else .next (t.setFpu (f.exchange i))

/-- FLDZ (R479). -/
def execFldz (s : State) : Result := fpuConst 0xEE (extZero false) s

/-- FLD1 (R480). -/
def execFld1 (s : State) : Result := fpuConst 0xE8 (mkExt false 0x3FFF (2 ^ 63)) s

/-- FLDPI (R481). -/
def execFldpi (s : State) : Result := fpuConst 0xEB (romConst 0 0x4000 0xC90FDAA22168C234) s

/-- FLDL2T (R482). -/
def execFldl2t (s : State) : Result := fpuConst 0xE9 (romConst 1 0x4000 0xD49A784BCD1B8AFE) s

/-- FLDL2E (R483). -/
def execFldl2e (s : State) : Result := fpuConst 0xEA (romConst 2 0x3FFF 0xB8AA3B295C17F0BB) s

/-- FLDLG2 (R484). -/
def execFldlg2 (s : State) : Result := fpuConst 0xEC (romConst 3 0x3FFD 0x9A209A84FBCFF798) s

/-- FLDLN2 (R485). -/
def execFldln2 (s : State) : Result := fpuConst 0xED (romConst 4 0x3FFE 0xB17217F7D1CF79AB) s

end Sys2Proof.Machine
end

