-- ==== Sys2Proof/Machine/IopOps.lean ====
section
/-! DEFINITION. The shared operations of the VM89: its two address spaces (48_vm89_iop.md R561, R563), effective addresses
(R592), and how a register destination is filled (R595). An instruction acts on the channel `iop.cur`, whose TP already
points past it (R596). -/

namespace Sys2Proof.Machine

/-! ### The channel that runs -/

/-- The channel of the instruction. -/
def State.ch (s : State) : IopChan := s.iop.chan s.iop.cur

/-- Replace it. -/
def State.setCh (s : State) (c : IopChan) : State := { s with iop := s.iop.setChan s.iop.cur c }

/-! ### Bytes and words of the two spaces -/

/-- M8[sp, a] read; `io` is the I/O space, where the low 16 bits of the address count (R561). In the remote configuration
the I/O space is a bus of the VM89's own (R562), with RAM where the platform lists nothing (log 56). -/
def State.iopRead8 (s : State) (io : Bool) (a : Nat) : Byte × State :=
  if !io then s.read8 (a % 2 ^ 20)
  else if !s.plat.iopRemote then s.in8 false (BitVec.ofNat 16 a)
  else
    match findRegion .ram (a % 2 ^ 16) s.plat.remoteMap with
    | (.ram, _) => (s.remote.get (a % 2 ^ 16), s)
    | (.rom, _) => (s.remote.get (a % 2 ^ 16), s)
    | (.absent, _) => s.takeByte
    | (.device d k, off) => s.devRead d (off / 2 ^ k)

/-- M8[sp, a] written; on the VM89's own bus RAM stands where the platform lists nothing (log 56). -/
def State.iopWrite8 (s : State) (io : Bool) (a : Nat) (v : Byte) : State :=
  if !io then s.write8 (a % 2 ^ 20) v
  else if !s.plat.iopRemote then s.out8 false (BitVec.ofNat 16 a) v
  else
    match findRegion .ram (a % 2 ^ 16) s.plat.remoteMap with
    | (.ram, _) => s.remoteStore8 (a % 2 ^ 16) v
    | (.rom, _) => s
    | (.absent, _) => s
    | (.device d k, off) => s.devWrite d (off / 2 ^ k) v

/-- What stands at an address of a space. -/
def State.iopRegion (s : State) (io : Bool) (a : Nat) : RegionKind :=
  if !io then (findRegion .ram (a % 2 ^ 20) s.plat.memoryMap).1
  else if !s.plat.iopRemote then (findRegion .absent (a % 2 ^ 16) s.plat.ioMap).1
  else (findRegion .ram (a % 2 ^ 16) s.plat.remoteMap).1

/-- The bus of a space is 16 bits wide (R580). -/
def Iop.wide (p : Iop) (io : Bool) : Bool := if io then p.ioBus16 else p.sysBus16

/-- A word at an even address takes one bus cycle on a 16-bit bus (R563): where the CA decoder stands at both bytes, that
is one CA, with SEL = A0 = 0 (10_state.md R83). -/
def State.iopOneCa (s : State) (io : Bool) (a : Nat) : Bool :=
  s.iop.wide io && a % 2 == 0 && isCa (s.iopRegion io a) && isCa (s.iopRegion io (a + 1))

/-- M16[sp, a] read, the low byte first (R563, D4). -/
def State.iopRead16 (s : State) (io : Bool) (a : Nat) : Word × State :=
  let l := s.iopRead8 io a
  let h := if s.iopOneCa io a then l.2.takeByte else l.2.iopRead8 io (a + 1)
  (wordOf l.1 h.1, h.2)

/-- M16[sp, a] written, the low byte first. -/
def State.iopWrite16 (s : State) (io : Bool) (a : Nat) (v : Word) : State :=
  let t := s.iopWrite8 io a (lowByte v)
  if s.iopOneCa io a then t else t.iopWrite8 io (a + 1) (highByte v)

/-- A memory operand of a width; a byte comes sign-extended (R595, R607). -/
def State.iopReadW (s : State) (w : Width) (io : Bool) (a : Nat) : Word × State :=
  match w with
  | .byte =>
    let r := s.iopRead8 io a
    (sext r.1, r.2)
  | .word => s.iopRead16 io a

/-- Write a memory operand of a width. -/
def State.iopWriteW (s : State) (w : Width) (io : Bool) (a : Nat) (v : Word) : State :=
  match w with
  | .byte => s.iopWrite8 io a (lowByte v)
  | .word => s.iopWrite16 io a v

/-- A segment:offset pointer in system memory as a 20-bit address, the offset at the lower address (R570, D34). -/
def State.iopPointer (s : State) (io : Bool) (a : Nat) : Addr20 × State :=
  let off := s.iopRead16 io a
  let seg := off.2.iopRead16 io (a + 2)
  (BitVec.ofNat 20 (phys seg.1 off.1), seg.2)

/-! ### Registers (R591, R595) -/

/-- A register; a 16-bit one comes with zero upper bits. -/
def IopChan.reg (c : IopChan) : IReg → Addr20
  | .ga => c.ga
  | .gb => c.gb
  | .gc => c.gc
  | .bc => c.bc.zeroExtend 20
  | .tp => c.tp
  | .ix => c.ix.zeroExtend 20
  | .cc => c.cc.zeroExtend 20
  | .mc => c.mc.zeroExtend 20

/-- The low 16 bits of a register (R595). -/
def IopChan.reg16 (c : IopChan) (r : IReg) : Word := (c.reg r).truncate 16

/-- Write a register, modulo its width (R596). A write of TP is a jump; the one-byte queue is emptied
(R564). -/
def IopChan.setReg (c : IopChan) (r : IReg) (v : Addr20) : IopChan :=
  match r with
  | .ga => { c with ga := v }
  | .gb => { c with gb := v }
  | .gc => { c with gc := v }
  | .bc => { c with bc := v.truncate 16 }
  | .tp => { c with tp := v, queued := false, look := [], kept := none }
  | .ix => { c with ix := v.truncate 16 }
  | .cc => { c with cc := v.truncate 16 }
  | .mc => { c with mc := v.truncate 16 }

/-- Write the TAG bit of a pointer register; the others have none. -/
def IopChan.setTag (c : IopChan) (r : IReg) (io : Bool) : IopChan :=
  match r with
  | .ga => { c with tagGa := io }
  | .gb => { c with tagGb := io }
  | .gc => { c with tagGc := io }
  | .tp => { c with tagTp := io }
  | _ => c

/-- A pointer register as a register. -/
def ptrReg : IPtr → IReg
  | .ga => .ga
  | .gb => .gb
  | .gc => .gc
  | .tp => .tp

/-- The TAG bit of a pointer register. -/
def IopChan.tagOf (c : IopChan) : IPtr → Bool
  | .ga => c.tagGa
  | .gb => c.tagGb
  | .gc => c.tagGc
  | .tp => c.tagTp

/-- sext20. -/
def sext20 (v : Word) : Addr20 := v.signExtend 20

/-- sext20 of a byte. -/
def sext20b (v : Byte) : Addr20 := v.signExtend 20

/-- A move into a register: sign-extended, and the TAG bit of a pointer register becomes 1 (R595). -/
def IopChan.move (c : IopChan) (r : IReg) (v : Addr20) : IopChan := (c.setReg r v).setTag r true

/-- A register has bits 19-16 (R71). -/
def isPointer : IReg → Bool
  | .ga => true
  | .gb => true
  | .gc => true
  | .tp => true
  | _ => false

/-- A logic result into a register: bits 15-0 are the result, a byte result sign-extended; bits 19-16 of a pointer
register are unknown (R595, U21; log 31). -/
def State.iopLogic (s : State) (r : IReg) (v : Word) : State :=
  if isPointer r then
    let f := s.takeNat
    f.2.setCh (s.ch.setReg r (BitVec.ofNat 20 (f.1 % 16 * 65536 + v.toNat)))
  else s.setCh (s.ch.setReg r (v.zeroExtend 20))

/-! ### Effective addresses (R592) -/

/-- The base register selected by MM. -/
def IopChan.base (c : IopChan) : IBase → Addr20
  | .ga => c.ga
  | .gb => c.gb
  | .gc => c.gc
  | .pp => c.pp

/-- The space of a base register: PP addresses the system space (R561). -/
def IopChan.baseTag (c : IopChan) : IBase → Bool
  | .ga => c.tagGa
  | .gb => c.tagGb
  | .gc => c.tagGc
  | .pp => false

/-- The base register of a memory operand. -/
def memBase : IMem → IBase
  | .base b => b
  | .off b _ => b
  | .idx b => b
  | .idxInc b => b

/-- The memory operands of an instruction of the VM89. -/
def iopMems : Instr → List IMem
  | .iMovRegMem _ m | .iMovMemReg m _ | .iMovbRegMem _ m | .iMovbMemReg m _ | .iMoviMemData m _ | .iMovbiMemData m _
    | .iMovpPtrMem _ m | .iMovpMemPtr m _ | .iLpdPtrMem _ m | .iAddRegMem _ m | .iAddMemReg m _ | .iAddbRegMem _ m
    | .iAddbMemReg m _ | .iAddiMemData m _ | .iAddbiMemData m _ | .iIncMem m | .iIncbMem m | .iDecMem m
    | .iDecbMem m | .iAndRegMem _ m | .iAndMemReg m _ | .iAndbRegMem _ m | .iAndbMemReg m _ | .iAndiMemData m _
    | .iAndbiMemData m _ | .iOrRegMem _ m | .iOrMemReg m _ | .iOrbRegMem _ m | .iOrbMemReg m _ | .iOriMemData m _
    | .iOrbiMemData m _ | .iNotMem m | .iNotRegMem _ m | .iNotbMem m | .iNotbRegMem _ m | .iSetbMem m _
    | .iClrMem m _ | .iCallMem m _ | .iLcallMem m _ | .iJzMem m _ | .iLjzMem m _ | .iJzbMem m _ | .iLjzbMem m _
    | .iJnzMem m _ | .iLjnzMem m _ | .iJnzbMem m _ | .iLjnzbMem m _ | .iJmceMem m _ | .iLjmceMem m _
    | .iJmcneMem m _ | .iLjmcneMem m _ | .iJbtMem m _ _ | .iLjbtMem m _ _ | .iJnbtMem m _ _ | .iLjnbtMem m _ _
    | .iTslMemData m _ _ => [m]
  | .iMovMemMem a b | .iMovbMemMem a b => [a, b]
  | _ => []

/-- The effective address, offset and index unsigned, modulo 2^20 (R592, D36). -/
def IopChan.ea (c : IopChan) : IMem → Nat
  | .base b => (c.base b).toNat
  | .off b o => ((c.base b).toNat + o.toNat) % 2 ^ 20
  | .idx b => ((c.base b).toNat + c.ix.toNat) % 2 ^ 20
  | .idxInc b => ((c.base b).toNat + c.ix.toNat) % 2 ^ 20

/-- The space of a memory operand. -/
def IopChan.space (c : IopChan) (m : IMem) : Bool := c.baseTag (memBase m)

/-- The auto-increment after an access of `n` bytes (R592, D36). -/
def IopChan.after (c : IopChan) (m : IMem) (n : Nat) : IopChan :=
  match m with
  | .idxInc _ => { c with ix := c.ix + BitVec.ofNat 16 n }
  | _ => c

/-- The number of bytes of a width. -/
def widthBytes : Width → Nat
  | .byte => 1
  | .word => 2

/-- Read a memory operand and step IX. -/
def State.iopLoad (s : State) (w : Width) (m : IMem) : Word × State :=
  let r := s.iopReadW w (s.ch.space m) (s.ch.ea m)
  (r.1, r.2.setCh (r.2.ch.after m (widthBytes w)))

/-- Write a memory operand and step IX. -/
def State.iopStore (s : State) (w : Width) (m : IMem) (v : Word) : State :=
  let t := s.iopWriteW w (s.ch.space m) (s.ch.ea m) v
  t.setCh (t.ch.after m (widthBytes w))

/-- Read a memory operand, write a function of it back to the same place, and step IX once (R607). -/
def State.iopModify (s : State) (w : Width) (m : IMem) (g : Word → Word) : State :=
  let r := s.iopReadW w (s.ch.space m) (s.ch.ea m)
  let t := r.2.iopWriteW w (s.ch.space m) (s.ch.ea m) (g r.1)
  t.setCh (t.ch.after m (widthBytes w))

/-- jump(d): relative to the TP past the instruction; TAG.TP stays (R593). -/
def State.iopJump (s : State) (d : Addr20) : State := s.setCh (s.ch.setReg .tp (s.ch.tp + d))

/-- jump(d) on a condition. -/
def State.iopJumpIf (s : State) (b : Bool) (d : Addr20) : State := if b then s.iopJump d else s

/-- The three bytes of a pointer with its TAG bit (R604, D35). -/
def State.iopSavePtr (s : State) (io : Bool) (a : Nat) (p : Addr20) (tag : Bool) : State :=
  (s.iopWrite16 io a (p.truncate 16)).iopWrite8 io (a + 2)
    (BitVec.ofNat 8 (p.toNat / 2 ^ 16 * 16 + bitNat tag * 8))

/-- Read them back: the pointer and the TAG bit. -/
def State.iopLoadPtr (s : State) (io : Bool) (a : Nat) : (Addr20 × Bool) × State :=
  let l := s.iopRead16 io a
  let h := l.2.iopRead8 io (a + 2)
  ((BitVec.ofNat 20 (h.1.toNat / 16 * 2 ^ 16 + l.1.toNat), bit h.1 3), h.2)

/-- A byte matches the low byte of MC in the bits that its high byte selects (10_state.md R77). -/
def maskedEqual (mc : Word) (b : Byte) : Bool := ((b ^^^ lowByte mc) &&& highByte mc) == 0#8

/-- A bit of the PSW (10_state.md R80). -/
def IopChan.setPsw (c : IopChan) (i : Nat) (b : Bool) : IopChan := { c with psw := setBit c.psw i b }

/-- The address of a channel's half of the control block (R572). -/
def Iop.block (p : Iop) : ChanNo → Nat
  | .one => p.ccp.toNat
  | .two => p.ccp.toNat + 8

end Sys2Proof.Machine
end

