-- ==== Sys2Proof/Machine/IopArith.lean ====
section
/-! DEFINITION. The arithmetic instructions of the VM89 (48_vm89_iop.md, section 5). -/

namespace Sys2Proof.Machine

/-- An arithmetic result into a register: all 20 bits of a pointer register, TAG unchanged (R595, D38). -/
def iopArith (r : IReg) (v : Addr20) (s : State) : Result := .next (s.setCh (s.ch.setReg r v))

/-- ADD reg,mem (R607). -/
def execIAddRegMem (r : IReg) (m : IMem) (s : State) : Result :=
  let v := s.iopLoad .word m
  iopArith r (s.ch.reg r + sext20 v.1) v.2

/-- ADD mem,reg (R607). -/
def execIAddMemReg (m : IMem) (r : IReg) (s : State) : Result := .next (s.iopModify .word m fun v => s.ch.reg16 r + v)

/-- ADDB reg,mem (R608). -/
def execIAddbRegMem (r : IReg) (m : IMem) (s : State) : Result :=
  let v := s.iopLoad .byte m
  iopArith r (s.ch.reg r + sext20 v.1) v.2

/-- ADDB mem,reg (R608). -/
def execIAddbMemReg (m : IMem) (r : IReg) (s : State) : Result := .next (s.iopModify .byte m fun v => s.ch.reg16 r + v)

/-- ADDI reg,data16 (R609). -/
def execIAddiRegData (r : IReg) (v : Word) (s : State) : Result := iopArith r (s.ch.reg r + sext20 v) s

/-- ADDI mem16,data16 (R609). -/
def execIAddiMemData (m : IMem) (v : Word) (s : State) : Result := .next (s.iopModify .word m fun x => x + v)

/-- ADDBI reg,data8 (R610). -/
def execIAddbiRegData (r : IReg) (v : Byte) (s : State) : Result := iopArith r (s.ch.reg r + sext20b v) s

/-- ADDBI mem8,data8 (R610). -/
def execIAddbiMemData (m : IMem) (v : Byte) (s : State) : Result := .next (s.iopModify .byte m fun x => x + sext v)

/-- INC reg (R611). -/
def execIIncReg (r : IReg) (s : State) : Result := iopArith r (s.ch.reg r + 1#20) s

/-- INC mem16 (R611). -/
def execIIncMem (m : IMem) (s : State) : Result := .next (s.iopModify .word m fun x => x + 1#16)

/-- INCB mem8 (R612). -/
def execIIncbMem (m : IMem) (s : State) : Result := .next (s.iopModify .byte m fun x => x + 1#16)

/-- DEC reg (R613). -/
def execIDecReg (r : IReg) (s : State) : Result := iopArith r (s.ch.reg r - 1#20) s

/-- DEC mem16 (R613). -/
def execIDecMem (m : IMem) (s : State) : Result := .next (s.iopModify .word m fun x => x - 1#16)

/-- DECB mem8 (R614). -/
def execIDecbMem (m : IMem) (s : State) : Result := .next (s.iopModify .byte m fun x => x - 1#16)

end Sys2Proof.Machine
end

