-- ==== Sys2Proof/Machine/IopControl.lean ====
section
/-! DEFINITION. The processor control instructions of the VM89 (48_vm89_iop.md, section 8). -/

namespace Sys2Proof.Machine

/-- TSL mem8,data8,label (R647, D43): one indivisible read and write; the polarity is the parameter TSL_JUMP_WHEN_ZERO.
-/
def execITslMemData (m : IMem) (v : Byte) (rel : Byte) (s : State) : Result :=
  let io := s.ch.space m
  let a := s.ch.ea m
  let b := s.iopRead8 io a
  if (b.1 == 0#8) == s.plat.tslJumpWhenZero then .next ((b.2.setCh (b.2.ch.after m 1)).iopJump (sext20b rel))
  else
    let t := b.2.iopWrite8 io a v
    .next (t.setCh (t.ch.after m 1))

/-- WID src,dst (R648); a transfer may follow from now on (U22). -/
def execIWid (src16 : Bool) (dst16 : Bool) (s : State) : Result :=
  .next (s.setCh { (s.ch.setPsw 1 src16).setPsw 0 dst16 with widDone := true })

/-- XFER (R649): the transfer starts after one more instruction. -/
def execIXfer (s : State) : Result := .next (s.setCh { s.ch with armed := true })

/-- SINTR (R650). -/
def execISintr (s : State) : Result := .next (s.setCh (s.ch.setPsw 4 true))

/-- HLT of the VM89 (R651): BUSY of the channel becomes 00h and the channel idle. -/
def execIHlt (s : State) : Result :=
  let t := s.iopWrite8 false (s.iop.block s.iop.cur + 1) 0#8
  .next (t.setCh { t.ch.setPsw 2 false with activity := .idle })

/-- NOP of the VM89 (R652). -/
def execINop (s : State) : Result := .next s

end Sys2Proof.Machine
end

