-- ==== Sys2Proof/Machine/IopJump.lean ====
section
/-! DEFINITION. The control transfer instructions of the VM89 (48_vm89_iop.md, section 7). -/

namespace Sys2Proof.Machine

/-- CALL mem24,label (R627): TP and its TAG bit are saved in the MOVP format. -/
def execICallMem (m : IMem) (rel : Byte) (s : State) : Result :=
  let t := s.iopSavePtr (s.ch.space m) (s.ch.ea m) s.ch.tp s.ch.tagTp
  .next ((t.setCh (t.ch.after m 3)).iopJump (sext20b rel))

/-- LCALL mem24,label (R628): TP and its TAG bit are saved in the MOVP format. -/
def execILcallMem (m : IMem) (rel : Word) (s : State) : Result :=
  let t := s.iopSavePtr (s.ch.space m) (s.ch.ea m) s.ch.tp s.ch.tagTp
  .next ((t.setCh (t.ch.after m 3)).iopJump (sext20 rel))

/-- JMP label (R629). -/
def execIJmp (rel : Byte) (s : State) : Result := .next (s.iopJump (sext20b rel))

/-- LJMP label (R630). -/
def execILjmp (rel : Word) (s : State) : Result := .next (s.iopJump (sext20 rel))

/-- JZ reg,label (R631). -/
def execIJzReg (r : IReg) (rel : Byte) (s : State) : Result := .next (s.iopJumpIf (s.ch.reg16 r == 0#16) (sext20b rel))

/-- JZ mem,label (R631). -/
def execIJzMem (m : IMem) (rel : Byte) (s : State) : Result :=
  let v := s.iopLoad .word m
  .next (v.2.iopJumpIf (v.1 == 0#16) (sext20b rel))

/-- LJZ reg,label (R632). -/
def execILjzReg (r : IReg) (rel : Word) (s : State) : Result := .next (s.iopJumpIf (s.ch.reg16 r == 0#16) (sext20 rel))

/-- LJZ mem,label (R632). -/
def execILjzMem (m : IMem) (rel : Word) (s : State) : Result :=
  let v := s.iopLoad .word m
  .next (v.2.iopJumpIf (v.1 == 0#16) (sext20 rel))

/-- JZB mem,label (R633). -/
def execIJzbMem (m : IMem) (rel : Byte) (s : State) : Result :=
  let v := s.iopLoad .byte m
  .next (v.2.iopJumpIf (v.1 == 0#16) (sext20b rel))

/-- LJZB mem,label (R634). -/
def execILjzbMem (m : IMem) (rel : Word) (s : State) : Result :=
  let v := s.iopLoad .byte m
  .next (v.2.iopJumpIf (v.1 == 0#16) (sext20 rel))

/-- JNZ reg,label (R635). -/
def execIJnzReg (r : IReg) (rel : Byte) (s : State) : Result := .next (s.iopJumpIf (s.ch.reg16 r != 0#16) (sext20b rel))

/-- JNZ mem,label (R635). -/
def execIJnzMem (m : IMem) (rel : Byte) (s : State) : Result :=
  let v := s.iopLoad .word m
  .next (v.2.iopJumpIf (v.1 != 0#16) (sext20b rel))

/-- LJNZ reg,label (R636). -/
def execILjnzReg (r : IReg) (rel : Word) (s : State) : Result := .next (s.iopJumpIf (s.ch.reg16 r != 0#16) (sext20 rel))

/-- LJNZ mem,label (R636). -/
def execILjnzMem (m : IMem) (rel : Word) (s : State) : Result :=
  let v := s.iopLoad .word m
  .next (v.2.iopJumpIf (v.1 != 0#16) (sext20 rel))

/-- JNZB mem,label (R637). -/
def execIJnzbMem (m : IMem) (rel : Byte) (s : State) : Result :=
  let v := s.iopLoad .byte m
  .next (v.2.iopJumpIf (v.1 != 0#16) (sext20b rel))

/-- LJNZB mem,label (R638). -/
def execILjnzbMem (m : IMem) (rel : Word) (s : State) : Result :=
  let v := s.iopLoad .byte m
  .next (v.2.iopJumpIf (v.1 != 0#16) (sext20 rel))

/-- JMCE mem,label (R639). -/
def execIJmceMem (m : IMem) (rel : Byte) (s : State) : Result :=
  let v := s.iopLoad .byte m
  .next (v.2.iopJumpIf (maskedEqual s.ch.mc (lowByte v.1)) (sext20b rel))

/-- LJMCE mem,label (R640). -/
def execILjmceMem (m : IMem) (rel : Word) (s : State) : Result :=
  let v := s.iopLoad .byte m
  .next (v.2.iopJumpIf (maskedEqual s.ch.mc (lowByte v.1)) (sext20 rel))

/-- JMCNE mem,label (R641). -/
def execIJmcneMem (m : IMem) (rel : Byte) (s : State) : Result :=
  let v := s.iopLoad .byte m
  .next (v.2.iopJumpIf (!maskedEqual s.ch.mc (lowByte v.1)) (sext20b rel))

/-- LJMCNE mem,label (R642). -/
def execILjmcneMem (m : IMem) (rel : Word) (s : State) : Result :=
  let v := s.iopLoad .byte m
  .next (v.2.iopJumpIf (!maskedEqual s.ch.mc (lowByte v.1)) (sext20 rel))

/-- JBT mem,label (R643). -/
def execIJbtMem (m : IMem) (b : BitVec 3) (rel : Byte) (s : State) : Result :=
  let v := s.iopLoad .byte m
  .next (v.2.iopJumpIf (bit (lowByte v.1) b.toNat) (sext20b rel))

/-- LJBT mem,label (R644). -/
def execILjbtMem (m : IMem) (b : BitVec 3) (rel : Word) (s : State) : Result :=
  let v := s.iopLoad .byte m
  .next (v.2.iopJumpIf (bit (lowByte v.1) b.toNat) (sext20 rel))

/-- JNBT mem,label (R645). -/
def execIJnbtMem (m : IMem) (b : BitVec 3) (rel : Byte) (s : State) : Result :=
  let v := s.iopLoad .byte m
  .next (v.2.iopJumpIf (!bit (lowByte v.1) b.toNat) (sext20b rel))

/-- LJNBT mem,label (R646). -/
def execILjnbtMem (m : IMem) (b : BitVec 3) (rel : Word) (s : State) : Result :=
  let v := s.iopLoad .byte m
  .next (v.2.iopJumpIf (!bit (lowByte v.1) b.toNat) (sext20 rel))

end Sys2Proof.Machine
end

