-- ==== Sys2Proof/Machine/IopLogic.lean ====
section
/-! DEFINITION. The logic and bit instructions of the VM89 (48_vm89_iop.md, section 6). -/

namespace Sys2Proof.Machine

/-- A byte result as R595 fills a register: the high byte is its sign. -/
def fill (w : Width) (v : Word) : Word :=
  match w with
  | .byte => sext (lowByte v)
  | .word => v

/-- AND reg,mem (R615). -/
def execIAndRegMem (r : IReg) (m : IMem) (s : State) : Result :=
  let v := s.iopLoad .word m
  .next (v.2.iopLogic r (fill .word (s.ch.reg16 r &&& v.1)))

/-- AND mem,reg (R615). -/
def execIAndMemReg (m : IMem) (r : IReg) (s : State) : Result := .next (s.iopModify .word m fun x => s.ch.reg16 r &&& x)

/-- ANDB reg,mem (R616). -/
def execIAndbRegMem (r : IReg) (m : IMem) (s : State) : Result :=
  let v := s.iopLoad .byte m
  .next (v.2.iopLogic r (fill .byte (s.ch.reg16 r &&& v.1)))

/-- ANDB mem,reg (R616). -/
def execIAndbMemReg (m : IMem) (r : IReg) (s : State) : Result := .next (s.iopModify .byte m fun x => s.ch.reg16 r &&& x)

/-- ANDI reg,data16 (R617). -/
def execIAndiRegData (r : IReg) (v : Word) (s : State) : Result := .next (s.iopLogic r (s.ch.reg16 r &&& v))

/-- ANDI mem16,data16 (R617). -/
def execIAndiMemData (m : IMem) (v : Word) (s : State) : Result := .next (s.iopModify .word m fun x => x &&& v)

/-- ANDBI reg,data8 (R618). -/
def execIAndbiRegData (r : IReg) (v : Byte) (s : State) : Result := .next (s.iopLogic r (fill .byte (s.ch.reg16 r &&& zext v)))

/-- ANDBI mem8,data8 (R618). -/
def execIAndbiMemData (m : IMem) (v : Byte) (s : State) : Result := .next (s.iopModify .byte m fun x => x &&& zext v)

/-- OR reg,mem (R619). -/
def execIOrRegMem (r : IReg) (m : IMem) (s : State) : Result :=
  let v := s.iopLoad .word m
  .next (v.2.iopLogic r (fill .word (s.ch.reg16 r ||| v.1)))

/-- OR mem,reg (R619). -/
def execIOrMemReg (m : IMem) (r : IReg) (s : State) : Result := .next (s.iopModify .word m fun x => s.ch.reg16 r ||| x)

/-- ORB reg,mem (R620). -/
def execIOrbRegMem (r : IReg) (m : IMem) (s : State) : Result :=
  let v := s.iopLoad .byte m
  .next (v.2.iopLogic r (fill .byte (s.ch.reg16 r ||| v.1)))

/-- ORB mem,reg (R620). -/
def execIOrbMemReg (m : IMem) (r : IReg) (s : State) : Result := .next (s.iopModify .byte m fun x => s.ch.reg16 r ||| x)

/-- ORI reg,data16 (R621). -/
def execIOriRegData (r : IReg) (v : Word) (s : State) : Result := .next (s.iopLogic r (s.ch.reg16 r ||| v))

/-- ORI mem16,data16 (R621). -/
def execIOriMemData (m : IMem) (v : Word) (s : State) : Result := .next (s.iopModify .word m fun x => x ||| v)

/-- ORBI reg,data8 (R622). -/
def execIOrbiRegData (r : IReg) (v : Byte) (s : State) : Result := .next (s.iopLogic r (fill .byte (s.ch.reg16 r ||| zext v)))

/-- ORBI mem8,data8 (R622). -/
def execIOrbiMemData (m : IMem) (v : Byte) (s : State) : Result := .next (s.iopModify .byte m fun x => x ||| zext v)

/-- NOT reg (R623). -/
def execINotReg (r : IReg) (s : State) : Result := .next (s.iopLogic r (~~~s.ch.reg16 r))

/-- NOT mem16 (R623). -/
def execINotMem (m : IMem) (s : State) : Result := .next (s.iopModify .word m fun x => ~~~x)

/-- NOT reg,mem16 (R623). -/
def execINotRegMem (r : IReg) (m : IMem) (s : State) : Result :=
  let v := s.iopLoad .word m
  .next (v.2.iopLogic r (~~~v.1))

/-- NOTB mem8 (R624). -/
def execINotbMem (m : IMem) (s : State) : Result := .next (s.iopModify .byte m fun x => ~~~x)

/-- NOTB reg,mem8 (R624). -/
def execINotbRegMem (r : IReg) (m : IMem) (s : State) : Result :=
  let v := s.iopLoad .byte m
  .next (v.2.iopLogic r (fill .byte (~~~v.1)))

/-- SETB mem8,bit (R625). -/
def execISetbMem (m : IMem) (b : BitVec 3) (s : State) : Result := .next (s.iopModify .byte m fun x => setBit x b.toNat true)

/-- CLR mem8,bit (R626). -/
def execIClrMem (m : IMem) (b : BitVec 3) (s : State) : Result := .next (s.iopModify .byte m fun x => setBit x b.toNat false)

end Sys2Proof.Machine
end

