-- ==== Sys2Proof/Machine/IopTransfer.lean ====
section
/-! DEFINITION. The data transfer instructions of the VM89 (48_vm89_iop.md, section 4). -/

namespace Sys2Proof.Machine

/-- MOV reg,mem16 (R600): sign-extended; the TAG bit of a pointer register becomes 1. -/
def execIMovRegMem (r : IReg) (m : IMem) (s : State) : Result :=
  let v := s.iopLoad .word m
  .next (v.2.setCh (v.2.ch.move r (sext20 v.1)))

/-- MOV mem16,reg (R600). -/
def execIMovMemReg (m : IMem) (r : IReg) (s : State) : Result := .next (s.iopStore .word m (s.ch.reg16 r))

/-- MOV mem16,mem16 (R600): the source half, then the destination half. -/
def execIMovMemMem (src : IMem) (dst : IMem) (s : State) : Result :=
  let v := s.iopLoad .word src
  .next (v.2.iopStore .word dst v.1)

/-- MOVB reg,mem8 (R601): sign-extended; the TAG bit of a pointer register becomes 1. -/
def execIMovbRegMem (r : IReg) (m : IMem) (s : State) : Result :=
  let v := s.iopLoad .byte m
  .next (v.2.setCh (v.2.ch.move r (sext20 v.1)))

/-- MOVB mem8,reg (R601). -/
def execIMovbMemReg (m : IMem) (r : IReg) (s : State) : Result := .next (s.iopStore .byte m (s.ch.reg16 r))

/-- MOVB mem8,mem8 (R601): the source half, then the destination half. -/
def execIMovbMemMem (src : IMem) (dst : IMem) (s : State) : Result :=
  let v := s.iopLoad .byte src
  .next (v.2.iopStore .byte dst v.1)

/-- MOVI reg,data16 (R602). -/
def execIMoviRegData (r : IReg) (v : Word) (s : State) : Result := .next (s.setCh (s.ch.move r (sext20 v)))

/-- MOVI mem16,data16 (R602). -/
def execIMoviMemData (m : IMem) (v : Word) (s : State) : Result := .next (s.iopStore .word m v)

/-- MOVBI reg,data8 (R603). -/
def execIMovbiRegData (r : IReg) (v : Byte) (s : State) : Result := .next (s.setCh (s.ch.move r (sext20b v)))

/-- MOVBI mem8,data8 (R603). -/
def execIMovbiMemData (m : IMem) (v : Byte) (s : State) : Result := .next (s.iopStore .byte m (zext v))

/-- MOVP ptr,mem24 (R604): the pointer with its TAG bit. -/
def execIMovpPtrMem (p : IPtr) (m : IMem) (s : State) : Result :=
  let v := s.iopLoadPtr (s.ch.space m) (s.ch.ea m)
  .next (v.2.setCh (((v.2.ch.after m 3).setReg (ptrReg p) v.1.1).setTag (ptrReg p) v.1.2))

/-- MOVP mem24,ptr (R604). -/
def execIMovpMemPtr (m : IMem) (p : IPtr) (s : State) : Result :=
  let t := s.iopSavePtr (s.ch.space m) (s.ch.ea m) (s.ch.reg (ptrReg p)) (s.ch.tagOf p)
  .next (t.setCh (t.ch.after m 3))

/-- LPD ptr,mem32 (R605): TAG becomes 0. -/
def execILpdPtrMem (p : IPtr) (m : IMem) (s : State) : Result :=
  let v := s.iopPointer (s.ch.space m) (s.ch.ea m)
  .next (v.2.setCh (((v.2.ch.after m 4).setReg (ptrReg p) v.1).setTag (ptrReg p) false))

/-- LPDI ptr,data32 (R606). -/
def execILpdiPtr (p : IPtr) (off : Word) (seg : Word) (s : State) : Result :=   .next (s.setCh ((s.ch.setReg (ptrReg p) (BitVec.ofNat 20 (phys seg off))).setTag (ptrReg p) false))

end Sys2Proof.Machine
end

