-- ==== Sys2Proof/Machine/Logic.lean ====
section
/-! DEFINITION. The logic, shift and rotate instructions of the VM86 (42_logic_shift.md). -/

namespace Sys2Proof.Machine

/-- AND, register and r/m (R271). -/
def execAndRmR (d : Dir) (w : Width) (r : GReg) (rm : RM) (s : State) : Result := aluRmReg .and d w r rm s

/-- AND r/m,imm (R271). -/
def execAndRmImm (rm : RM) (v : Imm) (s : State) : Result := aluToRm .and (immWidth v) rm (immValue v) s

/-- AND ac,imm (R271). -/
def execAndAccImm (v : Imm) (s : State) : Result := aluToRm .and (immWidth v) (.reg .ax) (immValue v) s

/-- OR, register and r/m (R272). -/
def execOrRmR (d : Dir) (w : Width) (r : GReg) (rm : RM) (s : State) : Result := aluRmReg .or d w r rm s

/-- OR r/m,imm (R272). -/
def execOrRmImm (rm : RM) (v : Imm) (s : State) : Result := aluToRm .or (immWidth v) rm (immValue v) s

/-- OR ac,imm (R272). -/
def execOrAccImm (v : Imm) (s : State) : Result := aluToRm .or (immWidth v) (.reg .ax) (immValue v) s

/-- XOR, register and r/m (R273). -/
def execXorRmR (d : Dir) (w : Width) (r : GReg) (rm : RM) (s : State) : Result := aluRmReg .xor d w r rm s

/-- XOR r/m,imm (R273). -/
def execXorRmImm (rm : RM) (v : Imm) (s : State) : Result := aluToRm .xor (immWidth v) rm (immValue v) s

/-- XOR ac,imm (R273). -/
def execXorAccImm (v : Imm) (s : State) : Result := aluToRm .xor (immWidth v) (.reg .ax) (immValue v) s

/-- TEST r/m,r (R274). -/
def execTestRmR (w : Width) (r : GReg) (rm : RM) (s : State) : Result := aluToRm .test w rm (s.reg w r) s

/-- TEST r/m,imm (R274). -/
def execTestRmImm (rm : RM) (v : Imm) (s : State) : Result := aluToRm .test (immWidth v) rm (immValue v) s

/-- TEST ac,imm (R274). -/
def execTestAccImm (v : Imm) (s : State) : Result := aluToRm .test (immWidth v) (.reg .ax) (immValue v) s

/-- NOT r/m (R275): no flags. -/
def execNotRm (w : Width) (rm : RM) (s : State) : Result :=
  let a := s.readRm w rm
  .next (a.2.writeRm s.cpu w rm (trunc w (~~~ a.1).toNat))

/-! ### Shifts and rotates (R276-R285) -/

/-- The number of positions (R277): 1, or the whole of CL. -/
def State.shiftCount (s : State) : ShiftCount → Nat
  | .one => 1
  | .cl => (s.cpu.reg8 .cx).toNat

/-- The common form: with a count of 0 the operand is rewritten and no flag changes (R277, D12). -/
def shiftOp (k : ShiftKind) (c : ShiftCount) (w : Width) (rm : RM) (s : State) : Result :=
  let a := s.readRm w rm
  let n := s.shiftCount c
  let r := shiftN k w n (a.1, s.cpu.f.cf)
  if n = 0 then .next (a.2.writeRm s.cpu w rm a.1)
  else
    let u := a.2.takeWord
    .next ((u.2.setFlags (s.cpu.f.shift k c w a.1 r u.1)).writeRm s.cpu w rm r.1)

/-- ROL (R282). -/
def execRolRm (c : ShiftCount) (w : Width) (rm : RM) (s : State) : Result := shiftOp .rol c w rm s

/-- ROR (R283). -/
def execRorRm (c : ShiftCount) (w : Width) (rm : RM) (s : State) : Result := shiftOp .ror c w rm s

/-- RCL (R284). -/
def execRclRm (c : ShiftCount) (w : Width) (rm : RM) (s : State) : Result := shiftOp .rcl c w rm s

/-- RCR (R285). -/
def execRcrRm (c : ShiftCount) (w : Width) (rm : RM) (s : State) : Result := shiftOp .rcr c w rm s

/-- SHL (R279). -/
def execShlRm (c : ShiftCount) (w : Width) (rm : RM) (s : State) : Result := shiftOp .shl c w rm s

/-- SHR (R280). -/
def execShrRm (c : ShiftCount) (w : Width) (rm : RM) (s : State) : Result := shiftOp .shr c w rm s

/-- SAR (R281). -/
def execSarRm (c : ShiftCount) (w : Width) (rm : RM) (s : State) : Result := shiftOp .sar c w rm s

end Sys2Proof.Machine
end

