-- ==== Sys2Proof/Machine/Boundary.lean ====
section
/-! DEFINITION. How the CPU fetches (20_memory.md R130, R131) and what it does between two instructions
(60_exceptions.md R805-R811): the request lines and the boundary procedure. -/

namespace Sys2Proof.Machine

/-! ### Fetching -/

/-- The byte of a device that the queue holds (R130). -/
def Cpu.held (c : Cpu) (a : Nat) : Option Host.Cell := c.ahead.find? fun e => e.1 == a

/-- The queue holds one more byte of a device. -/
def Cpu.hold (c : Cpu) (a : Nat) (b : Byte) : Cpu := { c with ahead := c.ahead ++ [(a, b)] }

/-- The byte at an address belongs to a device, and the queue has not taken it. -/
def State.unread (s : State) (a : Nat) : Bool := isDevice (findRegion .ram a s.plat.memoryMap).1 && (s.cpu.held a).isNone

/-- A bus cycle brings the byte at an address. A device is read then, with the effect of a read (R113), and the byte
held, so that it is not read again (R130). -/
def State.takeAhead (s : State) (a : Nat) : State :=
  match findRegion .ram a s.plat.memoryMap, s.cpu.held a with
  | (.device d k, off), none =>
    let b := s.devRead d (off / 2 ^ k)
    { b.2 with cpu := b.2.cpu.hold a b.1 }
  | _, _ => s

/-- The byte at `a` comes in a bus cycle with the one above it: the VM86 fetches a word at an even address, and the byte
at an odd one alone after a transfer of control to it; the VM88 fetches bytes (R112, R130). -/
def State.fetchesWord (s : State) (a : Nat) : Bool := !s.plat.vm88 && a % 2 == 0

/-- The bus cycle that brings the byte at `a` brings the one above it, if it fetches a word; with it the CA decoder at
both gives one CA (10_state.md R83). -/
def State.takeAbove (s : State) (a : Nat) : State :=
  if !s.fetchesWord a then s
  else if s.oneCa .ram s.plat.memoryMap a (a + 1) && s.unread (a + 1) then
    let f := s.takeByte
    { f.2 with cpu := f.2.cpu.hold (a + 1) f.1 }
  else s.takeAhead (a + 1)

/-- The byte at a physical address, as its bus cycle gives it now. One that a store has changed since it may have been
queued is any of the values it had (R131; log 7). -/
def State.codeByte (s : State) (a : Nat) : Byte × State :=
  match findRegion .ram a s.plat.memoryMap with
  | (.ram, _) => s.queuedByte (s.mem.get a) ((s.cpu.stale.filter fun e => e.1 == a).map fun e => e.2)
  | (.rom, _) => (s.mem.get a, s)
  | (.absent, _) => s.takeByte
  | (.device d k, off) => s.devRead d (off / 2 ^ k)

/-- The byte an instruction fetch finds at a physical address: the one that the queue holds, or that of a bus cycle, with
which the other byte of a word comes into the queue (R112, R130). -/
def State.fetchByte (s : State) (a : Nat) : Byte × State :=
  match s.cpu.held a with
  | some e => (e.2, s)
  | none => ((s.codeByte a).1, (s.codeByte a).2.takeAbove a)

/-- `n` bytes of code from an offset, each with the state after it has been fetched. -/
def State.fetchBytes (s : State) (off : Word) : Nat → List (Byte × State)
  | 0 => []
  | n + 1 =>
    let b := s.fetchByte (phys s.cpu.cs off)
    b :: b.2.fetchBytes (off + 1#16) n

/-- The queue goes on from an offset, at most `n` bytes (R113, R130, 70_reset_and_hazards.md R870), in bus cycles of a
word, for which two bytes must be free, or of a byte. How far it comes is free, which shows at devices alone: they are
read in order, each byte once (log 6). -/
def State.prefetch (s : State) (off : Word) : Nat → State
  | 0 => s
  | n + 1 =>
    let a := phys s.cpu.cs off
    let word := s.fetchesWord a
    if (word && n == 0) || !(s.unread a || (word && s.unread (a + 1))) then s.prefetch (off + 1#16) n
    else if s.takeBit.1 then ((s.bump.takeAhead a).takeAbove a).prefetch (off + 1#16) n
    else s.bump

/-- The longest instruction of the VM86, leading bytes not counted (30_encoding.md R150). -/
def maxLength : Nat := 6

/-- The instruction at CS:IP, its length and the state after its bytes have been fetched. -/
noncomputable def State.fetch86 (s : State) : Except DecodeError (Instr × Nat × State) :=
  let code := s.fetchBytes s.cpu.ip maxLength
  match decode86 (code.map fun b => b.1) with
  | .ok (i, r) =>
    let n := maxLength - r.length
    .ok (i, n, (code.getD (n - 1) (0#8, s)).2)
  | .error e => .error e

/-- The queue without the `n` bytes of the instruction at CS:IP (R130). -/
def Cpu.dequeue (c : Cpu) (n : Nat) : Cpu := { c with ahead := c.ahead.filter fun e => !inQueue c.cs c.ip e.1 n }

/-- The state in which an instruction of `n` bytes runs: IP is IP_next, TF has been sampled (R805), and the queue may
have gone on. -/
def State.begun (s : State) (n : Nat) : State :=
  let s := ({ s with cpu := s.cpu.dequeue n }).prefetch (s.cpu.ip + BitVec.ofNat 16 n) s.queueLen
  { s with cpu := { s.cpu with ip := s.cpu.ip + BitVec.ofNat 16 n, instrAddr := s.cpu.ip,
                               stepPending := s.cpu.f.tf, phase := .complete } }

/-- The state in which an instruction that is still in progress goes on. -/
def State.again (s : State) : State :=
  { s with cpu := { s.cpu with stepPending := s.cpu.f.tf, phase := .complete } }

/-! ### Requests -/

/-- The level of a device output (60_exceptions.md R830, R831, R836). The pulse of EOP, a pin active at 0
(49_platform_devices.md R731), counts as level 1 at NMI, INTR and TEST, as with an inverter in the wiring, which R836
leaves open: DESIGN CHOICE (log 50). -/
def State.line (s : State) : IntLine → Bool
  | .vm87 => s.plat.hasVm87 && s.fpu.int
  | .sintr1 => bit s.iop.ch1.psw 4 && bit s.iop.ch1.psw 3
  | .sintr2 => bit s.iop.ch2.psw 4 && bit s.iop.ch2.psw 3
  | .timer0 => s.vi54.c0.out
  | .timer1 => s.vi54.c1.out
  | .timer2 => s.vi54.c2.out
  | .fdc => s.vg72.int
  | .ruIntrA => s.ru55.a.intr
  | .ruIntrB => s.ru55.b.intr
  | .ruTimer => s.ru55.out
  | .eop u => (s.dmac u).eop

/-- The type byte the interrupt controller offers: the environment's request, else the first wired line that is active
(60_exceptions.md R808, 49_platform_devices.md R789). -/
def State.intr (s : State) : Option Byte :=
  match s.env.intr with
  | some n => some n
  | none =>
    match s.plat.wires.find? (fun w => s.line w.1) with
    | some w => some w.2
    | none => none

/-- Two INTA cycles (R806): the environment's request is taken back. -/
def State.acknowledge (s : State) : State := { s with env := { s.env with intr := none } }

/-- A request that the boundary would take. -/
def State.requested (s : State) : Bool := s.cpu.nmiPending || (s.cpu.f.ifl && s.intr.isSome)

/-- The NMI entry of the boundary procedure. -/
def State.takeNmi (s : State) : State :=
  if s.cpu.nmiPending then ({ s with cpu := { s.cpu with nmiPending := false } }).interrupt 2#8 else s

/-- The INTR entry. -/
def State.takeIntr (s : State) : State :=
  match s.intr with
  | some n => if s.cpu.f.ifl then s.acknowledge.interrupt n else s
  | none => s

/-- The single-step entry. -/
def State.takeStep (s : State) : State :=
  if s.cpu.stepPending then ({ s with cpu := { s.cpu with stepPending := false } }).interrupt 1#8 else s

/-- The entries of one boundary, in the order of R811. -/
def State.takeAll (s : State) : State := s.takeNmi.takeIntr.takeStep

/-- Continue at an offset when the boundary takes a request: the instruction in progress is left (R814). -/
def State.leave (s : State) (ip : Word) : State :=
  { s with cpu := { s.cpu with ip := ip, phase := .complete, lead := Leading.none, shadow := false } }

/-- The boundary procedure (R811) after a step of the CPU: none after a leading byte (R809); between two elements and
inside WAIT the return address is that of R814. After MOV sr or POP sr nothing is recognised at their own boundary (R41,
R805, R809, R811); between the elements of a repeated string instruction and inside a WAIT that come next requests and
the single step are taken as always (R310, R809, D10, D18; log 55).
A HLT begun with TF = 1 has its trap here (R805, R812), which ends the halt at once, DESIGN CHOICE (log 51): R370 and D9
name only RESET, NMI and INTR as what ends a halt. -/
def State.boundary (s : State) : State :=
  match s.cpu.phase with
  | .leading => s
  | .complete =>
    let t := { s with cpu := { s.cpu with lead := Leading.none, shadow := s.cpu.inhibit } }
    if t.cpu.inhibit then { t with cpu := { t.cpu with inhibit := false, stepPending := false } } else t.takeAll
  | .element _ =>
    if s.requested || s.cpu.stepPending then (s.leave s.cpu.lead.last).takeAll else s
  | .testing =>
    if s.requested || s.cpu.stepPending then (s.leave (s.cpu.lead.first.getD s.cpu.instrAddr)).takeAll else s

/-- The CPU has had the bus: the outputs of the last grants to the VT37s are over (log 50), and the next byte of single
mode may come (49_platform_devices.md R742). -/
def State.endGrant (s : State) : State :=
  { s with vt37 := s.vt37.endGrant, cascaded := s.cascaded.map Vt37.endGrant }

/-- A halted CPU looks at the requests all the time (R809, D9). -/
def State.haltedStep (s : State) : State := if s.requested then s.takeAll else s

/-- A positive edge on the NMI input from a device line (R807). It is seen after the step in which the line rises, the
CPU's boundary included, and so taken at the next boundary (log 50). -/
def State.watchNmi (old new : State) : State :=
  match new.plat.nmiWire with
  | some l => if new.line l && !old.line l then { new with cpu := { new.cpu with nmiPending := true } } else new
  | none => new

/-- Go on from a next state; a fault or a refusal stays. -/
def onNext (r : Result) (f : State → State) : Result :=
  match r with
  | .next s => .next (f s)
  | .fault e => .fault e
  | .refused e => .refused e

end Sys2Proof.Machine
end

