-- ==== Sys2Proof/Machine/Processor.lean ====
section
/-! DEFINITION. The flag instructions, HLT and WAIT of the VM86 (45_processor_control.md). -/

namespace Sys2Proof.Machine

/-- CLC (R361). -/
def execClc (s : State) : Result := .next (s.setFlags { s.cpu.f with cf := false })

/-- STC (R362). -/
def execStc (s : State) : Result := .next (s.setFlags { s.cpu.f with cf := true })

/-- CMC (R363). -/
def execCmc (s : State) : Result := .next (s.setFlags { s.cpu.f with cf := !s.cpu.f.cf })

/-- CLD (R364). -/
def execCld (s : State) : Result := .next (s.setFlags { s.cpu.f with df := false })

/-- STD (R365). -/
def execStd (s : State) : Result := .next (s.setFlags { s.cpu.f with df := true })

/-- CLI (R366). -/
def execCli (s : State) : Result := .next (s.setFlags { s.cpu.f with ifl := false })

/-- STI (R367): no delay (D19). -/
def execSti (s : State) : Result := .next (s.setFlags { s.cpu.f with ifl := true })

/-- HLT (R370): what ends the halt is in `State.boundary`, the trap of a HLT begun with TF = 1 among it (log 51). -/
def execHlt (s : State) : Result := .next { s with cpu := { s.cpu with halted := true } }

/-- The TEST input (00_scope.md R7): BUSY of the VM87 when one is attached, which is SR.B, 1 while it executes an instruction
and while an unmasked exception holds it (10_state.md R53, R59), else the device output wired to it (49_platform_devices.md
R795), or the environment's level. -/
def State.testLevel (s : State) : Bool :=
  if s.plat.hasVm87 then bit s.fpuStatus 15
  else
    match s.plat.testWire with
    | some l => s.line l
    | none => s.env.test

/-- WAIT (R371): one TEST cycle; with TEST = 1 the processor stays in the instruction. -/
def execWait (s : State) : Result :=
  if s.testLevel then .next { s with cpu := { s.cpu with phase := .testing } } else .next s

end Sys2Proof.Machine
end

