-- ==== Sys2Proof/Machine/Strings.lean ====
section
/-! DEFINITION. The string instructions of the VM86 and their repetition (43_string.md). One step processes one element. -/

namespace Sys2Proof.Machine

/-- The change of SI and DI after an element (43_string.md, preamble; R301). -/
def State.delta (s : State) (w : Width) : Word :=
  match s.cpu.f.df, w with
  | false, .byte => 1#16
  | false, .word => 2#16
  | true, .byte => 0xFFFF#16
  | true, .word => 0xFFFE#16

/-- Step SI. -/
def State.stepSi (s : State) (w : Width) : State := { s with cpu := { s.cpu with si := s.cpu.si + s.delta w } }

/-- Step DI. -/
def State.stepDi (s : State) (w : Width) : State := { s with cpu := { s.cpu with di := s.cpu.di + s.delta w } }

/-- Read the source element at SI, in DS or the override segment (R301). -/
def State.source (s : State) (w : Width) : Word × State := s.readMem w (s.cpu.segFor .ds) s.cpu.si

/-- Read the destination element at ES:DI; no override applies (R301). -/
def State.dest (s : State) (w : Width) : Word × State := s.readMem w s.cpu.es s.cpu.di

/-- One element of MOVS (R302). -/
def movsElem (w : Width) (s : State) : State :=
  let v := s.source w
  ((v.2.writeMem w s.cpu.es s.cpu.di v.1).stepSi w).stepDi w

/-- One element of CMPS (R303): the element at SI is the left operand and is read first. -/
def cmpsElem (w : Width) (s : State) : State :=
  let a := s.source w
  let b := a.2.dest w
  ((b.2.setFlags (s.cpu.f.sub w a.1 b.1 false)).stepSi w).stepDi w

/-- One element of SCAS (R304). -/
def scasElem (w : Width) (s : State) : State :=
  let b := s.dest w
  (b.2.setFlags (s.cpu.f.sub w (s.acc w) b.1 false)).stepDi w

/-- One element of LODS (R305). -/
def lodsElem (w : Width) (s : State) : State :=
  let v := s.source w
  (v.2.setAcc w v.1).stepSi w

/-- One element of STOS (R306). -/
def stosElem (w : Width) (s : State) : State :=
  (s.writeMem w s.cpu.es s.cpu.di (s.acc w)).stepDi w

/-- One turn of the repetition loop (R308, R309): without a repeat byte one element; with CX = 0 none; else one
element, after which the instruction `i` either ends or stands between two elements. -/
def repeated (i : Instr) (compares : Bool) (elem : State → State) (s : State) : Result :=
  match s.cpu.lead.rep with
  | none => .next (elem s)
  | some z =>
    if s.cpu.cx = 0#16 then .next s
    else
      let t := elem s
      let t := { t with cpu := { t.cpu with cx := t.cpu.cx - 1#16 } }
      if t.cpu.cx = 0#16 ∨ (compares = true ∧ t.cpu.f.zf ≠ z) then .next t
      else .next { t with cpu := { t.cpu with phase := .element i } }

/-- MOVS (R302, R308). -/
def execMovs (w : Width) (s : State) : Result := repeated (.movs w) false (movsElem w) s

/-- CMPS (R303, R309). -/
def execCmps (w : Width) (s : State) : Result := repeated (.cmps w) true (cmpsElem w) s

/-- SCAS (R304, R309). -/
def execScas (w : Width) (s : State) : Result := repeated (.scas w) true (scasElem w) s

/-- LODS (R305, R308). -/
def execLods (w : Width) (s : State) : Result := repeated (.lods w) false (lodsElem w) s

/-- STOS (R306, R308). -/
def execStos (w : Width) (s : State) : Result := repeated (.stos w) false (stosElem w) s

/-- Remember a leading byte: no request is recognised before the instruction that follows (10_state.md R42). -/
def State.leading (s : State) (l : Leading) : State :=
  { s with cpu := { s.cpu with phase := .leading,
                               lead := { l with first := some (s.cpu.lead.first.getD s.cpu.instrAddr),
                                                last := s.cpu.instrAddr } } }

/-- REP, REPE, REPNE (R307): a later one replaces an earlier one (30_encoding.md R161). -/
def execRepPrefix (z : Bool) (s : State) : Result := .next (s.leading { s.cpu.lead with rep := some z })

/-- LOCK (45_processor_control.md R369). -/
def execLockPrefix (s : State) : Result := .next (s.leading { s.cpu.lead with lock := true })

/-- The segment override (20_memory.md R106). -/
def execSegPrefix (sr : SReg) (s : State) : Result := .next (s.leading { s.cpu.lead with seg := some sr })

end Sys2Proof.Machine
end

