-- ==== Sys2Proof/Machine/Dispatch.lean ====
section
/-! DEFINITION. One arm per constructor of `Instr`: the meaning of each instruction. -/

namespace Sys2Proof.Machine

/-- Execute one instruction, IP (or TP) already past it. -/
def exec (i : Instr) (s : State) : Host.Outcome State Fault Refusal :=
  match i with
  | .movRmR d w r rm => Sys2Proof.Machine.execMovRmR d w r rm s
  | .movRmImm rm v => Sys2Proof.Machine.execMovRmImm rm v s
  | .movRImm r v => Sys2Proof.Machine.execMovRImm r v s
  | .movAcc d w a => Sys2Proof.Machine.execMovAcc d w a s
  | .movSrRm sr rm => Sys2Proof.Machine.execMovSrRm sr rm s
  | .movRmSr sr rm => Sys2Proof.Machine.execMovRmSr sr rm s
  | .xchgRRm w r rm => Sys2Proof.Machine.execXchgRRm w r rm s
  | .xchgAxR r => Sys2Proof.Machine.execXchgAxR r s
  | .nop => Sys2Proof.Machine.execNop s
  | .xlat => Sys2Proof.Machine.execXlat s
  | .lea r m => Sys2Proof.Machine.execLea r m s
  | .lds r m => Sys2Proof.Machine.execLds r m s
  | .les r m => Sys2Proof.Machine.execLes r m s
  | .lahf => Sys2Proof.Machine.execLahf s
  | .sahf => Sys2Proof.Machine.execSahf s
  | .pushRm rm => Sys2Proof.Machine.execPushRm rm s
  | .pushR r => Sys2Proof.Machine.execPushR r s
  | .pushSr sr => Sys2Proof.Machine.execPushSr sr s
  | .popRm rm => Sys2Proof.Machine.execPopRm rm s
  | .popR r => Sys2Proof.Machine.execPopR r s
  | .popSr sr => Sys2Proof.Machine.execPopSr sr s
  | .pushf => Sys2Proof.Machine.execPushf s
  | .popf => Sys2Proof.Machine.execPopf s
  | .inPort w p => Sys2Proof.Machine.execInPort w p s
  | .inDx w => Sys2Proof.Machine.execInDx w s
  | .outPort w p => Sys2Proof.Machine.execOutPort w p s
  | .outDx w => Sys2Proof.Machine.execOutDx w s
  | .addRmR d w r rm => Sys2Proof.Machine.execAddRmR d w r rm s
  | .addRmImm rm v => Sys2Proof.Machine.execAddRmImm rm v s
  | .addAccImm v => Sys2Proof.Machine.execAddAccImm v s
  | .adcRmR d w r rm => Sys2Proof.Machine.execAdcRmR d w r rm s
  | .adcRmImm rm v => Sys2Proof.Machine.execAdcRmImm rm v s
  | .adcAccImm v => Sys2Proof.Machine.execAdcAccImm v s
  | .subRmR d w r rm => Sys2Proof.Machine.execSubRmR d w r rm s
  | .subRmImm rm v => Sys2Proof.Machine.execSubRmImm rm v s
  | .subAccImm v => Sys2Proof.Machine.execSubAccImm v s
  | .sbbRmR d w r rm => Sys2Proof.Machine.execSbbRmR d w r rm s
  | .sbbRmImm rm v => Sys2Proof.Machine.execSbbRmImm rm v s
  | .sbbAccImm v => Sys2Proof.Machine.execSbbAccImm v s
  | .cmpRmR d w r rm => Sys2Proof.Machine.execCmpRmR d w r rm s
  | .cmpRmImm rm v => Sys2Proof.Machine.execCmpRmImm rm v s
  | .cmpAccImm v => Sys2Proof.Machine.execCmpAccImm v s
  | .incRm w rm => Sys2Proof.Machine.execIncRm w rm s
  | .incR r => Sys2Proof.Machine.execIncR r s
  | .decRm w rm => Sys2Proof.Machine.execDecRm w rm s
  | .decR r => Sys2Proof.Machine.execDecR r s
  | .negRm w rm => Sys2Proof.Machine.execNegRm w rm s
  | .mulRm w rm => Sys2Proof.Machine.execMulRm w rm s
  | .imulRm w rm => Sys2Proof.Machine.execImulRm w rm s
  | .divRm w rm => Sys2Proof.Machine.execDivRm w rm s
  | .idivRm w rm => Sys2Proof.Machine.execIdivRm w rm s
  | .cbw => Sys2Proof.Machine.execCbw s
  | .cwd => Sys2Proof.Machine.execCwd s
  | .daa => Sys2Proof.Machine.execDaa s
  | .das => Sys2Proof.Machine.execDas s
  | .aaa => Sys2Proof.Machine.execAaa s
  | .aas => Sys2Proof.Machine.execAas s
  | .aam => Sys2Proof.Machine.execAam s
  | .aad => Sys2Proof.Machine.execAad s
  | .andRmR d w r rm => Sys2Proof.Machine.execAndRmR d w r rm s
  | .andRmImm rm v => Sys2Proof.Machine.execAndRmImm rm v s
  | .andAccImm v => Sys2Proof.Machine.execAndAccImm v s
  | .orRmR d w r rm => Sys2Proof.Machine.execOrRmR d w r rm s
  | .orRmImm rm v => Sys2Proof.Machine.execOrRmImm rm v s
  | .orAccImm v => Sys2Proof.Machine.execOrAccImm v s
  | .xorRmR d w r rm => Sys2Proof.Machine.execXorRmR d w r rm s
  | .xorRmImm rm v => Sys2Proof.Machine.execXorRmImm rm v s
  | .xorAccImm v => Sys2Proof.Machine.execXorAccImm v s
  | .testRmR w r rm => Sys2Proof.Machine.execTestRmR w r rm s
  | .testRmImm rm v => Sys2Proof.Machine.execTestRmImm rm v s
  | .testAccImm v => Sys2Proof.Machine.execTestAccImm v s
  | .notRm w rm => Sys2Proof.Machine.execNotRm w rm s
  | .rolRm c w rm => Sys2Proof.Machine.execRolRm c w rm s
  | .rorRm c w rm => Sys2Proof.Machine.execRorRm c w rm s
  | .rclRm c w rm => Sys2Proof.Machine.execRclRm c w rm s
  | .rcrRm c w rm => Sys2Proof.Machine.execRcrRm c w rm s
  | .shlRm c w rm => Sys2Proof.Machine.execShlRm c w rm s
  | .shrRm c w rm => Sys2Proof.Machine.execShrRm c w rm s
  | .sarRm c w rm => Sys2Proof.Machine.execSarRm c w rm s
  | .movs w => Sys2Proof.Machine.execMovs w s
  | .cmps w => Sys2Proof.Machine.execCmps w s
  | .scas w => Sys2Proof.Machine.execScas w s
  | .lods w => Sys2Proof.Machine.execLods w s
  | .stos w => Sys2Proof.Machine.execStos w s
  | .repPrefix z => Sys2Proof.Machine.execRepPrefix z s
  | .jmpShort rel => Sys2Proof.Machine.execJmpShort rel s
  | .jmpNear rel => Sys2Proof.Machine.execJmpNear rel s
  | .jmpRm rm => Sys2Proof.Machine.execJmpRm rm s
  | .jmpFar off seg => Sys2Proof.Machine.execJmpFar off seg s
  | .jmpMem m => Sys2Proof.Machine.execJmpMem m s
  | .callNear rel => Sys2Proof.Machine.execCallNear rel s
  | .callRm rm => Sys2Proof.Machine.execCallRm rm s
  | .callFar off seg => Sys2Proof.Machine.execCallFar off seg s
  | .callMem m => Sys2Proof.Machine.execCallMem m s
  | .retNear => Sys2Proof.Machine.execRetNear s
  | .retFar => Sys2Proof.Machine.execRetFar s
  | .retNearImm n => Sys2Proof.Machine.execRetNearImm n s
  | .retFarImm n => Sys2Proof.Machine.execRetFarImm n s
  | .jo rel => Sys2Proof.Machine.execJo rel s
  | .jno rel => Sys2Proof.Machine.execJno rel s
  | .jb rel => Sys2Proof.Machine.execJb rel s
  | .jnb rel => Sys2Proof.Machine.execJnb rel s
  | .je rel => Sys2Proof.Machine.execJe rel s
  | .jne rel => Sys2Proof.Machine.execJne rel s
  | .jbe rel => Sys2Proof.Machine.execJbe rel s
  | .ja rel => Sys2Proof.Machine.execJa rel s
  | .js rel => Sys2Proof.Machine.execJs rel s
  | .jns rel => Sys2Proof.Machine.execJns rel s
  | .jp rel => Sys2Proof.Machine.execJp rel s
  | .jnp rel => Sys2Proof.Machine.execJnp rel s
  | .jl rel => Sys2Proof.Machine.execJl rel s
  | .jge rel => Sys2Proof.Machine.execJge rel s
  | .jle rel => Sys2Proof.Machine.execJle rel s
  | .jg rel => Sys2Proof.Machine.execJg rel s
  | .loopne rel => Sys2Proof.Machine.execLoopne rel s
  | .loope rel => Sys2Proof.Machine.execLoope rel s
  | .loop rel => Sys2Proof.Machine.execLoop rel s
  | .jcxz rel => Sys2Proof.Machine.execJcxz rel s
  | .intN n => Sys2Proof.Machine.execIntN n s
  | .int3 => Sys2Proof.Machine.execInt3 s
  | .into => Sys2Proof.Machine.execInto s
  | .iret => Sys2Proof.Machine.execIret s
  | .clc => Sys2Proof.Machine.execClc s
  | .stc => Sys2Proof.Machine.execStc s
  | .cmc => Sys2Proof.Machine.execCmc s
  | .cld => Sys2Proof.Machine.execCld s
  | .std => Sys2Proof.Machine.execStd s
  | .cli => Sys2Proof.Machine.execCli s
  | .sti => Sys2Proof.Machine.execSti s
  | .hlt => Sys2Proof.Machine.execHlt s
  | .wait => Sys2Proof.Machine.execWait s
  | .esc x y rm => Sys2Proof.Machine.execEsc x y rm s
  | .lockPrefix => Sys2Proof.Machine.execLockPrefix s
  | .segPrefix sr => Sys2Proof.Machine.execSegPrefix sr s
  | .fldM32 m => Sys2Proof.Machine.execFldM32 m s
  | .fldM64 m => Sys2Proof.Machine.execFldM64 m s
  | .fldM80 m => Sys2Proof.Machine.execFldM80 m s
  | .fldSti j => Sys2Proof.Machine.execFldSti j s
  | .fildM16i m => Sys2Proof.Machine.execFildM16i m s
  | .fildM32i m => Sys2Proof.Machine.execFildM32i m s
  | .fildM64i m => Sys2Proof.Machine.execFildM64i m s
  | .fbldM80 m => Sys2Proof.Machine.execFbldM80 m s
  | .fstM32 m => Sys2Proof.Machine.execFstM32 m s
  | .fstM64 m => Sys2Proof.Machine.execFstM64 m s
  | .fstSti j => Sys2Proof.Machine.execFstSti j s
  | .fistM16i m => Sys2Proof.Machine.execFistM16i m s
  | .fistM32i m => Sys2Proof.Machine.execFistM32i m s
  | .fstpM32 m => Sys2Proof.Machine.execFstpM32 m s
  | .fstpM64 m => Sys2Proof.Machine.execFstpM64 m s
  | .fstpM80 m => Sys2Proof.Machine.execFstpM80 m s
  | .fstpSti j => Sys2Proof.Machine.execFstpSti j s
  | .fistpM16i m => Sys2Proof.Machine.execFistpM16i m s
  | .fistpM32i m => Sys2Proof.Machine.execFistpM32i m s
  | .fistpM64i m => Sys2Proof.Machine.execFistpM64i m s
  | .fbstpM80 m => Sys2Proof.Machine.execFbstpM80 m s
  | .fxchSti j => Sys2Proof.Machine.execFxchSti j s
  | .fldz => Sys2Proof.Machine.execFldz s
  | .fld1 => Sys2Proof.Machine.execFld1 s
  | .fldpi => Sys2Proof.Machine.execFldpi s
  | .fldl2t => Sys2Proof.Machine.execFldl2t s
  | .fldl2e => Sys2Proof.Machine.execFldl2e s
  | .fldlg2 => Sys2Proof.Machine.execFldlg2 s
  | .fldln2 => Sys2Proof.Machine.execFldln2 s
  | .fcomM32 m => Sys2Proof.Machine.execFcomM32 m s
  | .fcomM64 m => Sys2Proof.Machine.execFcomM64 m s
  | .fcomSti j => Sys2Proof.Machine.execFcomSti j s
  | .ficomM16i m => Sys2Proof.Machine.execFicomM16i m s
  | .ficomM32i m => Sys2Proof.Machine.execFicomM32i m s
  | .fcompM32 m => Sys2Proof.Machine.execFcompM32 m s
  | .fcompM64 m => Sys2Proof.Machine.execFcompM64 m s
  | .fcompSti j => Sys2Proof.Machine.execFcompSti j s
  | .ficompM16i m => Sys2Proof.Machine.execFicompM16i m s
  | .ficompM32i m => Sys2Proof.Machine.execFicompM32i m s
  | .fcompp => Sys2Proof.Machine.execFcompp s
  | .ftst => Sys2Proof.Machine.execFtst s
  | .fxam => Sys2Proof.Machine.execFxam s
  | .faddM32 m => Sys2Proof.Machine.execFaddM32 m s
  | .faddM64 m => Sys2Proof.Machine.execFaddM64 m s
  | .faddStSti j => Sys2Proof.Machine.execFaddStSti j s
  | .faddStiSt j => Sys2Proof.Machine.execFaddStiSt j s
  | .fiaddM16i m => Sys2Proof.Machine.execFiaddM16i m s
  | .fiaddM32i m => Sys2Proof.Machine.execFiaddM32i m s
  | .faddpStiSt j => Sys2Proof.Machine.execFaddpStiSt j s
  | .fmulM32 m => Sys2Proof.Machine.execFmulM32 m s
  | .fmulM64 m => Sys2Proof.Machine.execFmulM64 m s
  | .fmulStSti j => Sys2Proof.Machine.execFmulStSti j s
  | .fmulStiSt j => Sys2Proof.Machine.execFmulStiSt j s
  | .fimulM16i m => Sys2Proof.Machine.execFimulM16i m s
  | .fimulM32i m => Sys2Proof.Machine.execFimulM32i m s
  | .fmulpStiSt j => Sys2Proof.Machine.execFmulpStiSt j s
  | .fsubM32 m => Sys2Proof.Machine.execFsubM32 m s
  | .fsubM64 m => Sys2Proof.Machine.execFsubM64 m s
  | .fsubStSti j => Sys2Proof.Machine.execFsubStSti j s
  | .fsubStiSt j => Sys2Proof.Machine.execFsubStiSt j s
  | .fsubrM32 m => Sys2Proof.Machine.execFsubrM32 m s
  | .fsubrM64 m => Sys2Proof.Machine.execFsubrM64 m s
  | .fsubrStSti j => Sys2Proof.Machine.execFsubrStSti j s
  | .fsubrStiSt j => Sys2Proof.Machine.execFsubrStiSt j s
  | .fdivM32 m => Sys2Proof.Machine.execFdivM32 m s
  | .fdivM64 m => Sys2Proof.Machine.execFdivM64 m s
  | .fdivStSti j => Sys2Proof.Machine.execFdivStSti j s
  | .fdivStiSt j => Sys2Proof.Machine.execFdivStiSt j s
  | .fdivrM32 m => Sys2Proof.Machine.execFdivrM32 m s
  | .fdivrM64 m => Sys2Proof.Machine.execFdivrM64 m s
  | .fdivrStSti j => Sys2Proof.Machine.execFdivrStSti j s
  | .fdivrStiSt j => Sys2Proof.Machine.execFdivrStiSt j s
  | .fsubpStiSt j => Sys2Proof.Machine.execFsubpStiSt j s
  | .fsubrpStiSt j => Sys2Proof.Machine.execFsubrpStiSt j s
  | .fisubM16i m => Sys2Proof.Machine.execFisubM16i m s
  | .fisubM32i m => Sys2Proof.Machine.execFisubM32i m s
  | .fisubrM16i m => Sys2Proof.Machine.execFisubrM16i m s
  | .fisubrM32i m => Sys2Proof.Machine.execFisubrM32i m s
  | .fdivpStiSt j => Sys2Proof.Machine.execFdivpStiSt j s
  | .fdivrpStiSt j => Sys2Proof.Machine.execFdivrpStiSt j s
  | .fidivM16i m => Sys2Proof.Machine.execFidivM16i m s
  | .fidivM32i m => Sys2Proof.Machine.execFidivM32i m s
  | .fidivrM16i m => Sys2Proof.Machine.execFidivrM16i m s
  | .fidivrM32i m => Sys2Proof.Machine.execFidivrM32i m s
  | .fsqrt => Sys2Proof.Machine.execFsqrt s
  | .fscale => Sys2Proof.Machine.execFscale s
  | .fprem => Sys2Proof.Machine.execFprem s
  | .frndint => Sys2Proof.Machine.execFrndint s
  | .fxtract => Sys2Proof.Machine.execFxtract s
  | .fabs => Sys2Proof.Machine.execFabs s
  | .fchs => Sys2Proof.Machine.execFchs s
  | .fptan => Sys2Proof.Machine.execFptan s
  | .fpatan => Sys2Proof.Machine.execFpatan s
  | .f2xm1 => Sys2Proof.Machine.execF2xm1 s
  | .fyl2x => Sys2Proof.Machine.execFyl2x s
  | .fyl2xp1 => Sys2Proof.Machine.execFyl2xp1 s
  | .fincstp => Sys2Proof.Machine.execFincstp s
  | .fdecstp => Sys2Proof.Machine.execFdecstp s
  | .fnop => Sys2Proof.Machine.execFnop s
  | .finit => Sys2Proof.Machine.execFinit s
  | .feni => Sys2Proof.Machine.execFeni s
  | .fdisi => Sys2Proof.Machine.execFdisi s
  | .fclex => Sys2Proof.Machine.execFclex s
  | .fldcw m => Sys2Proof.Machine.execFldcw m s
  | .fstcw m => Sys2Proof.Machine.execFstcw m s
  | .fstsw m => Sys2Proof.Machine.execFstsw m s
  | .fstenv m => Sys2Proof.Machine.execFstenv m s
  | .fldenv m => Sys2Proof.Machine.execFldenv m s
  | .fsave m => Sys2Proof.Machine.execFsave m s
  | .frstor m => Sys2Proof.Machine.execFrstor m s
  | .ffreeSti j => Sys2Proof.Machine.execFfreeSti j s
  | .iMovRegMem r m => Sys2Proof.Machine.execIMovRegMem r m s
  | .iMovMemReg m r => Sys2Proof.Machine.execIMovMemReg m r s
  | .iMovMemMem src dst => Sys2Proof.Machine.execIMovMemMem src dst s
  | .iMovbRegMem r m => Sys2Proof.Machine.execIMovbRegMem r m s
  | .iMovbMemReg m r => Sys2Proof.Machine.execIMovbMemReg m r s
  | .iMovbMemMem src dst => Sys2Proof.Machine.execIMovbMemMem src dst s
  | .iMoviRegData r v => Sys2Proof.Machine.execIMoviRegData r v s
  | .iMoviMemData m v => Sys2Proof.Machine.execIMoviMemData m v s
  | .iMovbiRegData r v => Sys2Proof.Machine.execIMovbiRegData r v s
  | .iMovbiMemData m v => Sys2Proof.Machine.execIMovbiMemData m v s
  | .iMovpPtrMem p m => Sys2Proof.Machine.execIMovpPtrMem p m s
  | .iMovpMemPtr m p => Sys2Proof.Machine.execIMovpMemPtr m p s
  | .iLpdPtrMem p m => Sys2Proof.Machine.execILpdPtrMem p m s
  | .iLpdiPtr p off seg => Sys2Proof.Machine.execILpdiPtr p off seg s
  | .iAddRegMem r m => Sys2Proof.Machine.execIAddRegMem r m s
  | .iAddMemReg m r => Sys2Proof.Machine.execIAddMemReg m r s
  | .iAddbRegMem r m => Sys2Proof.Machine.execIAddbRegMem r m s
  | .iAddbMemReg m r => Sys2Proof.Machine.execIAddbMemReg m r s
  | .iAddiRegData r v => Sys2Proof.Machine.execIAddiRegData r v s
  | .iAddiMemData m v => Sys2Proof.Machine.execIAddiMemData m v s
  | .iAddbiRegData r v => Sys2Proof.Machine.execIAddbiRegData r v s
  | .iAddbiMemData m v => Sys2Proof.Machine.execIAddbiMemData m v s
  | .iIncReg r => Sys2Proof.Machine.execIIncReg r s
  | .iIncMem m => Sys2Proof.Machine.execIIncMem m s
  | .iIncbMem m => Sys2Proof.Machine.execIIncbMem m s
  | .iDecReg r => Sys2Proof.Machine.execIDecReg r s
  | .iDecMem m => Sys2Proof.Machine.execIDecMem m s
  | .iDecbMem m => Sys2Proof.Machine.execIDecbMem m s
  | .iAndRegMem r m => Sys2Proof.Machine.execIAndRegMem r m s
  | .iAndMemReg m r => Sys2Proof.Machine.execIAndMemReg m r s
  | .iAndbRegMem r m => Sys2Proof.Machine.execIAndbRegMem r m s
  | .iAndbMemReg m r => Sys2Proof.Machine.execIAndbMemReg m r s
  | .iAndiRegData r v => Sys2Proof.Machine.execIAndiRegData r v s
  | .iAndiMemData m v => Sys2Proof.Machine.execIAndiMemData m v s
  | .iAndbiRegData r v => Sys2Proof.Machine.execIAndbiRegData r v s
  | .iAndbiMemData m v => Sys2Proof.Machine.execIAndbiMemData m v s
  | .iOrRegMem r m => Sys2Proof.Machine.execIOrRegMem r m s
  | .iOrMemReg m r => Sys2Proof.Machine.execIOrMemReg m r s
  | .iOrbRegMem r m => Sys2Proof.Machine.execIOrbRegMem r m s
  | .iOrbMemReg m r => Sys2Proof.Machine.execIOrbMemReg m r s
  | .iOriRegData r v => Sys2Proof.Machine.execIOriRegData r v s
  | .iOriMemData m v => Sys2Proof.Machine.execIOriMemData m v s
  | .iOrbiRegData r v => Sys2Proof.Machine.execIOrbiRegData r v s
  | .iOrbiMemData m v => Sys2Proof.Machine.execIOrbiMemData m v s
  | .iNotReg r => Sys2Proof.Machine.execINotReg r s
  | .iNotMem m => Sys2Proof.Machine.execINotMem m s
  | .iNotRegMem r m => Sys2Proof.Machine.execINotRegMem r m s
  | .iNotbMem m => Sys2Proof.Machine.execINotbMem m s
  | .iNotbRegMem r m => Sys2Proof.Machine.execINotbRegMem r m s
  | .iSetbMem m b => Sys2Proof.Machine.execISetbMem m b s
  | .iClrMem m b => Sys2Proof.Machine.execIClrMem m b s
  | .iCallMem m rel => Sys2Proof.Machine.execICallMem m rel s
  | .iLcallMem m rel => Sys2Proof.Machine.execILcallMem m rel s
  | .iJmp rel => Sys2Proof.Machine.execIJmp rel s
  | .iLjmp rel => Sys2Proof.Machine.execILjmp rel s
  | .iJzReg r rel => Sys2Proof.Machine.execIJzReg r rel s
  | .iJzMem m rel => Sys2Proof.Machine.execIJzMem m rel s
  | .iLjzReg r rel => Sys2Proof.Machine.execILjzReg r rel s
  | .iLjzMem m rel => Sys2Proof.Machine.execILjzMem m rel s
  | .iJzbMem m rel => Sys2Proof.Machine.execIJzbMem m rel s
  | .iLjzbMem m rel => Sys2Proof.Machine.execILjzbMem m rel s
  | .iJnzReg r rel => Sys2Proof.Machine.execIJnzReg r rel s
  | .iJnzMem m rel => Sys2Proof.Machine.execIJnzMem m rel s
  | .iLjnzReg r rel => Sys2Proof.Machine.execILjnzReg r rel s
  | .iLjnzMem m rel => Sys2Proof.Machine.execILjnzMem m rel s
  | .iJnzbMem m rel => Sys2Proof.Machine.execIJnzbMem m rel s
  | .iLjnzbMem m rel => Sys2Proof.Machine.execILjnzbMem m rel s
  | .iJmceMem m rel => Sys2Proof.Machine.execIJmceMem m rel s
  | .iLjmceMem m rel => Sys2Proof.Machine.execILjmceMem m rel s
  | .iJmcneMem m rel => Sys2Proof.Machine.execIJmcneMem m rel s
  | .iLjmcneMem m rel => Sys2Proof.Machine.execILjmcneMem m rel s
  | .iJbtMem m b rel => Sys2Proof.Machine.execIJbtMem m b rel s
  | .iLjbtMem m b rel => Sys2Proof.Machine.execILjbtMem m b rel s
  | .iJnbtMem m b rel => Sys2Proof.Machine.execIJnbtMem m b rel s
  | .iLjnbtMem m b rel => Sys2Proof.Machine.execILjnbtMem m b rel s
  | .iTslMemData m v rel => Sys2Proof.Machine.execITslMemData m v rel s
  | .iWid src16 dst16 => Sys2Proof.Machine.execIWid src16 dst16 s
  | .iXfer => Sys2Proof.Machine.execIXfer s
  | .iSintr => Sys2Proof.Machine.execISintr s
  | .iHlt => Sys2Proof.Machine.execIHlt s
  | .iNop => Sys2Proof.Machine.execINop s

end Sys2Proof.Machine
end

