-- ==== Sys2Proof/Machine/Dma.lean ====
section
/-! DEFINITION. The DMA cycles of the VT37 (49_platform_devices.md R741-R746). One grant of the bus is one step (log 10). -/

namespace Sys2Proof.Machine

/-- The physical address of a DMA cycle of VT37 number `u` (R741, D47). -/
def State.dmaAddr (s : State) (u : Nat) (n : BitVec 2) : Nat :=
  let page := match u with
    | 0 => s.plat.vt37Page
    | k + 1 => match s.plat.cascades[k]? with
      | some c => c.page
      | none => Bank4.all 0#4
  (page.get n).toNat * 65536 + ((s.dmac u).ch.get n).car.toNat

/-- A memory read cycle of the VT37. AEN keeps every device decoder off (R748), so a device register gives an unknown
byte, and so does the RAM of the RU55, which its own decoder selects; the ROM of the RF55 is a region of the memory and
stays readable (log 57). -/
def State.dmaRead8 (s : State) (a : Nat) : Byte × State :=
  match (findRegion .ram a s.plat.memoryMap).1 with
  | .ram => (s.mem.get a, s)
  | .rom => (s.mem.get a, s)
  | _ => s.takeByte

/-- A memory write cycle of the VT37: no device register takes it, nor the RAM of the RU55 (R748; log 57). -/
def State.dmaWrite8 (s : State) (a : Nat) (v : Byte) : State :=
  match (findRegion .ram a s.plat.memoryMap).1 with
  | .ram => s.store8 a v
  | _ => s

/-- Channel n of controller u serves the VG72 (R770). -/
def State.servesFdc (s : State) (u : Nat) (n : BitVec 2) : Bool := s.plat.fdcDma == some (u, n)

/-- The VG72 sees DACK, which it takes as active at 0 (log 58). -/
def State.fdcSelected (s : State) (u : Nat) (n : BitVec 2) : Bool := !(s.dmac u).dackPin n

/-- The byte a device supplies: the next of the event's, or an unknown one (log 10). -/
def State.deviceByte (s : State) (data : List Byte) : Byte × List Byte × State :=
  match data with
  | b :: r => (b, r, s)
  | [] =>
    let f := s.takeByte
    (f.1, [], f.2)

/-- The byte of a write transfer on DACK and IOR: the VG72's RIO where it is the device and sees DACK (R772), else the
event's. -/
def State.dmaTake (s : State) (u : Nat) (n : BitVec 2) (data : List Byte) : Byte × List Byte × State :=
  if s.servesFdc u n then
    let f := s.takeByte
    let r := if s.fdcSelected u n then s.vg72.dackRead f.1 else (f.1, s.vg72)
    (r.1, data, { f.2 with vg72 := r.2 })
  else s.deviceByte data

/-- The device of channel n takes a byte on DACK and IOW: the VG72's RIO, or what the VT37 has given (R743). -/
def State.dmaGive (s : State) (u : Nat) (n : BitVec 2) (v : Byte) : State :=
  if s.servesFdc u n then { s with vg72 := if s.fdcSelected u n then s.vg72.dackWrite v else s.vg72 }
  else s.setDmac u { s.dmac u with given := (s.dmac u).given ++ [v] }

/-- The data movement of one cycle of channel n (R741, R743): what is left of the device's bytes, and the state. -/
def State.dmaMove (s : State) (u : Nat) (n : BitVec 2) (data : List Byte) : List Byte × State :=
  match ((s.dmac u).ch.get n).type with
  | .write =>
    let b := s.dmaTake u n data
    (b.2.1, b.2.2.dmaWrite8 (s.dmaAddr u n) b.1)
  | .read =>
    let b := s.dmaRead8 (s.dmaAddr u n)
    (data, b.2.dmaGive u n b.1)
  | .verify => (data, s)
  | .illegal => (data, s)

/-- The end of a channel's service (R741 `terminal`); `pulse` is an internal TC, which drives the EOP output. The line
goes to the pin TC of the VG72 where that is wired (R770). -/
def State.dmaEnd (s : State) (u : Nat) (n : BitVec 2) (pulse : Bool) : State :=
  let t := s.setDmac u { (s.dmac u).terminal n with eop := (s.dmac u).eop || pulse }
  { t with vg72 := if s.servesFdc u n then s.vg72.event .tc else s.vg72 }

/-- One cycle of channel n (R741): also says whether it was the last. -/
def State.dmaCycle (s : State) (u : Nat) (n : BitVec 2) (data : List Byte) : Bool × List Byte × State :=
  let m := s.dmaMove u n data
  let d := m.2.dmac u
  let t := m.2.setDmac u (d.advance n)
  if (d.ch.get n).cwr = 0#16 then (true, m.1, t.dmaEnd u n true) else (false, m.1, t)

/-- The VG72 has taken its request back, in the polarity of CR bit 6, so that a demand transfer stops (R734, R742). With a
software request (RR[n] = 1), for which R736 wants block mode, DREQ does not count and the service lasts the cycles of the
grant, DESIGN CHOICE (log 57). -/
def State.dmaDropped (s : State) (u : Nat) (n : BitVec 2) : Bool :=
  s.servesFdc u n && !bit (s.dmac u).rr n.toNat && !(s.dma u).dreqActive n.toNat

/-- At most `k` cycles of channel n; `eop` pulls EOP low after them (R741, R742). -/
def State.dmaCycles (s : State) (u : Nat) (n : BitVec 2) (eop : Bool) (data : List Byte) : Nat → State
  | 0 => if eop then s.dmaEnd u n false else s
  | k + 1 =>
    if ((s.dmac u).ch.get n).dmaMode = .demand && s.dmaDropped u n then s
    else
      let r := s.dmaCycle u n data
      if r.1 then r.2.2 else r.2.2.dmaCycles u n eop r.2.1 k

/-- One byte from memory to memory through TR (R745): also says whether it was the last, by the count of channel 1. -/
def State.dmaByte (s : State) (u : Nat) : Bool × State :=
  let r := s.dmaRead8 (s.dmaAddr u 0)
  let t := r.2.setDmac u { r.2.dmac u with tr := r.1 }
  let t := t.dmaWrite8 (t.dmaAddr u 1) r.1
  let d := t.dmac u
  let t := t.setDmac u (d.advanceSource.advance 1)
  if (d.ch.get 1).cwr = 0#16 then (true, (t.dmaEnd u 1 true).dmaEnd u 0 true) else (false, t)

/-- At most `k` bytes from memory to memory. -/
def State.dmaBytes (s : State) (u : Nat) (eop : Bool) : Nat → State
  | 0 => if eop then (s.dmaEnd u 1 false).dmaEnd u 0 false else s
  | k + 1 =>
    let r := s.dmaByte u
    if r.1 then r.2 else r.2.dmaBytes u eop k

/-- Channel n of a controller moves memory to memory (R745): channel 0 with CR bit 0. A request of another channel then
has its ordinary transfer (log 57). -/
def Vt37.movesMemory (d : Vt37) (n : BitVec 2) : Bool := bit d.cr 0 && n == 0#2

/-- Controller u begins to serve its channel n: DACK and the rotation of the priorities (R730, R746); what it does next is
resolved after the service. After the byte of single mode the CPU has the next bus cycle (R742). In a transfer from memory
to memory DACK of channel 0 is active as in any other, and channel 0 counts as the one served last, DESIGN CHOICE (log
57): R745 and R746 say neither. -/
def State.dmaServe (s : State) (u : Nat) (n : BitVec 2) : State :=
  let d := s.dma u
  s.setDmac u { d with lastServed := some n, chosen := none, dack := setBit d.dack n.toNat true,
                       yield := !d.movesMemory n && decide ((d.ch.get n).dmaMode = .single) }

/-- HLDA has come to controller u: where its channel in service is a cascade, the pin DACK is HLDA of the controller that
is wired there, of which the first of those still looked at has number v (R742); so DACK must be active at 1, DESIGN
CHOICE (R734; log 58).
Answers with the controller that has the bus. -/
def State.dmaPass (s : State) (u v : Nat) : List Cascade → Nat × State
  | [] => (u, s)
  | c :: r =>
    let d := s.dma u
    if c.parent = u && d.chosen == some c.channel && (d.ch.get c.channel).dmaMode = .cascade && !d.movesMemory c.channel
        && ((s.dmaServe u c.channel).dmac u).dackPin c.channel then
      (s.dmaServe u c.channel).dmaPass v (v + 1) r
    else s.dmaPass u (v + 1) r

/-- Controller u has the bus: the channel for which it left SI is served, also when one of a higher priority has asked
since (R746; log 59); HLDA without HRQ does nothing. Without an external EOP a block runs to its terminal count;
type 11 outside cascade mode is refused (U33). A cascade channel with nothing behind it gives DACK alone. A
memory-to-memory transfer starts on any request of channel 0, that of its pin too, and the mode and type bits of the two
channels do not count there (R745; log 57). Single mode moves the byte of its grant, if an external EOP does not come first (R742). -/
def State.dmaRun (s : State) (u : Nat) (cycles : Nat) (eop : Bool) (data : List Byte) : Result :=
  match (s.dma u).chosen with
  | none => .next s
  | some n =>
    let c := (s.dma u).ch.get n
    let t := s.dmaServe u n
    if (s.dma u).movesMemory n then .next (t.dmaBytes u eop (if eop then min cycles 65536 else 65536))
    else if c.dmaMode = .cascade then .next t
    else if c.type = .illegal then .refused .dmaType
    else
      match c.dmaMode with
      | .single => .next (t.dmaCycles u n eop data (if eop then min cycles 1 else 1))
      | .block => .next (t.dmaCycles u n eop data (if eop then min cycles 65536 else 65536))
      | _ => .next (t.dmaCycles u n eop data (min cycles 65536))

/-- HLDA is given to the VT37, and by it to the controller whose request it passes on (R742). -/
def State.dmaGrant (s : State) (cycles : Nat) (eop : Bool) (data : List Byte) : Result :=
  let p := s.dmaPass 0 1 s.plat.cascades
  p.2.dmaRun p.1 cycles eop data

end Sys2Proof.Machine
end

