-- ==== Sys2Proof/Machine/FpuRun.lean ====
section
/-! DEFINITION. How the VM87 works beside the CPU (47_vm87_instructions.md R462-R465; log 14): it takes an ESC from the
CPU's stream, reads the rest of its source operand, executes, and writes its result, a bus cycle at a time. -/

namespace Sys2Proof.Machine

/-! ### What an ESC asks of the coprocessor -/

/-- The operation code, the second byte and the operand of an instruction of the VM87, from its encoding (R460). -/
noncomputable def escOf (i : Instr) : Option (Nat × Nat × RM) :=
  match i with
  | .esc _ _ _ => none
  | i =>
    match encode i with
    | b :: p :: r =>
      if b.toNat / 8 = 27 then
        match decodeRm p.toNat r with
        | .ok (rm, _) => some (b.toNat % 8, p.toNat, rm)
        | .error _ => none
      else none
    | _ => none

/-- The length of the source operand of a memory form, by the two parts of its operation code; 0 where the operand is a
destination (Table 3.11). -/
def escNeeds (x y : Nat) : Nat :=
  match x, y with
  | 0, _ => 4
  | 2, _ => 4
  | 4, _ => 8
  | 6, _ => 2
  | 1, 0 => 4
  | 1, 4 => 14
  | 1, 5 => 2
  | 3, 0 => 4
  | 3, 5 => 10
  | 5, 0 => 8
  | 5, 4 => 94
  | 7, 0 => 2
  | 7, 4 => 10
  | 7, 5 => 8
  | _, _ => 0

/-- The eight instructions that have a form without WAIT (R463): FENI, FDISI, FCLEX, FINIT, FSTENV, FSTCW, FSAVE, FSTSW.
-/
def escNoWait (x second : Nat) : RM → Bool
  | .reg _ => x == 3 && decide (0xE0 ≤ second) && decide (second ≤ 0xE3)
  | .mem _ => (x == 1 || x == 5) && decide (6 ≤ second / 8 % 8)

/-- FINIT (R523). -/
def escInit (x second : Nat) : Bool := x == 3 && second == 0xE3

/-! ### Taking an instruction -/

/-- The VM87 takes an instruction. FNINIT abandons what is in execution (R523). -/
def FpuRun.add (r : FpuRun) (drop : Bool) (j : FpuJob) : FpuRun :=
  if drop then { r with jobs := [j], writes := [] } else { r with jobs := r.jobs ++ [j] }

/-- The CPU's part of an ESC and the coprocessor's activation (R462): the CPU reads a word of a memory operand, and the
VM87 captures the address and, of a source, the word; at offset FFFFh the second byte is not the operand's (D32). With
BUSY = 1 only a form without WAIT may come (U17); the coprocessor holds it until the instruction before is complete. -/
def State.fpuIssue (s : State) (i : Instr) (x second : Nat) (rm : RM) : Result :=
  if s.testLevel && !escNoWait x second rm then .refused .escWhileBusy
  else
    match rm with
    | .reg _ => .next { s with run := s.run.add (escInit x second) { instr := i, cpu := s.cpu, got := [] } }
    | .mem m =>
      let d := s.readOp .word m
      let got := if escNeeds x (second / 8 % 8) = 0 then []
        else if s.cpu.ea m = 0xFFFF#16 then [lowByte d.1] else [lowByte d.1, highByte d.1]
      .next { d.2 with run := d.2.run.add false { instr := i, cpu := s.cpu, got := got } }

/-! ### Its own bus cycles -/

/-- The memory operand of a job, and how long its source is. -/
noncomputable def FpuJob.source (j : FpuJob) : Option (MemOp × Nat) :=
  match escOf j.instr with
  | some (x, second, .mem m) => some (m, escNeeds x (second / 8 % 8))
  | _ => none

/-- The VM87 reads the next word of the source operand of its instruction, or the last byte (R462). -/
def State.fpuReadOn (s : State) (j : FpuJob) (rest : List FpuJob) (m : MemOp) (need : Nat) : State :=
  let a := phys (j.cpu.memSeg m) (j.cpu.ea m) + j.got.length
  let l := s.read8 (a % 2 ^ 20)
  let got := j.got ++ [l.1]
  if got.length < need then
    let h := l.2.read8 ((a + 1) % 2 ^ 20)
    { h.2 with run := { h.2.run with jobs := { j with got := got ++ [h.1] } :: rest } }
  else { l.2 with run := { l.2.run with jobs := { j with got := got } :: rest } }

/-- The VM87 writes the next word of its result, or the last byte (R462). -/
def State.fpuWriteOn (s : State) : State :=
  match s.run.writes with
  | [] => s
  | [a] => ({ s with run := { s.run with writes := [] } }).write8 (a.1 % 2 ^ 20) a.2
  | a :: b :: r =>
    (({ s with run := { s.run with writes := r } }).write8 (a.1 % 2 ^ 20) a.2).write8 (b.1 % 2 ^ 20) b.2

/-- The state in which a job whose operand has been read is executed: the CPU as it stood at the ESC, the operand's bytes
ready. -/
def State.fpuEnter (s : State) (j : FpuJob) (rest : List FpuJob) : State :=
  { s with cpu := j.cpu, run := { jobs := rest, writes := [], feed := some j.got } }

/-- After it the CPU is where it was, and the bytes of a result wait to be written. -/
def State.fpuLeave (s : State) (c : Cpu) : State := { s with cpu := c, run := { s.run with feed := none } }

end Sys2Proof.Machine
end

