-- ==== Sys2Proof/Machine/IopChannel.lean ====
section
/-! DEFINITION. What the VM89 does on its own: the initialisation and the channel commands (48_vm89_iop.md R570-R581),
DMA transfers (R670-R679), and which channel runs next (R660-R663). -/

namespace Sys2Proof.Machine

/-! ### Initialisation and channel commands -/

/-- The initialisation after the first CA (R580), in one step (log 9); undefined SYSBUS or SOC values are refused (U24).
-/
def State.iopInitialise (s : State) (sel : Bool) : Result :=
  let sys := s.iopRead8 false 0xFFFF6
  let scb := sys.2.iopPointer false 0xFFFF8
  let soc := scb.2.iopRead8 false scb.1.toNat
  let cb := soc.2.iopPointer false (scb.1.toNat + 2)
  if 1 < sys.1.toNat ∨ 3 < soc.1.toNat then .refused .iopInit
  else
    let t := cb.2.iopWrite8 false (cb.1.toNat + 1) 0#8
    .next { t with iop := { t.iop with
      initialised := true, firstCa := none, master := !sel, ccp := cb.1, sysBus16 := bit sys.1 0,
      ioBus16 := bit soc.1 0, rqgtModified := bit soc.1 1,
      ch1 := { t.iop.ch1 with activity := .idle, ca := false },
      ch2 := { t.iop.ch2 with activity := .idle, ca := false } } }

/-- The actions of P, B and ICF (R574, D39). Bit 6, which is 0, is not looked at (log 47). -/
def IopChan.applyCcw (c : IopChan) (ccw : Byte) : IopChan :=
  let d := (c.setPsw 7 (bit ccw 7)).setPsw 5 (bit ccw 5)
  match fieldNat ccw 3 2 with
  | 0 => d
  | 1 => d.setPsw 4 false
  | 2 => d.setPsw 3 true
  | _ => d.setPsw 3 false

/-- A channel that leaves what it was doing: no transfer cycle, TB and XF are 0. -/
def IopChan.quiet (c : IopChan) : IopChan :=
  { (c.setPsw 2 false).setPsw 6 false with activity := .idle, held := [], cycle := none, suspending := false }

/-- Start a channel program (R575); `io` is CF = 001. An XFER that a suspended program left armed is dropped, DESIGN CHOICE
(log 47): R575 does not name `xfer_armed`. -/
def State.iopStart (s : State) (base : Nat) (io : Bool) : Result :=
  if s.ch.activity != .idle then .refused .iopCommand
  else
    let pp := s.iopPointer false (base + 2)
    let tp := if io then
        let w := pp.2.iopRead16 false pp.1.toNat
        (w.1.zeroExtend 20, w.2)
      else pp.2.iopPointer false pp.1.toNat
    let c := tp.2.ch
    .next (tp.2.setCh { (c.setPsw 2 true).setPsw 6 false with
      pp := pp.1, tp := tp.1, tagTp := io, queued := false, look := [], kept := none, activity := .program, armed := false,
      suspended := false })

/-- Suspend (R577): TP, TAG.TP and PSW go to the first two words of the parameter block. -/
def State.iopSuspendNow (s : State) (base : Nat) : State :=
  let pp := s.ch.pp.toNat
  let t := s.iopSavePtr false pp s.ch.tp s.ch.tagTp
  let t := t.iopWrite8 false (pp + 3) s.ch.psw
  let t := t.iopWrite8 false (base + 1) 0#8
  let t := t.setCh { t.ch.quiet with suspended := true }
  { t with iop := { t.iop with lockOut := false } }

/-- CF = 110: a transfer is suspended at a boundary of its cycles, so that a cycle in progress, which waits for DRQ, goes
on to its end first (R577; log 47). -/
def State.iopSuspend (s : State) (base : Nat) : State :=
  if s.ch.cycle.isNone then s.iopSuspendNow base else s.setCh { s.ch with suspending := true }

/-- Resume (R578, D42): the channel goes on with what the restored PSW records, and the one-byte queue is empty, so that
the byte at TP is fetched anew (log 7). -/
def State.iopResume (s : State) : Result :=
  if !s.ch.suspended then .refused .iopCommand
  else
    let pp := s.ch.pp.toNat
    let p := s.iopLoadPtr false pp
    let w := p.2.iopRead8 false (pp + 3)
    .next (w.2.setCh { w.2.ch with
      tp := p.1.1, tagTp := p.1.2, psw := w.1, queued := false, look := [], kept := none, suspended := false,
      activity := if bit w.1 6 then .transfer else if bit w.1 2 then .program else .idle })

/-- Stop (R579). A suspended channel that is stopped is suspended no longer (log 47). -/
def State.iopStop (s : State) (base : Nat) : State :=
  let t := s.iopWrite8 false (base + 1) 0#8
  let t := t.setCh { t.ch.quiet with armed := false, suspended := false }
  { t with iop := { t.iop with lockOut := false } }

/-- The answer of channel `n` to a channel attention (R581), in one step (log 9). CF = 010 and 100 do nothing more (U25).
-/
def State.iopAnswer (s : State) (n : ChanNo) : Result :=
  let s := { s with iop := { s.iop with cur := n } }
  let base := s.iop.block n
  let s := s.setCh { s.ch with ca := false }
  let s := s.iopWrite8 false (base + 1) 0xFF#8
  let ccw := s.iopRead8 false base
  let s := ccw.2.setCh (ccw.2.ch.applyCcw ccw.1)
  match fieldNat ccw.1 0 3 with
  | 0 => .next (if s.ch.activity == .idle then s.iopWrite8 false (base + 1) 0#8 else s)
  | 1 => s.iopStart base true
  | 3 => s.iopStart base false
  | 5 => s.iopResume
  | 6 => .next (s.iopSuspend base)
  | 7 => .next (s.iopStop base)
  | _ => .next s

/-! ### DMA transfers -/

/-- CC.S = 1 takes the source address from GB (10_state.md R78). -/
def IopChan.srcIsGb (c : IopChan) : Bool := bit c.cc 10

/-- The source pointer and its space. -/
def IopChan.src (c : IopChan) : Bool × Nat := if c.srcIsGb then (c.tagGb, c.gb.toNat) else (c.tagGa, c.ga.toNat)

/-- The destination pointer and its space. -/
def IopChan.dst (c : IopChan) : Bool × Nat := if c.srcIsGb then (c.tagGa, c.ga.toNat) else (c.tagGb, c.gb.toNat)

/-- The source is memory, so that its pointer is incremented (R672). -/
def IopChan.srcSteps (c : IopChan) : Bool := bit c.cc 14

/-- The destination is memory. -/
def IopChan.dstSteps (c : IopChan) : Bool := bit c.cc 15

/-- The synchronisation field. -/
def IopChan.syn (c : IopChan) : Nat := fieldNat c.cc 11 2

/-- A compare is selected for termination (10_state.md R78). -/
def IopChan.compares (c : IopChan) : Bool := fieldNat c.cc 0 2 != 0

/-- The kind of the next transfer cycle by logical widths and the parity of the two addresses (R673). -/
def IopChan.newCycle (c : IopChan) : XferCycle :=
  { readWord := bit c.psw 1 && c.src.2 % 2 == 0, writeWord := bit c.psw 0 && c.dst.2 % 2 == 0, written := 0 }

/-- The number of bytes a transfer cycle moves. -/
def XferCycle.size (x : XferCycle) : Nat := if x.readWord || x.writeWord then 2 else 1

/-- CC.TS = 1: the transfer ends after one cycle and the other end conditions are not looked at (10_state.md R78). -/
def IopChan.single (c : IopChan) : Bool := bit c.cc 7

/-- Why a transfer cycle may not begin: no WID since RESET (U22), SYN = 11 (U23), a logical width beyond the physical one
(U29), translation or compare of words (U30), an odd count with words and termination on BC (U31), which is looked at
before every cycle that moves two bytes (log 47). U29 refuses WID 16 for a side whose bus has 8 bits, and WID does not name
the bus of a side: it runs, and the refusal comes when a cycle begins, by the bus of the pointers then in use, DESIGN
CHOICE (log 30). -/
def Iop.cycleRefusal (p : Iop) (c : IopChan) : Option Refusal :=
  if !c.widDone then some .iopBeforeWid
  else if c.syn = 3 then some .iopSync
  else if (bit c.psw 1 && !p.wide c.src.1) || (bit c.psw 0 && !p.wide c.dst.1) then some .iopWidth
  else if (bit c.cc 13 || (c.compares && !c.single)) && (bit c.psw 1 || bit c.psw 0) then some .iopByteOnly
  else if c.newCycle.size == 2 && c.bc.toNat % 2 == 1 && !c.single && fieldNat c.cc 3 2 != 0 then some .iopOddCount
  else none

/-- The next bus cycle of a transfer is a write. -/
def IopChan.writesNext (c : IopChan) : Bool :=
  match c.cycle with
  | none => false
  | some x => decide (x.size ≤ c.held.length)

/-- The transfer can go on: it does not wait for DRQ (R675). -/
def IopChan.canTransfer (c : IopChan) : Bool :=
  match c.syn with
  | 1 => c.writesNext || c.drq
  | 2 => !c.writesNext || c.drq
  | _ => true

/-- A byte through the translate table (R674). -/
def State.iopTranslate (s : State) (b : Byte) : Byte × State :=
  if bit s.ch.cc 13 then s.iopRead8 s.ch.tagGc (s.ch.gc.toNat + b.toNat) else (b, s)

/-- The read bus cycle of a transfer (R671); with translation the read of the table is in the same step (log 9). -/
def State.iopXferRead (s : State) (x : XferCycle) : State :=
  let c := s.ch
  let a := c.src.2 + (if c.srcSteps then c.held.length else 0)
  if x.readWord then
    let r := s.iopRead16 c.src.1 a
    r.2.setCh { r.2.ch with held := [lowByte r.1, highByte r.1], cycle := some x }
  else
    let r := s.iopRead8 c.src.1 a
    let t := r.2.iopTranslate r.1
    t.2.setCh { t.2.ch with held := c.held ++ [t.1], cycle := some x }

/-- The write bus cycle of a transfer. -/
def State.iopXferWrite (s : State) (x : XferCycle) : State :=
  let c := s.ch
  let a := c.dst.2 + (if c.dstSteps then x.written else 0)
  let lo := c.held.getD x.written 0#8
  if x.writeWord then
    let t := s.iopWrite16 c.dst.1 a (wordOf lo (c.held.getD (x.written + 1) 0#8))
    t.setCh { t.ch with cycle := some { x with written := x.written + 2 } }
  else
    let t := s.iopWrite8 c.dst.1 a lo
    t.setCh { t.ch with cycle := some { x with written := x.written + 1 } }

/-- The pointers and BC after a transfer cycle of `n` bytes (R672). -/
def IopChan.step (c : IopChan) (n : Nat) : IopChan :=
  let ga := if c.srcIsGb then c.dstSteps else c.srcSteps
  let gb := if c.srcIsGb then c.srcSteps else c.dstSteps
  { c with ga := if ga then c.ga + BitVec.ofNat 20 n else c.ga,
           gb := if gb then c.gb + BitVec.ofNat 20 n else c.gb,
           bc := c.bc - BitVec.ofNat 16 n, held := [], cycle := none }

/-- The larger of two offsets, either of which may be absent. -/
def maxOffset : Option Nat → Option Nat → Option Nat
  | none, b => b
  | a, none => a
  | some a, some b => some (max a b)

/-- The termination offset after a transfer cycle that moved `b` last, when a condition holds (R678). -/
def IopChan.termination (c : IopChan) (b : Byte) : Option Nat :=
  if c.single then some 0
  else
    let tx := fieldNat c.cc 5 2
    let tbc := fieldNat c.cc 3 2
    let tmc := fieldNat c.cc 0 2
    let hit := maskedEqual c.mc b != bit c.cc 2
    maxOffset (if tx != 0 && c.ext then some ((tx - 1) * 4) else none)
      (maxOffset (if tbc != 0 && c.bc == 0#16 then some ((tbc - 1) * 4) else none)
        (if tmc != 0 && hit then some ((tmc - 1) * 4) else none))

/-- The end of a transfer cycle: pointers, BC and, when a condition holds, the termination sequence (R678). -/
def State.iopXferEnd (s : State) (x : XferCycle) : State :=
  let last := s.ch.held.getLastD 0#8
  let c := s.ch.step x.size
  match c.termination last with
  | none => s.setCh c
  | some o =>
    let t := s.setCh { (c.setPsw 6 false).setPsw 2 true with
      tp := c.tp + BitVec.ofNat 20 o, queued := c.queued && o == 0, look := if o == 0 then c.look else [],
      kept := if o == 0 then c.kept else none,
      activity := .program }
    { t with iop := { t.iop with lockOut := false } }

/-- After the last bus cycle of a transfer cycle: its end, and a suspension that waits for it (R577). -/
def State.iopCycleDone (s : State) (x : XferCycle) : State :=
  let t := s.iopXferEnd x
  if t.ch.suspending then t.iopSuspendNow (t.iop.block t.iop.cur) else t

/-- One bus cycle of the transfer of channel `n` (R671, R676). -/
def State.iopTransfer (s : State) (n : ChanNo) : Result :=
  let s := { s with iop := { s.iop with cur := n } }
  let c := s.ch
  match c.cycle with
  | none =>
    match s.iop.cycleRefusal c with
    | some r => .refused r
    | none =>
      let t := s.iopXferRead c.newCycle
      .next { t with iop := { t.iop with lockOut := t.iop.lockOut || bit c.cc 9 } }
  | some x =>
    if c.writesNext then
      let t := s.iopXferWrite x
      match t.ch.cycle with
      | some y => .next (if x.size ≤ y.written then t.iopCycleDone y else t)
      | none => .next t
    else .next (s.iopXferRead x)

/-! ### Which channel runs (R660, R661, R663) -/

/-- What a channel wants to do next. -/
inductive IopTask
  | nothing
  | answer
  | program
  | transfer
  deriving DecidableEq, Repr

/-- The next operation of a channel: a channel attention is answered at an instruction boundary and, in a transfer,
between two transfer cycles (R577), or when the cycle waits for DRQ (R579). -/
def IopChan.task (c : IopChan) : IopTask :=
  match c.activity with
  | .idle => if c.ca then .answer else .nothing
  | .program => if c.ca then .answer else .program
  | .transfer =>
    if c.ca && (c.cycle.isNone || !c.canTransfer) then .answer
    else if c.canTransfer then .transfer else .nothing

/-- The priority of the operation, 1 the highest; 4 is idle (R660). -/
def IopChan.priority (c : IopChan) : Nat :=
  match c.task with
  | .nothing => 4
  | .answer => 2
  | .program => if bit c.cc 8 then 1 else 3
  | .transfer => 1

/-- The other channel. -/
def ChanNo.other : ChanNo → ChanNo
  | .one => .two
  | .two => .one

/-- The channel that performs the next operation: under LOCK the one that holds it; else the higher priority, then
PSW.P, then the one that did not run last (R660); the first such choice is channel 1's (R663, D45). -/
def Iop.nextChan (p : Iop) : ChanNo :=
  let a := p.chan p.cur
  let b := p.chan p.cur.other
  if p.lockOut then p.cur
  else if a.priority < b.priority then p.cur
  else if b.priority < a.priority then p.cur.other
  else if bit a.psw 7 && !bit b.psw 7 then p.cur
  else p.cur.other

/-- The VM89 has something to do. -/
def Iop.ready (p : Iop) : Bool :=
  if p.initialised then decide ((p.chan p.nextChan).task ≠ .nothing) else p.firstCa.isSome

end Sys2Proof.Machine
end

