-- ==== Sys2Proof/Machine/Agents.lean ====
section
/-! DEFINITION. The agents: what an event of the environment does (49_platform_devices.md R701, 70_reset_and_hazards.md
R860, R861), how the VM89 fetches (48_vm89_iop.md R564), and which agent moves next (20_memory.md R121; log 10). -/

namespace Sys2Proof.Machine

/-! ### RESET as an event -/

/-- RESET of the CPU: the general registers keep their values (R861). -/
def Cpu.systemReset (c : Cpu) : Cpu :=
  { Cpu.reset with ax := c.ax, cx := c.cx, dx := c.dx, bx := c.bx, sp := c.sp, bp := c.bp, si := c.si, di := c.di }

/-- RESET of a VM89 channel (10_state.md R86, R861, D37): its activity stops and IS, IC, TB and XF are 0; the registers
and the rest of the PSW are undefined (log 52), here the free values from number `k` on; the pins are the environment's.
-/
def IopChan.systemReset (c : IopChan) (k : Nat) : IopChan :=
  { IopChan.reset with
    ga := BitVec.ofNat 20 (Config.freeNat k), gb := BitVec.ofNat 20 (Config.freeNat (k + 1)),
    gc := BitVec.ofNat 20 (Config.freeNat (k + 2)), tp := BitVec.ofNat 20 (Config.freeNat (k + 3)),
    pp := BitVec.ofNat 20 (Config.freeNat (k + 4)), ix := Config.freeWord k, bc := Config.freeWord (k + 1),
    cc := Config.freeWord (k + 2), mc := Config.freeWord (k + 3), tagGa := Config.freeBit k,
    tagGb := Config.freeBit (k + 1), tagGc := Config.freeBit (k + 2), tagTp := Config.freeBit (k + 3),
    psw := Config.freeByte k &&& 0xA3#8, drq := c.drq, ext := c.ext }

/-- RESET of the VM89: what the initialisation sets again is undefined until then (log 52). -/
def Iop.systemReset (p : Iop) (k : Nat) : Iop :=
  { Iop.reset with
    ch1 := p.ch1.systemReset k, ch2 := p.ch2.systemReset (k + 5), master := Config.freeBit (k + 10),
    ccp := BitVec.ofNat 20 (Config.freeNat (k + 10)), sysBus16 := Config.freeBit (k + 11),
    ioBus16 := Config.freeBit (k + 12), rqgtModified := Config.freeBit (k + 13) }

/-- How many free values a RESET uses up. -/
def resetFree : Nat := 32

/-- RESET of a VT37: as master clear, and its outputs are passive (R740). -/
def Vt37.systemReset (d : Vt37) : Vt37 := d.masterClear.endGrant

/-- RESET of the whole chip set (R860, R861): memory and the VI54 are not affected; the VM87 as FINIT leaves it. -/
def State.systemReset (s : State) : State :=
  { s with
    free := s.free + resetFree, cpu := s.cpu.systemReset, fpu := Fpu.init (s.free + 14), run := FpuRun.idle,
    iop := s.iop.systemReset s.free, vt37 := s.vt37.systemReset, cascaded := s.cascaded.map Vt37.systemReset,
    vg72 := s.vg72.systemReset, ru55 := s.ru55.systemReset, rf55 := s.rf55.systemReset }

/-! ### Events -/

/-- What one event of the environment does. -/
def State.event (s : State) (e : Event) : Result :=
  match e with
  | .reset => .next s.systemReset
  | .nmi => .next { s with cpu := { s.cpu with nmiPending := true } }
  | .intr n => .next { s with env := { s.env with intr := some n } }
  | .intrOff => .next { s with env := { s.env with intr := none } }
  | .test l => .next { s with env := { s.env with test := l } }
  | .grantCpu => .next s
  | .grantFpu => .next s
  | .grantIop => if s.plat.hasVm89 then .next s else .fault .noSuchAgent
  | .drq c l =>
    if s.plat.hasVm89 then .next { s with iop := s.iop.setChan c { s.iop.chan c with drq := l } } else .fault .noSuchAgent
  | .ext c l =>
    if s.plat.hasVm89 then .next { s with iop := s.iop.setChan c { s.iop.chan c with ext := l } } else .fault .noSuchAgent
  | .dreq u n l => .next (s.setDmac u ((s.dmac u).dreqTo n l))
  | .dmaGrant k eop data => s.dmaGrant k eop data
  | .tick n =>
    let f := s.takeWord
    .next { f.2 with vi54 := s.vi54.set n.toNat ((s.vi54.get n.toNat).tick f.1) }
  | .gate n l => .next { s with vi54 := s.vi54.set n.toNat ((s.vi54.get n.toNat).gateTo l) }
  | .fdc x => .next { s with vg72 := s.vg72.event x }
  | .ruPins a b c =>
    .next { s with ru55 := { s.ru55 with a := { s.ru55.a with pins := a }, b := { s.ru55.b with pins := b }, cPins := c } }
  | .ruStrobeA => .next { s with ru55 := s.ru55.strobeA }
  | .ruStrobeB => .next { s with ru55 := s.ru55.strobeB }
  | .ruTick => .next { s with ru55 := s.ru55.timerTick }
  | .rfPins a b => .next { s with rf55 := { s.rf55 with pinsA := a, pinsB := b } }

/-! ### The VM89's fetch -/

/-- The byte at TP as the next instruction takes it: the one-byte queue may hold it (R564). Of memory it is any value
that it had (log 7); a device is not read again. -/
def State.iopFirstByte (s : State) (c : IopChan) : Byte × State :=
  let b := s.iopRead8 c.tagTp c.tp.toNat
  match c.kept with
  | none => b.2.queuedByte b.1 c.look
  | some v => if isRu55Ram (s.iopRegion c.tagTp c.tp.toNat) then b.2.queuedByte b.1 [v] else (v, s)

/-- `n` bytes of channel code from `j` bytes past TP, in the space of TP (R561): each is one read cycle of that space,
and comes with the state after it. The byte at TP may be one that the queue has kept (R564; log 7). -/
def State.iopFetchBytes (s : State) (c : IopChan) (j : Nat) : Nat → List (Byte × State)
  | 0 => []
  | n + 1 =>
    let q := if j = 0 then s.iopFirstByte c else s.iopRead8 c.tagTp (c.tp.toNat + j)
    q :: q.2.iopFetchBytes c (j + 1) n

/-- The longest instruction of the VM89 (R590). -/
def maxIopLength : Nat := 6

/-- The instruction at TP of a channel, its length and the state after its bytes have been fetched. -/
noncomputable def State.fetch89With (s : State) (c : IopChan) : Except DecodeError (Instr × Nat × State) :=
  let code := s.iopFetchBytes c 0 maxIopLength
  match decode89 (code.map fun b => b.1) with
  | .ok (i, r) =>
    let n := maxIopLength - r.length
    .ok (i, n, (code.getD (n - 1) (0#8, s)).2)
  | .error e => .error e

/-- LPDI, which does not use the queue (R564). -/
def isLpdi : Instr → Bool
  | .iLpdiPtr _ _ _ => true
  | _ => false

/-- The same with the queue, from which an LPDI does not take its first byte (R564, 10_state.md R82). -/
noncomputable def State.fetch89 (s : State) (c : IopChan) : Except DecodeError (Instr × Nat × State) :=
  match s.fetch89With c with
  | .ok (i, n, t) =>
    if isLpdi i && (!c.look.isEmpty || c.kept.isSome) then s.bump.fetch89With { c with look := [], kept := none }
    else .ok (i, n, t)
  | .error e => .error e

/-- The fetch of an instruction whose last byte lies at an even address keeps the byte after it, on a 16-bit bus (R564).
-/
def Iop.keepsByte (p : Iop) (c : IopChan) (i : Instr) : Bool :=
  c.tp.toNat % 2 == 1 && p.wide c.tagTp && !isLpdi i

/-- The channel runs the instruction `i` of `n` bytes: TP is TP_next (R596). -/
def State.iopTake (s : State) (ch : ChanNo) (i : Instr) (n : Nat) : State :=
  let c := s.iop.chan ch
  let c := { c with tp := c.tp + BitVec.ofNat 20 n }
  let c := { c with queued := s.iop.keepsByte c i, look := [], kept := none }
  { s with iop := { s.iop.setChan ch c with cur := ch } }

/-- The last word of an instruction has been fetched with the byte at TP, which the queue of channel `ch` keeps; a device
has then been read (R564). -/
def State.iopKeep (s : State) (ch : ChanNo) : State :=
  let c := s.iop.chan ch
  match c.queued, s.iopRegion c.tagTp c.tp.toNat with
  | true, .device _ _ =>
    let b := s.iopRead8 c.tagTp c.tp.toNat
    { b.2 with iop := b.2.iop.setChan ch { b.2.iop.chan ch with kept := some b.1 } }
  | _, _ => s

/-- The state in which the channel instruction `i` of `n` bytes runs. -/
def State.iopBegun (s : State) (ch : ChanNo) (i : Instr) (n : Nat) : State := (s.iopTake ch i n).iopKeep ch

/-- After the instruction that follows XFER the transfer begins (R649, D44). -/
def State.iopAfter (s : State) (ch : ChanNo) (wasArmed : Bool) : State :=
  if wasArmed then
    let c := s.iop.chan ch
    let c := { c.setPsw 6 true with armed := false, activity := .transfer, held := [], cycle := none }
    { s with iop := s.iop.setChan ch c }
  else s

/-! ### Who moves -/

/-- An agent that takes a step. -/
inductive Agent
  | cpu
  | iop
  | fpu
  | event (e : Event)
  | nobody
  deriving DecidableEq, Repr

/-- The CPU has something to do: it is not halted, or a request ends the halt. -/
def State.cpuReady (s : State) : Bool := !s.cpu.halted || s.requested

/-- The VM89 is there and has something to do. -/
def State.iopReady (s : State) : Bool := s.plat.hasVm89 && s.iop.ready

/-- The CPU holds the bus: a LOCK byte has been taken and its instruction is not complete (20_memory.md R125). -/
def State.cpuLocks (s : State) : Bool := s.cpu.lead.lock

/-- The VM87 has something to do: it executes an instruction or has bytes to write (47_vm87_instructions.md R462). -/
def State.fpuReady (s : State) : Bool := s.plat.hasVm87 && s.run.active

/-- The next turn of the VM87 makes a bus cycle: it writes a result or reads its operand (R462). -/
noncomputable def FpuRun.needsBus (r : FpuRun) : Bool :=
  match r.writes, r.jobs with
  | _ :: _, _ => true
  | [], [] => false
  | [], j :: _ =>
    match j.source with
    | some (_, need) => decide (j.got.length < need)
    | none => false

/-- The VM87 can take a turn: a LOCK of another master keeps it off the bus, and from nothing else (20_memory.md R125,
45_processor_control.md R369). DESIGN CHOICE (log 10): that holds of a LOCK before WAIT too, for which R369 also says that
it has no visible effect, so that such a WAIT can keep off for ever the very VM87 it waits for. -/
noncomputable def State.fpuMay (s : State) : Bool :=
  s.fpuReady && (!(s.cpuLocks || s.iop.lockOut) || !s.run.needsBus)

/-- A VM89 with a bus of its own makes a cycle of the system bus in the next bus cycle of its transfer (48_vm89_iop.md
R562), or drives LOCK (R660). -/
def IopChan.transferNeedsBus (c : IopChan) : Bool :=
  bit c.cc 9 || c.suspending || (if c.writesNext then !c.dst.1 else !c.src.1 || (bit c.cc 13 && !c.tagGc))

/-- The instruction `i` of a channel program makes a cycle of the system bus, its fetch left aside: it has an operand
there, or is HLT, which clears BUSY. -/
def IopChan.usesBus (c : IopChan) (i : Instr) : Bool :=
  match i with
  | .iHlt => true
  | i => (iopMems i).any fun m => !c.space m

/-- The next turn of the VM89 needs the system bus: always without a bus of its own (R561, R562), for the initialisation
and for the answer to a channel attention. -/
noncomputable def State.iopNeedsBus (s : State) : Bool :=
  let c := s.iop.chan s.iop.nextChan
  !s.plat.iopRemote || !s.iop.initialised ||
    match c.task with
    | .transfer => c.transferNeedsBus
    | .program =>
      !c.tagTp || match s.fetch89 c with
        | .ok (i, _, _) => c.usesBus i
        | .error _ => false
    | _ => true

/-- The VM89 can take a turn: a LOCK of the CPU keeps it off the system bus, and from nothing else (20_memory.md R125).
-/
noncomputable def State.iopMay (s : State) : Bool := s.iopReady && (!s.cpuLocks || !s.iopNeedsBus)

/-- HLDA cannot be given now: a LOCK holds the bus, that of a WAIT too (log 10), or the CPU has still to get a bus cycle
after a byte of single mode (49_platform_devices.md R742, R748); a halted CPU makes none. -/
def State.grantWaits (s : State) : Bool :=
  s.cpuLocks || s.iop.lockOut || ((s.vt37.yield || s.cascaded.any Vt37.yield) && !s.cpu.halted)

/-- Between the CPU and the VM87, when the VM89 does not move: a CPU that is halted, waits in WAIT, or is kept off the
bus by the VM89's LOCK, lets the VM87 go on; else which of them moves is free (log 10). -/
noncomputable def State.cpuOrFpu (s : State) : Agent × State :=
  if s.iop.lockOut then (if s.fpuMay then .fpu else .nobody, s)
  else if !s.fpuMay then (.cpu, s)
  else if !s.cpuReady || (s.cpu.phase == .testing && !s.requested) then (.fpu, s)
  else (if Config.arbiter s.free then .fpu else .cpu, s.bump)

/-- A VM89 in the local configuration and the VM87 can both ask the CPU for the bus now (60_exceptions.md R841,
48_vm89_iop.md R562). -/
noncomputable def State.bothAsk (s : State) : Bool :=
  !s.plat.iopRemote && s.iopMay && s.fpuMay && s.run.needsBus

/-- The agent of the next step when the agenda names none. Whether the VM89 and the VM87 ask for the bus at the same
moment is timing and so free; where they do, the one on RQ/GT0 has it (60_exceptions.md R841; log 10). -/
noncomputable def State.freeAgent (s : State) : Agent × State :=
  if !s.iopMay then s.cpuOrFpu
  else if s.bothAsk && Config.freeBit s.free then (if s.plat.fpuOnGt0 then .fpu else .iop, s.bump)
  else if (s.iop.lockOut || !s.cpuReady) && !s.fpuMay then (.iop, s)
  else if Config.arbiter s.free then (.iop, s.bump)
  else s.bump.cpuOrFpu

/-- The agent of the next step, and the state with the event taken. A grant of the bus to the VT37 that must wait is
delayed, and given as soon as it can be (49_platform_devices.md R748); another grant that a LOCK forbids is not given
(20_memory.md R125, 48_vm89_iop.md R660; log 10). -/
noncomputable def State.nextAgent (s : State) : Agent × State :=
  match s.env.delayed, s.grantWaits with
  | e :: r, false => (.event e, { s with env := { s.env with delayed := r } })
  | _, _ =>
    match s.env.agenda with
    | e :: r =>
      let t := { s with env := { s.env with agenda := r } }
      match e with
      | .grantCpu => (if s.iop.lockOut then .nobody else .cpu, t)
      | .grantIop => (if s.iopMay then .iop else .event .grantIop, t)
      | .grantFpu => (if s.fpuMay then .fpu else .event .grantFpu, t)
      | .dmaGrant k eop data =>
        if s.grantWaits then (.nobody, { t with env := { t.env with delayed := s.env.delayed ++ [.dmaGrant k eop data] } })
        else (.event (.dmaGrant k eop data), t)
      | e => (.event e, t)
    | [] => s.freeAgent

end Sys2Proof.Machine
end

