-- ==== Sys2Proof/Machine/Place.lean ====
section
/-! DEFINITION. How an instruction is put where the next step fetches it (log 11). -/

namespace Sys2Proof.Machine

/-- Bytes stored at CS:IP and beyond. -/
def State.placeCode (s : State) (off : Word) : List Byte → State
  | [] => s
  | b :: r => ({ s with mem := s.mem.put (phys s.cpu.cs off) b }).placeCode (off + 1#16) r

/-- Bytes stored in system memory from an address. -/
def State.placeAt (s : State) (a : Nat) : List Byte → State
  | [] => s
  | b :: r => ({ s with mem := s.mem.put (a % 2 ^ 20) b }).placeAt (a + 1) r

/-- The next step is the CPU's and fetches at CS:IP; an ESC finds a VM87, which executes it in that step (D33). -/
def State.readyCpu (s : State) (esc : Bool) : State :=
  { s with
    cpu := { s.cpu with phase := .complete, halted := false, stale := [], ahead := [] },
    iop := { s.iop with lockOut := false },
    plat := if esc then { s.plat with hasVm87 := true, maxMode := true, vm87Atomic := true } else s.plat,
    run := FpuRun.idle,
    env := { s.env with agenda := .grantCpu :: s.env.agenda, delayed := [] } }

/-- The next step is the VM89's, which runs a channel 1 program in system memory at its TP. -/
def State.readyIop (s : State) : State :=
  let c := { s.iop.ch1.setPsw 2 true with activity := .program, armed := false, ca := false, queued := false, look := [],
                                          kept := none,                                          tagTp := false }
  let d := { s.iop.ch2.quiet with ca := false }
  { s with
    cpu := { s.cpu with lead := { s.cpu.lead with lock := false } },
    iop := { s.iop with ch1 := c, ch2 := d, cur := .one, initialised := true, firstCa := none, lockOut := false },
    plat := { s.plat with hasVm89 := true, maxMode := true },
    run := FpuRun.idle,
    env := { s.env with agenda := .grantIop :: s.env.agenda, delayed := [] } }

/-- The first byte is an ESC (45_processor_control.md R372). -/
def startsWithEsc (bs : List Byte) : Bool := (bs.headD 0#8).toNat / 8 == 27

/-- A word of the opcode table placed: a VM86 or VM87 word at CS:IP, a VM89 word at the TP of channel 1. -/
noncomputable def State.placeWord (s : State) (nbits w : Nat) : State :=
  let bs := tableBytes nbits w
  if tableIsIop nbits w then (s.placeAt s.iop.ch1.tp.toNat bs).readyIop
  else (s.placeCode s.cpu.ip bs).readyCpu (startsWithEsc bs)

end Sys2Proof.Machine
end

