-- ==== Sys2Proof/Machine/Turn.lean ====
section
/-! DEFINITION. One turn of each agent, over the meanings of the instructions: one agent does one thing (log 9, log 10). -/

namespace Sys2Proof.Machine

/-- The meanings of the instructions. -/
abbrev Meaning := Instr → State → Result

/-- The CPU's step of an instruction. An ESC of a VM87 that works beside the CPU is taken by it and executed in turns of
its own; with the parameter `vm87Atomic` it is executed at once (47_vm87_instructions.md R465, D33). -/
noncomputable def cpuInstruction (run : Meaning) (i : Instr) (s : State) : Result :=
  if s.plat.hasVm87 && !s.plat.vm87Atomic then
    match escOf i with
    | some (x, second, rm) => s.fpuIssue i x second rm
    | none => run i s
  else run i s

/-- After a step of the CPU: the boundary, and the end of the VT37's outputs. -/
def State.cpuDone (s : State) : State := s.boundary.endGrant

/-- One turn of the CPU: an instruction, a leading byte, an element of a repeated string instruction or a TEST cycle,
then the boundary (60_exceptions.md R811). -/
noncomputable def cpuTurn (run : Meaning) (s : State) : Result :=
  if s.cpu.halted then .next s.haltedStep.endGrant
  else
    match s.cpu.phase with
    | .element i => onNext (run i s.again) State.cpuDone
    | .testing => onNext (run .wait s.again) State.cpuDone
    | _ =>
      match s.fetch86 with
      | .ok (i, n, t) => onNext (cpuInstruction run i (t.begun n)) State.cpuDone
      | .error e => .refused (.noInstruction e)

/-- An instruction of the program of channel `n` (48_vm89_iop.md R596, R649). -/
noncomputable def iopInstruction (run : Meaning) (s : State) (n : ChanNo) : Result :=
  match s.fetch89 (s.iop.chan n) with
  | .ok (i, k, t) => onNext (run i (t.iopBegun n i k)) fun u => u.iopAfter n (s.iop.chan n).armed
  | .error e => .refused (.noInstruction e)

/-- One turn of the VM89: the initialisation, an answer to a channel attention, a bus cycle of a transfer or one
instruction of a channel program (48_vm89_iop.md R660). -/
noncomputable def iopTurn (run : Meaning) (s : State) : Result :=
  if !s.iop.initialised then
    match s.iop.firstCa with
    | some sel => s.iopInitialise sel
    | none => .next s
  else
    match (s.iop.chan s.iop.nextChan).task with
    | .nothing => .next s
    | .answer => s.iopAnswer s.iop.nextChan
    | .transfer => s.iopTransfer s.iop.nextChan
    | .program => iopInstruction run s s.iop.nextChan

/-- One turn of the VM87 that works beside the CPU (47_vm87_instructions.md R462): a word of a result is written, or a
word of a source operand read, or the instruction executed. -/
noncomputable def fpuTurn (run : Meaning) (s : State) : Result :=
  match s.run.writes, s.run.jobs with
  | _ :: _, _ => .next s.fpuWriteOn
  | [], [] => .next s
  | [], j :: r =>
    match j.source with
    | some (m, need) =>
      if j.got.length < need then .next (s.fpuReadOn j r m need)
      else onNext (run j.instr (s.fpuEnter j r)) fun t => t.fpuLeave s.cpu
    | none => onNext (run j.instr (s.fpuEnter j r)) fun t => t.fpuLeave s.cpu

/-- What an agent does. -/
noncomputable def agentTurn (run : Meaning) (a : Agent) (s : State) : Result :=
  match a with
  | .cpu => cpuTurn run s
  | .iop => iopTurn run s
  | .fpu => fpuTurn run s
  | .event e => s.event e
  | .nobody => .next s

/-- The end of a turn: an edge of the line wired to NMI is latched (log 50), and the VT37s look at their requests
(49_platform_devices.md R746; log 59). -/
def State.turnDone (old new : State) : State := (old.watchNmi new).settleDma

/-- One turn of the machine. -/
noncomputable def turn (run : Meaning) (s : State) : Result :=
  onNext (agentTurn run s.nextAgent.1 s.nextAgent.2) s.turnDone

end Sys2Proof.Machine
end

