-- ==== Sys2Proof/Machine/Step.lean ====
section
/-! DEFINITION. The step of the machine, and a word of the opcode table put where the next step runs it. -/

namespace Sys2Proof.Machine

/-- One step of the machine (log 9, log 10). -/
noncomputable def step (s : State) : Host.Outcome State Fault Refusal := turn exec s

/-- `s` with a word of the opcode table stored where the next step fetches and runs it (log 11). -/
noncomputable def State.withFetchWord (s : State) (nbits w : Nat) : State := s.placeWord nbits w

end Sys2Proof.Machine
end

