-- ==== Sys2Proof/WellFormed.lean ====
section
/-! DEFINITION. Which instruction terms are well-formed: those that stand for some bytes. The conditions exclude a
second spelling of another row's bytes and the operand codes the spec forbids. -/

namespace Sys2Proof

/-- md = 00 with r/m = 110 is the direct address (30_encoding.md R155): BP without displacement has no encoding. -/
def MemOp.wf : MemOp → Bool
  | .direct _ => true
  | .noDisp r => r != .bp
  | .disp8 _ _ => true
  | .disp16 _ _ => true

/-- A well-formed r/m operand. -/
def RM.wf : RM → Bool
  | .reg _ => true
  | .mem m => m.wf

/-- The well-formed instructions. CS is no destination (93_implementation_defined.md U3, U7), XCHG AX,AX is NOP (R207),
an ESC that Table 3.11 lists is a VM87 row, ADDBI and ADDI to TP are JMP and LJMP (48_vm89_iop.md R629, R630). -/
noncomputable def Instr.wf : Instr → Bool
  | .movRmR _ _ _ rm => rm.wf
  | .movRmImm rm _ => rm.wf
  | .movRImm _ _ => true
  | .movAcc _ _ _ => true
  | .movSrRm sr rm => sr != .cs && rm.wf
  | .movRmSr _ rm => rm.wf
  | .xchgRRm _ _ rm => rm.wf
  | .xchgAxR r => r != .ax
  | .nop => true
  | .xlat => true
  | .lea _ m => m.wf
  | .lds _ m => m.wf
  | .les _ m => m.wf
  | .lahf => true
  | .sahf => true
  | .pushRm rm => rm.wf
  | .pushR _ => true
  | .pushSr _ => true
  | .popRm rm => rm.wf
  | .popR _ => true
  | .popSr sr => sr != .cs
  | .pushf => true
  | .popf => true
  | .inPort _ _ => true
  | .inDx _ => true
  | .outPort _ _ => true
  | .outDx _ => true
  | .addRmR _ _ _ rm => rm.wf
  | .addRmImm rm _ => rm.wf
  | .addAccImm _ => true
  | .adcRmR _ _ _ rm => rm.wf
  | .adcRmImm rm _ => rm.wf
  | .adcAccImm _ => true
  | .subRmR _ _ _ rm => rm.wf
  | .subRmImm rm _ => rm.wf
  | .subAccImm _ => true
  | .sbbRmR _ _ _ rm => rm.wf
  | .sbbRmImm rm _ => rm.wf
  | .sbbAccImm _ => true
  | .cmpRmR _ _ _ rm => rm.wf
  | .cmpRmImm rm _ => rm.wf
  | .cmpAccImm _ => true
  | .incRm _ rm => rm.wf
  | .incR _ => true
  | .decRm _ rm => rm.wf
  | .decR _ => true
  | .negRm _ rm => rm.wf
  | .mulRm _ rm => rm.wf
  | .imulRm _ rm => rm.wf
  | .divRm _ rm => rm.wf
  | .idivRm _ rm => rm.wf
  | .cbw => true
  | .cwd => true
  | .daa => true
  | .das => true
  | .aaa => true
  | .aas => true
  | .aam => true
  | .aad => true
  | .andRmR _ _ _ rm => rm.wf
  | .andRmImm rm _ => rm.wf
  | .andAccImm _ => true
  | .orRmR _ _ _ rm => rm.wf
  | .orRmImm rm _ => rm.wf
  | .orAccImm _ => true
  | .xorRmR _ _ _ rm => rm.wf
  | .xorRmImm rm _ => rm.wf
  | .xorAccImm _ => true
  | .testRmR _ _ rm => rm.wf
  | .testRmImm rm _ => rm.wf
  | .testAccImm _ => true
  | .notRm _ rm => rm.wf
  | .rolRm _ _ rm => rm.wf
  | .rorRm _ _ rm => rm.wf
  | .rclRm _ _ rm => rm.wf
  | .rcrRm _ _ rm => rm.wf
  | .shlRm _ _ rm => rm.wf
  | .shrRm _ _ rm => rm.wf
  | .sarRm _ _ rm => rm.wf
  | .movs _ => true
  | .cmps _ => true
  | .scas _ => true
  | .lods _ => true
  | .stos _ => true
  | .repPrefix _ => true
  | .jmpShort _ => true
  | .jmpNear _ => true
  | .jmpRm rm => rm.wf
  | .jmpFar _ _ => true
  | .jmpMem m => m.wf
  | .callNear _ => true
  | .callRm rm => rm.wf
  | .callFar _ _ => true
  | .callMem m => m.wf
  | .retNear => true
  | .retFar => true
  | .retNearImm _ => true
  | .retFarImm _ => true
  | .jo _ => true
  | .jno _ => true
  | .jb _ => true
  | .jnb _ => true
  | .je _ => true
  | .jne _ => true
  | .jbe _ => true
  | .ja _ => true
  | .js _ => true
  | .jns _ => true
  | .jp _ => true
  | .jnp _ => true
  | .jl _ => true
  | .jge _ => true
  | .jle _ => true
  | .jg _ => true
  | .loopne _ => true
  | .loope _ => true
  | .loop _ => true
  | .jcxz _ => true
  | .intN _ => true
  | .int3 => true
  | .into => true
  | .iret => true
  | .clc => true
  | .stc => true
  | .cmc => true
  | .cld => true
  | .std => true
  | .cli => true
  | .sti => true
  | .hlt => true
  | .wait => true
  | .esc x y rm => (fpuRow x.toNat y.toNat rm).isNone && rm.wf
  | .lockPrefix => true
  | .segPrefix _ => true
  | .fldM32 m => m.wf
  | .fldM64 m => m.wf
  | .fldM80 m => m.wf
  | .fldSti _ => true
  | .fildM16i m => m.wf
  | .fildM32i m => m.wf
  | .fildM64i m => m.wf
  | .fbldM80 m => m.wf
  | .fstM32 m => m.wf
  | .fstM64 m => m.wf
  | .fstSti _ => true
  | .fistM16i m => m.wf
  | .fistM32i m => m.wf
  | .fstpM32 m => m.wf
  | .fstpM64 m => m.wf
  | .fstpM80 m => m.wf
  | .fstpSti _ => true
  | .fistpM16i m => m.wf
  | .fistpM32i m => m.wf
  | .fistpM64i m => m.wf
  | .fbstpM80 m => m.wf
  | .fxchSti _ => true
  | .fldz => true
  | .fld1 => true
  | .fldpi => true
  | .fldl2t => true
  | .fldl2e => true
  | .fldlg2 => true
  | .fldln2 => true
  | .fcomM32 m => m.wf
  | .fcomM64 m => m.wf
  | .fcomSti _ => true
  | .ficomM16i m => m.wf
  | .ficomM32i m => m.wf
  | .fcompM32 m => m.wf
  | .fcompM64 m => m.wf
  | .fcompSti _ => true
  | .ficompM16i m => m.wf
  | .ficompM32i m => m.wf
  | .fcompp => true
  | .ftst => true
  | .fxam => true
  | .faddM32 m => m.wf
  | .faddM64 m => m.wf
  | .faddStSti _ => true
  | .faddStiSt _ => true
  | .fiaddM16i m => m.wf
  | .fiaddM32i m => m.wf
  | .faddpStiSt _ => true
  | .fmulM32 m => m.wf
  | .fmulM64 m => m.wf
  | .fmulStSti _ => true
  | .fmulStiSt _ => true
  | .fimulM16i m => m.wf
  | .fimulM32i m => m.wf
  | .fmulpStiSt _ => true
  | .fsubM32 m => m.wf
  | .fsubM64 m => m.wf
  | .fsubStSti _ => true
  | .fsubStiSt _ => true
  | .fsubrM32 m => m.wf
  | .fsubrM64 m => m.wf
  | .fsubrStSti _ => true
  | .fsubrStiSt _ => true
  | .fdivM32 m => m.wf
  | .fdivM64 m => m.wf
  | .fdivStSti _ => true
  | .fdivStiSt _ => true
  | .fdivrM32 m => m.wf
  | .fdivrM64 m => m.wf
  | .fdivrStSti _ => true
  | .fdivrStiSt _ => true
  | .fsubpStiSt _ => true
  | .fsubrpStiSt _ => true
  | .fisubM16i m => m.wf
  | .fisubM32i m => m.wf
  | .fisubrM16i m => m.wf
  | .fisubrM32i m => m.wf
  | .fdivpStiSt _ => true
  | .fdivrpStiSt _ => true
  | .fidivM16i m => m.wf
  | .fidivM32i m => m.wf
  | .fidivrM16i m => m.wf
  | .fidivrM32i m => m.wf
  | .fsqrt => true
  | .fscale => true
  | .fprem => true
  | .frndint => true
  | .fxtract => true
  | .fabs => true
  | .fchs => true
  | .fptan => true
  | .fpatan => true
  | .f2xm1 => true
  | .fyl2x => true
  | .fyl2xp1 => true
  | .fincstp => true
  | .fdecstp => true
  | .fnop => true
  | .finit => true
  | .feni => true
  | .fdisi => true
  | .fclex => true
  | .fldcw m => m.wf
  | .fstcw m => m.wf
  | .fstsw m => m.wf
  | .fstenv m => m.wf
  | .fldenv m => m.wf
  | .fsave m => m.wf
  | .frstor m => m.wf
  | .ffreeSti _ => true
  | .iMovRegMem _ _ => true
  | .iMovMemReg _ _ => true
  | .iMovMemMem _ _ => true
  | .iMovbRegMem _ _ => true
  | .iMovbMemReg _ _ => true
  | .iMovbMemMem _ _ => true
  | .iMoviRegData _ _ => true
  | .iMoviMemData _ _ => true
  | .iMovbiRegData _ _ => true
  | .iMovbiMemData _ _ => true
  | .iMovpPtrMem _ _ => true
  | .iMovpMemPtr _ _ => true
  | .iLpdPtrMem _ _ => true
  | .iLpdiPtr _ _ _ => true
  | .iAddRegMem _ _ => true
  | .iAddMemReg _ _ => true
  | .iAddbRegMem _ _ => true
  | .iAddbMemReg _ _ => true
  | .iAddiRegData r _ => r != .tp
  | .iAddiMemData _ _ => true
  | .iAddbiRegData r _ => r != .tp
  | .iAddbiMemData _ _ => true
  | .iIncReg _ => true
  | .iIncMem _ => true
  | .iIncbMem _ => true
  | .iDecReg _ => true
  | .iDecMem _ => true
  | .iDecbMem _ => true
  | .iAndRegMem _ _ => true
  | .iAndMemReg _ _ => true
  | .iAndbRegMem _ _ => true
  | .iAndbMemReg _ _ => true
  | .iAndiRegData _ _ => true
  | .iAndiMemData _ _ => true
  | .iAndbiRegData _ _ => true
  | .iAndbiMemData _ _ => true
  | .iOrRegMem _ _ => true
  | .iOrMemReg _ _ => true
  | .iOrbRegMem _ _ => true
  | .iOrbMemReg _ _ => true
  | .iOriRegData _ _ => true
  | .iOriMemData _ _ => true
  | .iOrbiRegData _ _ => true
  | .iOrbiMemData _ _ => true
  | .iNotReg _ => true
  | .iNotMem _ => true
  | .iNotRegMem _ _ => true
  | .iNotbMem _ => true
  | .iNotbRegMem _ _ => true
  | .iSetbMem _ _ => true
  | .iClrMem _ _ => true
  | .iCallMem _ _ => true
  | .iLcallMem _ _ => true
  | .iJmp _ => true
  | .iLjmp _ => true
  | .iJzReg _ _ => true
  | .iJzMem _ _ => true
  | .iLjzReg _ _ => true
  | .iLjzMem _ _ => true
  | .iJzbMem _ _ => true
  | .iLjzbMem _ _ => true
  | .iJnzReg _ _ => true
  | .iJnzMem _ _ => true
  | .iLjnzReg _ _ => true
  | .iLjnzMem _ _ => true
  | .iJnzbMem _ _ => true
  | .iLjnzbMem _ _ => true
  | .iJmceMem _ _ => true
  | .iLjmceMem _ _ => true
  | .iJmcneMem _ _ => true
  | .iLjmcneMem _ _ => true
  | .iJbtMem _ _ _ => true
  | .iLjbtMem _ _ _ => true
  | .iJnbtMem _ _ _ => true
  | .iLjnbtMem _ _ _ => true
  | .iTslMemData _ _ _ => true
  | .iWid _ _ => true
  | .iXfer => true
  | .iSintr => true
  | .iHlt => true
  | .iNop => true

/-- The instructions of the VM89 (48_vm89_iop.md); the others are the VM86's and the VM87's. -/
noncomputable def Instr.isIop : Instr → Bool
  | .iMovRegMem _ _ => true
  | .iMovMemReg _ _ => true
  | .iMovMemMem _ _ => true
  | .iMovbRegMem _ _ => true
  | .iMovbMemReg _ _ => true
  | .iMovbMemMem _ _ => true
  | .iMoviRegData _ _ => true
  | .iMoviMemData _ _ => true
  | .iMovbiRegData _ _ => true
  | .iMovbiMemData _ _ => true
  | .iMovpPtrMem _ _ => true
  | .iMovpMemPtr _ _ => true
  | .iLpdPtrMem _ _ => true
  | .iLpdiPtr _ _ _ => true
  | .iAddRegMem _ _ => true
  | .iAddMemReg _ _ => true
  | .iAddbRegMem _ _ => true
  | .iAddbMemReg _ _ => true
  | .iAddiRegData _ _ => true
  | .iAddiMemData _ _ => true
  | .iAddbiRegData _ _ => true
  | .iAddbiMemData _ _ => true
  | .iIncReg _ => true
  | .iIncMem _ => true
  | .iIncbMem _ => true
  | .iDecReg _ => true
  | .iDecMem _ => true
  | .iDecbMem _ => true
  | .iAndRegMem _ _ => true
  | .iAndMemReg _ _ => true
  | .iAndbRegMem _ _ => true
  | .iAndbMemReg _ _ => true
  | .iAndiRegData _ _ => true
  | .iAndiMemData _ _ => true
  | .iAndbiRegData _ _ => true
  | .iAndbiMemData _ _ => true
  | .iOrRegMem _ _ => true
  | .iOrMemReg _ _ => true
  | .iOrbRegMem _ _ => true
  | .iOrbMemReg _ _ => true
  | .iOriRegData _ _ => true
  | .iOriMemData _ _ => true
  | .iOrbiRegData _ _ => true
  | .iOrbiMemData _ _ => true
  | .iNotReg _ => true
  | .iNotMem _ => true
  | .iNotRegMem _ _ => true
  | .iNotbMem _ => true
  | .iNotbRegMem _ _ => true
  | .iSetbMem _ _ => true
  | .iClrMem _ _ => true
  | .iCallMem _ _ => true
  | .iLcallMem _ _ => true
  | .iJmp _ => true
  | .iLjmp _ => true
  | .iJzReg _ _ => true
  | .iJzMem _ _ => true
  | .iLjzReg _ _ => true
  | .iLjzMem _ _ => true
  | .iJzbMem _ _ => true
  | .iLjzbMem _ _ => true
  | .iJnzReg _ _ => true
  | .iJnzMem _ _ => true
  | .iLjnzReg _ _ => true
  | .iLjnzMem _ _ => true
  | .iJnzbMem _ _ => true
  | .iLjnzbMem _ _ => true
  | .iJmceMem _ _ => true
  | .iLjmceMem _ _ => true
  | .iJmcneMem _ _ => true
  | .iLjmcneMem _ _ => true
  | .iJbtMem _ _ _ => true
  | .iLjbtMem _ _ _ => true
  | .iJnbtMem _ _ _ => true
  | .iLjnbtMem _ _ _ => true
  | .iTslMemData _ _ _ => true
  | .iWid _ _ => true
  | .iXfer => true
  | .iSintr => true
  | .iHlt => true
  | .iNop => true
  | _ => false

end Sys2Proof
end

