-- ==== Sys2Proof/Safety.lean ====
section
/-! DEFINITION. What claims are stated in: outcomes, what an instruction leaves unchanged, which bytes it stores, and
the invariants of the machine. -/

namespace Sys2Proof.Machine

/-! ### Outcomes and invariants -/

/-- The answer of a step or a meaning is a next state. -/
def Completes (r : Result) : Prop := ∃ t, r = .next t

/-- Every memory is in canonical form, so that equal memories are equal lists: the system's, those of the two I/O spaces
and the RU55's. -/
def State.MemoryWf (s : State) : Prop :=
  s.mem.wf = true ∧ s.iomem.wf16 = true ∧ s.remote.wf16 = true ∧ Memory.wf8 s.ru55.ram = true

/-! ### What stands at an address -/

/-- RAM answers at a physical address of system memory (20_memory.md R119). -/
def State.isRam (s : State) (a : Nat) : Bool := (findRegion .ram a s.plat.memoryMap).1 == .ram

/-- ROM answers at a physical address. -/
def State.isRom (s : State) (a : Nat) : Bool := (findRegion .ram a s.plat.memoryMap).1 == .rom

/-- A memory answers at a physical address: a read gives the byte that stands there. -/
def State.isMemory (s : State) (a : Nat) : Bool := s.isRam a || s.isRom a

/-- No device answers at any address or port, in memory, the I/O space or the remote space. -/
def State.NoDevices (s : State) : Prop :=
  (∀ a d k, (findRegion .ram a s.plat.memoryMap).1 ≠ .device d k) ∧
  (∀ a d k, (findRegion .absent a s.plat.ioMap).1 ≠ .device d k) ∧
  (∀ a d k, (findRegion .ram a s.plat.remoteMap).1 ≠ .device d k)

/-! ### What an instruction leaves unchanged -/

/-- The CPU without what the model keeps of its queue, the old bytes and those read ahead from devices (20_memory.md
R130, R131), which stores and every transfer of control may change. -/
def Cpu.core (c : Cpu) : Cpu := { c with stale := [], ahead := [] }

/-- A VM89 channel without the request a CA pulse raises and what the model keeps of the look-ahead byte, which a cycle
of another agent may change (10_state.md R81, R82). -/
def IopChan.core (c : IopChan) : IopChan := { c with ca := false, look := [], kept := none }

/-- The VM89 without the same. -/
def Iop.core (p : Iop) : Iop := { p with ch1 := p.ch1.core, ch2 := p.ch2.core, firstCa := none }

/-- The devices are the same. -/
def State.SameDevices (s t : State) : Prop :=
  t.vt37 = s.vt37 ∧ t.cascaded = s.cascaded ∧ t.vi54 = s.vi54 ∧ t.vg72 = s.vg72 ∧ t.ru55 = s.ru55 ∧ t.rf55 = s.rf55

/-- Every byte of system memory reads as before. -/
def State.SameBytes (s t : State) : Prop := ∀ a, t.byteAt a = s.byteAt a

/-- The memories of the two I/O spaces are the same. -/
def State.SameIo (s t : State) : Prop := t.iomem = s.iomem ∧ t.remote = s.remote

/-- The VM87 and what it has in execution are the same. -/
def State.SameFpu (s t : State) : Prop := t.fpu = s.fpu ∧ t.run = s.run

/-- What memory cycles of the CPU leave unchanged: the VM87, the VM89's registers, the I/O spaces, the environment and
the platform; and every device, when no device answers anywhere. -/
def State.SameBeyondBus (s t : State) : Prop :=
  s.SameFpu t ∧ t.iop.core = s.iop.core ∧ s.SameIo t ∧ t.env = s.env ∧ t.plat = s.plat ∧
  (s.NoDevices → s.SameDevices t)

/-- What port cycles of the CPU leave unchanged: the same, but for the memory of the I/O space at the ports `p`. -/
def State.SameBeyondPorts (s t : State) (p : Nat → Prop) : Prop :=
  s.SameBeyondBus { t with iomem := s.iomem } ∧ ∀ x, ¬p x → t.iomem.get x = s.iomem.get x

/-- Nothing outside the CPU changes, but for the index of the next free value. -/
def State.SameOutside (s t : State) : Prop :=
  s.SameFpu t ∧ t.iop = s.iop ∧ s.SameIo t ∧ t.env = s.env ∧ t.plat = s.plat ∧ s.SameDevices t ∧ s.SameBytes t

/-- The CPU is `c`, but for the old bytes of its queue, and no byte of memory is stored. -/
def State.Loads (s t : State) (c : Cpu) : Prop :=
  t.cpu.core = c.core ∧ s.SameBytes t ∧ s.SameBeyondBus t

/-- The `n` bytes of `v`, the lowest first, are stored at the addresses `addr 0`, `addr 1`, ..., where RAM answers;
every other byte of memory reads as before (20_memory.md R104). -/
def State.StoredAt (s t : State) (n : Nat) (addr : Nat → Nat) (v : Nat) : Prop :=
  (∀ a, (∀ k, k < n → a ≠ addr k) → t.byteAt a = s.byteAt a) ∧
  (∀ k, k < n → s.isRam (addr k) = true → t.byteAt (addr k) = BitVec.ofNat 8 (v / 256 ^ k)) ∧
  (∀ k, k < n → s.isRam (addr k) = false → t.byteAt (addr k) = s.byteAt (addr k))

/-- The CPU is `c`, and the `n` bytes of `v` are stored at the given addresses. -/
def State.Stores (s t : State) (c : Cpu) (n : Nat) (addr : Nat → Nat) (v : Nat) : Prop :=
  t.cpu.core = c.core ∧ s.StoredAt t n addr v ∧ s.SameBeyondBus t

/-- The value `v` goes to the operand `rm` and the flags become `f`; nothing else changes: a register destination
changes that register alone, a memory destination the bytes of the operand alone. -/
def State.Delivers (s t : State) (w : Width) (rm : RM) (v : Word) (f : Flags) : Prop :=
  match rm with
  | .reg r => s.Loads t { s.cpu.setReg w r v with f := f }
  | .mem m => s.Stores t { s.cpu with f := f } (widthBytes w) (s.cpu.memAddr m) v.toNat

/-! ### What an instruction reads -/

/-- `v` is the byte or word that stands at the addresses `addr 0`, `addr 1` (20_memory.md R103); where a device or
nothing answers it is any value of the width. -/
def State.BytesAre (s : State) (w : Width) (addr : Nat → Nat) (v : Word) : Prop :=
  match w with
  | .byte => v.toNat < 256 ∧ (s.isMemory (addr 0) = true → v = zext (s.byteAt (addr 0)))
  | .word =>
    s.isMemory (addr 0) = true → s.isMemory (addr 1) = true → v = wordOf (s.byteAt (addr 0)) (s.byteAt (addr 1))

/-- `v` is the value of the operand `rm`. -/
def State.OperandIs (s : State) (w : Width) (rm : RM) (v : Word) : Prop :=
  match rm with
  | .reg r => v = s.cpu.reg w r
  | .mem m => s.BytesAre w (s.cpu.memAddr m) v

/-- `off` and `seg` are the two words of the far pointer in memory (20_memory.md R107). -/
def State.FarIs (s : State) (m : MemOp) (off seg : Word) : Prop :=
  s.BytesAre .word (s.cpu.memAddr m) off ∧ s.BytesAre .word (fun k => s.cpu.memAddr m (2 + k)) seg

/-- The address of the byte `k` above the offset `sp` of the stack segment. -/
def stackAddr (ss sp : Word) (k : Nat) : Nat := phys ss (sp + BitVec.ofNat 16 k)

/-- `v` is the word `k` bytes above the top of the stack. -/
def State.StackIs (s : State) (k : Nat) (v : Word) : Prop :=
  s.BytesAre .word (fun j => stackAddr s.cpu.ss s.cpu.sp (k + j)) v

/-! ### What an instruction does -/

/-- The instruction completes and delivers a value to an operand, with new flags. -/
def Gives (s : State) (i : Instr) (w : Width) (rm : RM) (v : Word) (f : Flags) : Prop :=
  ∃ t, exec i s = .next t ∧ s.Delivers t w rm v f

/-- The instruction completes; the CPU becomes `c`; no byte is stored. -/
def Becomes (s : State) (i : Instr) (c : Cpu) : Prop := ∃ t, exec i s = .next t ∧ s.Loads t c

/-- The instruction completes; the CPU becomes `c`; nothing outside the CPU changes. -/
def Only (s : State) (i : Instr) (c : Cpu) : Prop := ∃ t, exec i s = .next t ∧ t.cpu.core = c.core ∧ s.SameOutside t

/-- The instruction completes; the CPU becomes `c`; `n` bytes of `v` are stored at the given addresses. -/
def Writes (s : State) (i : Instr) (c : Cpu) (n : Nat) (addr : Nat → Nat) (v : Nat) : Prop :=
  ∃ t, exec i s = .next t ∧ s.Stores t c n addr v

/-- The entry sequence of interrupt `n` from the CPU `c` (60_exceptions.md R812): F, CS and IP lie on the stack, IP at
the lowest address; IF and TF are 0; CS:IP is the vector's content; nothing else of the CPU changes. -/
def State.Enters (s t : State) (c : Cpu) (n : Byte) : Prop :=
  ∃ fl : Word, Flags.ofWord fl = c.f ∧
    s.StoredAt t 6 (stackAddr c.ss (c.sp - 6#16)) (c.ip.toNat + 2 ^ 16 * c.cs.toNat + 2 ^ 32 * fl.toNat) ∧
    t.cpu.core = { c with
      sp := c.sp - 6#16, f := { c.f with ifl := false, tf := false }, halted := false,
      cs := t.cpu.cs, ip := t.cpu.ip, stale := [], ahead := [] } ∧
    t.BytesAre .word (fun k => 4 * n.toNat + k) t.cpu.ip ∧
    t.BytesAre .word (fun k => 4 * n.toNat + 2 + k) t.cpu.cs ∧
    s.SameBeyondBus t

/-! ### The VM87 -/

/-- The VM87 without the exception pointers (10_state.md R57). -/
def Fpu.core (f : Fpu) : Fpu := { f with epInstr := 0#20, epOpcode := 0#11, epOperand := 0#20 }

/-- A VM87 is there. -/
def State.FpuThere (s : State) : Prop := s.plat.hasVm87 = true

/-- The same, and it is not busy. -/
def State.FpuReady (s : State) : Prop := s.FpuThere ∧ s.fpu.busy = false

/-- The exception pointers after an ESC (R57): the eleven bits of its two bytes, its address when no leading byte
stands before it, and the address of a memory operand. -/
def State.EpNoted (s t : State) (i : Instr) (operand : Option Nat) : Prop :=
  t.fpu.epOpcode = BitVec.ofNat 11 (((encode i).headD 0#8).toNat % 8 * 256 + ((encode i).tail.headD 0#8).toNat) ∧
  (s.cpu.lead.first = none → t.fpu.epInstr = BitVec.ofNat 20 (phys s.cpu.cs s.cpu.instrAddr)) ∧
  t.fpu.epOperand = match operand with
    | some a => BitVec.ofNat 20 a
    | none => s.fpu.epOperand

/-- The exception pointers stay. -/
def State.EpKept (s t : State) : Prop :=
  t.fpu.epOpcode = s.fpu.epOpcode ∧ t.fpu.epInstr = s.fpu.epInstr ∧ t.fpu.epOperand = s.fpu.epOperand

/-- Nothing outside the VM87 changes but what memory cycles change: the CPU up to its queue, the VM89's registers, the
I/O spaces, the environment and the platform stay; and every device, when no device answers anywhere. -/
def State.SameBesideFpu (s t : State) : Prop :=
  t.cpu.core = s.cpu.core ∧ t.run = s.run ∧ t.iop.core = s.iop.core ∧ s.SameIo t ∧ t.env = s.env ∧ t.plat = s.plat ∧
  (s.NoDevices → s.SameDevices t)

/-- The bytes of memory at `n` consecutive physical addresses as a number, the lowest first. -/
def State.numberAt (s : State) (a : Nat) : Nat → Nat
  | 0 => 0
  | n + 1 => (s.byteAt (a % 2 ^ 20)).toNat + 256 * s.numberAt (a + 1) n

/-- `v` is the operand of `n` bytes from the physical address `a` on (47_vm87_instructions.md R462): of a VM87 that works
beside the CPU the bytes that it has read, else what is read now; where a device or nothing answers that is any value of
the size. -/
def State.SourceIs (s : State) (a n v : Nat) : Prop :=
  v < 256 ^ n ∧
    match s.run.feed with
    | some bs => v = bytesNat bs % 256 ^ n
    | none => (∀ k, k < n → s.isMemory ((a + k) % 2 ^ 20) = true) → v = s.numberAt a n

/-- The `n` bytes of `v` go to the physical addresses from `a` on, and nothing else outside the VM87 changes: they are
stored; or, of a VM87 that works beside the CPU, queued for its own write cycles, and no byte is stored yet (R462). -/
def State.FpuStored (s t : State) (a n v : Nat) : Prop :=
  match s.run.feed with
  | none => s.StoredAt t n (fun k => (a + k) % 2 ^ 20) v ∧ s.SameBesideFpu t
  | some _ =>
    s.SameBytes t ∧ t.run = { s.run with writes := s.run.writes ++ cellsOf a v n } ∧
      s.SameBesideFpu { t with run := s.run }

/-- The instruction completes; the VM87 becomes `f`, its exception pointers as R57 says; no byte is stored. -/
def FpuBecomes (s : State) (i : Instr) (operand : Option Nat) (f : Fpu) : Prop :=
  ∃ t, exec i s = .next t ∧ t.fpu.core = f.core ∧ s.EpNoted t i operand ∧ s.SameBytes t ∧ s.SameBesideFpu t

/-- The same, and `n` bytes of `v` go to memory from the physical address `a` on. -/
def FpuWrites (s : State) (i : Instr) (a n v : Nat) (f : Fpu) : Prop :=
  ∃ t, exec i s = .next t ∧ t.fpu.core = f.core ∧ s.EpNoted t i (some a) ∧ s.FpuStored t a n v

/-! ### The VM89 -/

/-- The key of a cell of the VM89's system space or I/O space (48_vm89_iop.md R561). -/
def iopCell (io : Bool) (a : Nat) : Nat := if io then a % 2 ^ 16 else a % 2 ^ 20

/-- The memory of the VM89's I/O space: its own in the remote configuration, else the CPU's (R561, R562). -/
def State.iopIo (s : State) : Memory := if s.plat.iopRemote then s.remote else s.iomem

/-- The memory of the I/O space that the VM89 does not reach. -/
def State.farIo (s : State) : Memory := if s.plat.iopRemote then s.iomem else s.remote

/-- The byte that stands in a cell of the VM89's system space or I/O space. -/
def State.cellByte (s : State) (io : Bool) (x : Nat) : Byte := if io then s.iopIo.get x else s.mem.get x

/-- What answers at a cell of system memory or of the VM89's I/O space. -/
def State.cellKind (s : State) (io : Bool) (x : Nat) : RegionKind :=
  if io then
    (if s.plat.iopRemote then (findRegion .ram x s.plat.remoteMap).1 else (findRegion .absent x s.plat.ioMap).1)
  else (findRegion .ram x s.plat.memoryMap).1

/-- A memory answers. -/
def State.cellMemory (s : State) (io : Bool) (x : Nat) : Prop := s.cellKind io x = .ram ∨ s.cellKind io x = .rom

/-- Every byte of both spaces is as before. -/
def State.SameCells (s t : State) : Prop := ∀ io x, t.cellByte io x = s.cellByte io x

/-- The `n` bytes of `v` are stored from the address `a` of a space on, where RAM answers; every other byte of both
spaces is as before (R563). -/
def State.CellsStored (s t : State) (io : Bool) (n a v : Nat) : Prop :=
  (∀ io' x, (io' = io → ∀ k, k < n → x ≠ iopCell io (a + k)) → t.cellByte io' x = s.cellByte io' x) ∧
  ∀ k, k < n →
    t.cellByte io (iopCell io (a + k)) =
      if s.cellKind io (iopCell io (a + k)) = .ram then BitVec.ofNat 8 (v / 256 ^ k)
      else s.cellByte io (iopCell io (a + k))

/-- The channel that runs becomes `c`, but for a request by CA and the look-ahead byte; the other channel and the other
state of the VM89, the CPU, the VM87, the I/O space that the VM89 does not reach, the environment and the platform stay;
and every device, when no device answers anywhere. -/
def State.ChannelIs (s t : State) (c : IopChan) : Prop :=
  t.iop.core = (s.iop.setChan s.iop.cur c).core ∧ t.cpu.core = s.cpu.core ∧
  s.SameFpu t ∧ t.farIo = s.farIo ∧ t.env = s.env ∧ t.plat = s.plat ∧ (s.NoDevices → s.SameDevices t)

/-- `v` is the byte, sign-extended (R595, R607), or the word that stands at an address of a space; where a device or
nothing answers it is any value of the width. -/
def State.CellsAre (s : State) (w : Width) (io : Bool) (a : Nat) (v : Word) : Prop :=
  match w with
  | .byte => v = sext (lowByte v) ∧ (s.cellMemory io (iopCell io a) → lowByte v = s.cellByte io (iopCell io a))
  | .word =>
    s.cellMemory io (iopCell io a) → s.cellMemory io (iopCell io (a + 1)) →
      v = wordOf (s.cellByte io (iopCell io a)) (s.cellByte io (iopCell io (a + 1)))

/-- `v` is the memory operand of the channel that runs. -/
def State.IopOperandIs (s : State) (w : Width) (m : IMem) (v : Word) : Prop :=
  s.CellsAre w (s.ch.space m) (s.ch.ea m) v

/-- The instruction completes; the channel becomes `c`; no byte is stored. -/
def IopBecomes (s : State) (i : Instr) (c : IopChan) : Prop :=
  ∃ t, exec i s = .next t ∧ s.ChannelIs t c ∧ s.SameCells t

/-- The instruction completes; the channel becomes `c`; `n` bytes of `v` are stored in a space. -/
def IopWrites (s : State) (i : Instr) (c : IopChan) (io : Bool) (n a v : Nat) : Prop :=
  ∃ t, exec i s = .next t ∧ s.ChannelIs t c ∧ s.CellsStored t io n a v

end Sys2Proof.Machine
end

