-- ==== Sys2Proof/Certificates/Slice0/Obligations.lean ====
section
/-! DEFINITION. The statements about the model. Each docstring names the rules of spec/ that it formalises. -/

open Sys2Proof Sys2Proof.Machine

/-! ### The CPU: registers, memory, flags -/

/-- The part of an effective address that the registers give, and the default segment register (R105, R135). -/
def Sys2Proof.eaParts (c : Cpu) (e : EaRow) : Word × SReg :=
  match e with
  | .bxSi => (c.bx + c.si, .ds)
  | .bxDi => (c.bx + c.di, .ds)
  | .bpSi => (c.bp + c.si, .ss)
  | .bpDi => (c.bp + c.di, .ss)
  | .si => (c.si, .ds)
  | .di => (c.di, .ds)
  | .bp => (c.bp, .ss)
  | .bx => (c.bx, .ds)

/-- A byte register is half of a word register: a write of one byte register changes that byte alone, of every byte
register and of SP, BP, SI, DI; a word register written reads back, every other is as before (R20, R21). The physical
address, and the words of memory: the high byte stands at the next offset modulo 2^16 of the same segment. A read of
memory changes nothing; a write changes the bytes written alone, and RAM reads back what was written (R101, R103,
R104). The 24 effective addresses, the segment register of each, BP taking SS, and the override in its place (R105, R106,
R135). The sign extension of a byte of immediate data (R157). -/
def Obligations.RegistersAndMemoryAreLittleEndian : Prop :=
  (∀ (c : Cpu) (r q : GReg),
     (∀ b : Byte, (c.setReg8 r b).reg8 q = if q = r then b else c.reg8 q) ∧
     (∀ b : Byte, (c.setReg8 r b).sp = c.sp ∧ (c.setReg8 r b).bp = c.bp ∧ (c.setReg8 r b).si = c.si ∧
       (c.setReg8 r b).di = c.di) ∧
     (∀ v : Word, (c.setReg16 r v).reg16 q = if q = r then v else c.reg16 q) ∧
     c.ax = wordOf (c.reg8 .ax) (c.reg8 .sp) ∧ c.cx = wordOf (c.reg8 .cx) (c.reg8 .bp) ∧
     c.dx = wordOf (c.reg8 .dx) (c.reg8 .si) ∧ c.bx = wordOf (c.reg8 .bx) (c.reg8 .di)) ∧
  (∀ (s : State) (w : Width) (seg off v : Word),
     phys seg off = (16 * seg.toNat + off.toNat) % 2 ^ 20 ∧
     (s.isMemory (phys seg off) = true → s.readMem .byte seg off = (zext (s.byteAt (phys seg off)), s)) ∧
     (s.isMemory (phys seg off) = true → s.isMemory (phys seg (off + 1#16)) = true →
       s.readMem .word seg off = (wordOf (s.byteAt (phys seg off)) (s.byteAt (phys seg (off + 1#16))), s)) ∧
     s.Stores (s.writeMem w seg off v) s.cpu (widthBytes w) (fun k => phys seg (off + BitVec.ofNat 16 k)) v.toNat ∧
     (s.isRam (phys seg off) = true → s.isRam (phys seg (off + 1#16)) = true →
       ((s.writeMem .word seg off v).readMem .word seg off).1 = v)) ∧
  (∀ (c : Cpu) (m : MemOp) (k : Nat),
     c.memAddr m k = phys (c.memSeg m) (c.ea m + BitVec.ofNat 16 k) ∧
     c.sreg .es = c.es ∧ c.sreg .cs = c.cs ∧ c.sreg .ss = c.ss ∧ c.sreg .ds = c.ds ∧
     (∀ r, c.segFor r = match c.lead.seg with | some q => c.sreg q | none => c.sreg r) ∧
     (∀ a, c.ea (.direct a) = a ∧ c.memSeg (.direct a) = c.segFor .ds) ∧
     ∀ e, let r := eaParts c e
       c.ea (.noDisp e) = r.1 ∧ c.memSeg (.noDisp e) = c.segFor r.2 ∧
       (∀ d, c.ea (.disp8 e d) = r.1 + d.signExtend 16 ∧ c.memSeg (.disp8 e d) = c.segFor r.2) ∧
       ∀ d, c.ea (.disp16 e d) = r.1 + d ∧ c.memSeg (.disp16 e d) = c.segFor r.2) ∧
  (∀ (b : Byte) (v : Word),
     aluWidth (.sx b) = .word ∧ aluValue (.sx b) = b.signExtend 16 ∧ aluWidth (.w v) = .word ∧ aluValue (.w v) = v ∧
     aluWidth (.b b) = .byte ∧ aluValue (.b b) = b.zeroExtend 16 ∧ aluWidth (.bAlias b) = .byte ∧
     aluValue (.bAlias b) = b.zeroExtend 16 ∧ immWidth (.b b) = .byte ∧ immValue (.b b) = b.zeroExtend 16 ∧
     immWidth (.w v) = .word ∧ immValue (.w v) = v)

/-- The number of one bits of the low byte. -/
def Sys2Proof.onesOf (v : Word) : Nat := ((List.range 8).map fun i => (v.getLsbD i).toNat).sum

/-- The value of a byte or word as a signed number (41_arithmetic.md R230). -/
def Sys2Proof.signedValue (w : Width) (v : Word) : Int :=
  match w with
  | .byte => (v.truncate 8).toInt
  | .word => v.toInt

/-- A value of the width. -/
def Sys2Proof.Fits (w : Width) (v : Word) : Prop := w = .byte → v.toNat < 256

/-- SF, ZF and PF tell of a result what R29, R31 and R32 say: its top bit, whether it is zero, the parity of its low
byte. -/
def Sys2Proof.TellsOf (f : Flags) (w : Width) (r : Word) : Prop :=
  f.sf = r.getLsbD (8 * widthBytes w - 1) ∧ (f.zf = true ↔ r = 0#16) ∧ (f.pf = true ↔ onesOf r % 2 = 0)

/-- The flags and the result of an addition: CF the carry out of the operand, AF the carry out of bit 3, SF, ZF and PF
from the result; OF = 1 exactly when one of the carries into and out of the top bit is there without the other, that is
when the signed sum does not fit; TF, IF and DF stay (R28-R33). -/
def Obligations.AdditionFlags : Prop :=
  ∀ (f : Flags) (w : Width) (a b : Word) (c : Bool), Fits w a → Fits w b →
    let n := 8 * widthBytes w
    let sum := a.toNat + b.toNat + c.toNat
    let r := addResult w a b c
    let g := f.add w a b c
    let signedSum := signedValue w a + signedValue w b + (c.toNat : Int)
    r.toNat = sum % 2 ^ n ∧ (g.cf = true ↔ 2 ^ n ≤ sum) ∧
    (g.af = true ↔ 16 ≤ a.toNat % 16 + b.toNat % 16 + c.toNat) ∧ TellsOf g w r ∧
    (g.ofl = true ↔
      ¬(2 ^ (n - 1) ≤ a.toNat % 2 ^ (n - 1) + b.toNat % 2 ^ (n - 1) + c.toNat ↔ 2 ^ n ≤ sum)) ∧
    (g.ofl = true ↔ signedSum < -2 ^ (n - 1) ∨ 2 ^ (n - 1) ≤ signedSum) ∧
    g.tf = f.tf ∧ g.ifl = f.ifl ∧ g.df = f.df

/-- The flags and the result of a subtraction: CF and AF the borrows, OF = 1 exactly when the signed difference does not
fit (R28-R33). -/
def Obligations.SubtractionFlags : Prop :=
  ∀ (f : Flags) (w : Width) (a b : Word) (c : Bool), Fits w a → Fits w b →
    let n := 8 * widthBytes w
    let r := subResult w a b c
    let g := f.sub w a b c
    let signedDifference := signedValue w a - signedValue w b - (c.toNat : Int)
    ((r.toNat : Int) = ((a.toNat : Int) - b.toNat - c.toNat) % 2 ^ n) ∧ (g.cf = true ↔ a.toNat < b.toNat + c.toNat) ∧
    (g.af = true ↔ a.toNat % 16 < b.toNat % 16 + c.toNat) ∧ TellsOf g w r ∧
    (g.ofl = true ↔
      ¬(a.toNat % 2 ^ (n - 1) < b.toNat % 2 ^ (n - 1) + c.toNat ↔ a.toNat < b.toNat + c.toNat)) ∧
    (g.ofl = true ↔ signedDifference < -2 ^ (n - 1) ∨ 2 ^ (n - 1) ≤ signedDifference) ∧
    g.tf = f.tf ∧ g.ifl = f.ifl ∧ g.df = f.df

/-! ### Data transfer -/

/-- MOV r/m,r; MOV r,r/m; MOV r/m,imm; MOV r,imm (R200-R202): the source goes to the destination, no flag changes, and
nothing else. -/
def Obligations.MovMovesTheOperand : Prop :=
  (∀ w r rm s, Gives s (.movRmR .toRm w r rm) w rm (s.cpu.reg w r) s.cpu.f) ∧
  (∀ w r rm s, ∃ v, s.OperandIs w rm v ∧ Gives s (.movRmR .toReg w r rm) w (.reg r) v s.cpu.f) ∧
  (∀ rm s, (∀ b, Gives s (.movRmImm rm (.b b)) .byte rm (zext b) s.cpu.f) ∧
    ∀ v, Gives s (.movRmImm rm (.w v)) .word rm v s.cpu.f) ∧
  (∀ r s, (∀ b, Gives s (.movRImm r (.b b)) .byte (.reg r) (zext b) s.cpu.f) ∧
    ∀ v, Gives s (.movRImm r (.w v)) .word (.reg r) v s.cpu.f)

/-- MOV ac,m and MOV m,ac (R203), MOV r/m,sr (R205), and MOV sr,r/m (R204), which also holds off interrupts for one
instruction. -/
def Obligations.AccumulatorAndSegmentMoves : Prop :=
  (∀ w a s, ∃ v, s.OperandIs w (.mem (.direct a)) v ∧ Gives s (.movAcc .toReg w a) w (.reg .ax) v s.cpu.f) ∧
  (∀ w a s, Gives s (.movAcc .toRm w a) w (.mem (.direct a)) (s.cpu.reg w .ax) s.cpu.f) ∧
  (∀ sr rm s, Gives s (.movRmSr sr rm) .word rm (s.cpu.sreg sr) s.cpu.f) ∧
  (∀ sr rm s, sr ≠ .cs → ∃ v, s.OperandIs .word rm v ∧
    Becomes s (.movSrRm sr rm) { s.cpu.setSreg sr v with inhibit := true })

/-- XCHG (R206, R207): the two operands change places; a memory operand is stored, a register operand gets the other's
old value; NOP is XCHG AX,AX and changes nothing (R368). -/
def Obligations.XchgExchanges : Prop :=
  (∀ w r q s, ∃ t, exec (.xchgRRm w r (.reg q)) s = .next t ∧ s.SameOutside t ∧
    t.cpu = (s.cpu.setReg w q (s.cpu.reg w r)).setReg w r (s.cpu.reg w q) ∧
    t.cpu.reg w r = s.cpu.reg w q ∧ t.cpu.reg w q = s.cpu.reg w r) ∧
  (∀ w r m s, ∃ v, s.OperandIs w (.mem m) v ∧
    Writes s (.xchgRRm w r (.mem m)) (s.cpu.setReg w r v) (widthBytes w) (s.cpu.memAddr m) (s.cpu.reg w r).toNat) ∧
  (∀ r s, ∃ t, exec (.xchgAxR r) s = .next t ∧ s.SameOutside t ∧
    t.cpu = (s.cpu.setReg16 .ax (s.cpu.reg16 r)).setReg16 r s.cpu.ax ∧
    t.cpu.ax = s.cpu.reg16 r ∧ t.cpu.reg16 r = s.cpu.ax) ∧
  (∀ s, exec .nop s = .next s ∧ exec (.xchgAxR .ax) s = .next s)

/-- XLAT (R208), LEA (R209), LDS (R210) and LES (R211). -/
def Obligations.PointerAndTableLoads : Prop :=
  (∀ s, ∃ v, s.BytesAre .byte (fun _ => phys (s.cpu.segFor .ds) (s.cpu.bx + s.cpu.reg .byte .ax)) v ∧
    Gives s .xlat .byte (.reg .ax) v s.cpu.f) ∧
  (∀ r m s, Only s (.lea r m) (s.cpu.setReg16 r (s.cpu.ea m))) ∧
  (∀ r m s, ∃ off seg, s.FarIs m off seg ∧ Becomes s (.lds r m) { s.cpu.setReg16 r off with ds := seg }) ∧
  (∀ r m s, ∃ off seg, s.FarIs m off seg ∧ Becomes s (.les r m) { s.cpu.setReg16 r off with es := seg })

/-- LAHF (R212): AH bits 7, 6, 4, 2, 0 are SF, ZF, AF, PF, CF, the others are unknown. SAHF (R213): the same flags from
AH, the other four stay. The bits of F that hold nothing are any value (log 3). -/
def Obligations.FlagByteTransfers : Prop :=
  (∀ s, ∃ b : Byte, Only s .lahf (s.cpu.setReg8 .sp b) ∧
    b.getLsbD 7 = s.cpu.f.sf ∧ b.getLsbD 6 = s.cpu.f.zf ∧ b.getLsbD 4 = s.cpu.f.af ∧ b.getLsbD 2 = s.cpu.f.pf ∧
    b.getLsbD 0 = s.cpu.f.cf) ∧
  (∀ s, Only s .sahf { s.cpu with f := { s.cpu.f with
    sf := s.cpu.ax.getLsbD 15, zf := s.cpu.ax.getLsbD 14, af := s.cpu.ax.getLsbD 12, pf := s.cpu.ax.getLsbD 10,
    cf := s.cpu.ax.getLsbD 8 } })

/-- PUSH r/m, PUSH r, PUSH sr and PUSHF (R214-R216, R220): SP decreases by 2 and the word is stored at SS:SP; PUSH SP
stores the decremented SP; the nine flags stand in their places in the word that PUSHF stores. -/
def Obligations.PushStoresBelowTheTop : Prop :=
  let pushes (s : State) (i : Instr) (v : Word) : Prop :=
    Writes s i { s.cpu with sp := s.cpu.sp - 2#16 } 2 (stackAddr s.cpu.ss (s.cpu.sp - 2#16)) v.toNat
  (∀ r s, r ≠ .sp → pushes s (.pushR r) (s.cpu.reg16 r) ∧ pushes s (.pushRm (.reg r)) (s.cpu.reg16 r)) ∧
  (∀ s, pushes s (.pushR .sp) (s.cpu.sp - 2#16) ∧ pushes s (.pushRm (.reg .sp)) (s.cpu.sp - 2#16)) ∧
  (∀ m s, ∃ v, s.OperandIs .word (.mem m) v ∧ pushes s (.pushRm (.mem m)) v) ∧
  (∀ sr s, pushes s (.pushSr sr) (s.cpu.sreg sr)) ∧
  (∀ s, ∃ v, Flags.ofWord v = s.cpu.f ∧ pushes s .pushf v)

/-- POP r/m, POP r, POP sr and POPF (R217-R219, R221): the word at SS:SP goes to the destination and SP increases by 2;
in POP SP the popped word remains; POP sr holds off interrupts for one instruction; POPF loads all nine flags. -/
def Obligations.PopLoadsTheTop : Prop :=
  let popped (s : State) : Cpu := { s.cpu with sp := s.cpu.sp + 2#16 }
  (∀ r s, ∃ v, s.StackIs 0 v ∧ Becomes s (.popR r) ((popped s).setReg16 r v) ∧
    Becomes s (.popRm (.reg r)) ((popped s).setReg16 r v)) ∧
  (∀ m s, ∃ v, s.StackIs 0 v ∧ Writes s (.popRm (.mem m)) (popped s) 2 (s.cpu.memAddr m) v.toNat) ∧
  (∀ sr s, sr ≠ .cs → ∃ v, s.StackIs 0 v ∧ Becomes s (.popSr sr) { (popped s).setSreg sr v with inhibit := true }) ∧
  (∀ s, ∃ v, s.StackIs 0 v ∧ Becomes s .popf { popped s with f := Flags.ofWord v })

/-- What answers at a port, named in the instruction (`direct`) or not. -/
def Sys2Proof.portKind (s : State) (direct : Bool) (p : Word) : RegionKind := (s.portPlace direct p).1

/-- The instruction completes; the CPU and system memory stay, and of the I/O space no byte but those of the port `p`,
and the next of a word, changes. -/
def Sys2Proof.Outputs (s : State) (i : Instr) (direct : Bool) (w : Width) (p : Word) (v : Word) : Prop :=
  let t := s.ioWrite direct w p v
  exec i s = .next t ∧ t.cpu.core = s.cpu.core ∧ s.SameBytes t ∧
    s.SameBeyondPorts t fun x => x = p.toNat ∨ w = .word ∧ x = (p + 1#16).toNat

/-- The instruction completes with what the read of the port `p` leaves of the machine, and its value goes to AL or AX. -/
def Sys2Proof.Inputs (s : State) (i : Instr) (direct : Bool) (w : Width) (p : Word) : Prop :=
  let r := s.ioRead direct w p
  exec i s = .next { r.2 with cpu := r.2.cpu.setReg w .ax r.1 } ∧ Gives s i w (.reg .ax) r.1 s.cpu.f

/-- IN and OUT (R222-R225): IN reads the port, with what that does to the device (R113), puts the byte or word into AL or
AX and changes no other register or flag; OUT changes nothing of the CPU; neither stores a byte of memory; the port is
the byte of the instruction, with zeros above it, or DX. A word takes the port and the next one, modulo 2^16 (R116): with
a device at both ports its registers give the two bytes. Memory may stand in the I/O space. A word at an even port of the
CA decoder is one bus cycle of the VM86 and one CA when the decoder stands at both ports (R83, R113), and two cycles when
it does not. What answers is what the map of the platform has at the port; but on the VM88 the RU55 answers a direct port
by its chip select, which is decoded from A15-A11, where the eight bits of the port stand again (R781), and there alone.
That an absent port takes nothing is the model's choice (log 6: R119 and D15 leave it open), and so is that no other
device looks at that copy (log 60). -/
def Obligations.InAndOutUseThePort : Prop :=
  (∀ w p s, Inputs s (.inPort w p) true w (p.zeroExtend 16)) ∧ (∀ w s, Inputs s (.inDx w) false w s.cpu.dx) ∧
  (∀ w p s, Outputs s (.outPort w p) true w (p.zeroExtend 16) (s.cpu.reg w .ax)) ∧
  (∀ w s, Outputs s (.outDx w) false w s.cpu.dx (s.cpu.reg w .ax)) ∧
  (∀ (s : State) (direct : Bool) (p : Word),
    let place (a : ℕ) := findRegion .absent a s.plat.ioMap
    let chip (a : ℕ) : Prop := ∃ k, (place a).1 = .device .ru55 k
    let copied := p.toNat % 2 ^ 8 * 257
    (direct = false ∨ s.plat.vm88 = false → s.portPlace direct p = place p.toNat) ∧
    (direct = true → s.plat.vm88 = true →
      (chip copied → s.portPlace direct p = place copied) ∧
      (¬chip copied → chip p.toNat → portKind s direct p = .absent) ∧
      (¬chip copied → ¬chip p.toNat → s.portPlace direct p = place p.toNat))) ∧
  (∀ (s : State) (direct : Bool) (p : Word) (d : Dev) (k o : Nat), s.portPlace direct p = (.device d k, o) →
    s.in8 direct p = s.devRead d (o / 2 ^ k) ∧ ∀ v, s.out8 direct p v = s.devWrite d (o / 2 ^ k) v) ∧
  (∀ (s : State) (direct : Bool) (p v : Word),
    let l := s.in8 direct p
    let t := s.out8 direct p (lowByte v)
    s.ioRead direct .byte p = (zext l.1, l.2) ∧ s.ioWrite direct .byte p v = t ∧
    (s.plat.vm88 = true ∨ p.getLsbD 0 = true ∨ (∀ k, portKind s direct p ≠ .device .iopCa k) ∨
        (∀ k, portKind s direct (p + 1#16) ≠ .device .iopCa k) →
      s.ioRead direct .word p = (wordOf l.1 (l.2.in8 direct (p + 1#16)).1, (l.2.in8 direct (p + 1#16)).2) ∧
      s.ioWrite direct .word p v = t.out8 direct (p + 1#16) (highByte v)) ∧
    (s.plat.vm88 = false → p.getLsbD 0 = false → (∃ k, portKind s direct p = .device .iopCa k) →
      (∃ k, portKind s direct (p + 1#16) = .device .iopCa k) →
      s.ioWrite direct .word p v = t ∧ ∃ high, s.ioRead direct .word p = (wordOf l.1 high, l.2.bump))) ∧
  (∀ (s : State) (direct : Bool) (p : Word) (v : Byte),
    let t := s.out8 direct p v
    (portKind s direct p = .ram ∨ portKind s direct p = .rom → s.in8 direct p = (s.iomem.get p.toNat, s)) ∧
    (portKind s direct p = .ram → ∀ x, t.iomem.get x = if x = p.toNat then v else s.iomem.get x) ∧
    (portKind s direct p = .rom ∨ portKind s direct p = .absent → t = s))

/-! ### Arithmetic and logic -/

/-- TF, IF and DF stay. -/
def Sys2Proof.SameControl (f g : Flags) : Prop := g.tf = f.tf ∧ g.ifl = f.ifl ∧ g.df = f.df

/-- ADD, ADC, SUB, SBB and CMP in their four forms (R232-R237): the left operand is the destination, ADC and SBB take the
old CF, CMP writes neither operand; all six flags come from the operation. -/
def Obligations.AddSubtractCompare : Prop :=
  ∀ s : State,
    let f := s.cpu.f
    let c := s.cpu.f.cf
    (∀ w r rm, ∃ a, s.OperandIs w rm a ∧
      let b := s.cpu.reg w r
      Gives s (.addRmR .toRm w r rm) w rm (addResult w a b false) (f.add w a b false) ∧
      Gives s (.adcRmR .toRm w r rm) w rm (addResult w a b c) (f.add w a b c) ∧
      Gives s (.subRmR .toRm w r rm) w rm (subResult w a b false) (f.sub w a b false) ∧
      Gives s (.sbbRmR .toRm w r rm) w rm (subResult w a b c) (f.sub w a b c) ∧
      Becomes s (.cmpRmR .toRm w r rm) { s.cpu with f := f.sub w a b false }) ∧
    (∀ w r rm, ∃ b, s.OperandIs w rm b ∧
      let a := s.cpu.reg w r
      Gives s (.addRmR .toReg w r rm) w (.reg r) (addResult w a b false) (f.add w a b false) ∧
      Gives s (.adcRmR .toReg w r rm) w (.reg r) (addResult w a b c) (f.add w a b c) ∧
      Gives s (.subRmR .toReg w r rm) w (.reg r) (subResult w a b false) (f.sub w a b false) ∧
      Gives s (.sbbRmR .toReg w r rm) w (.reg r) (subResult w a b c) (f.sub w a b c) ∧
      Becomes s (.cmpRmR .toReg w r rm) { s.cpu with f := f.sub w a b false }) ∧
    (∀ rm v, ∃ a, s.OperandIs (aluWidth v) rm a ∧
      let w := aluWidth v
      let b := aluValue v
      Gives s (.addRmImm rm v) w rm (addResult w a b false) (f.add w a b false) ∧
      Gives s (.adcRmImm rm v) w rm (addResult w a b c) (f.add w a b c) ∧
      Gives s (.subRmImm rm v) w rm (subResult w a b false) (f.sub w a b false) ∧
      Gives s (.sbbRmImm rm v) w rm (subResult w a b c) (f.sub w a b c) ∧
      Becomes s (.cmpRmImm rm v) { s.cpu with f := f.sub w a b false }) ∧
    (∀ v : Imm,
      let w := immWidth v
      let a := s.cpu.reg w .ax
      let b := immValue v
      Gives s (.addAccImm v) w (.reg .ax) (addResult w a b false) (f.add w a b false) ∧
      Gives s (.adcAccImm v) w (.reg .ax) (addResult w a b c) (f.add w a b c) ∧
      Gives s (.subAccImm v) w (.reg .ax) (subResult w a b false) (f.sub w a b false) ∧
      Gives s (.sbbAccImm v) w (.reg .ax) (subResult w a b c) (f.sub w a b c) ∧
      Only s (.cmpAccImm v) { s.cpu with f := f.sub w a b false })

/-- The flags of a logic result: OF = CF = 0, SF, ZF and PF from the result; AF is any value; TF, IF, DF stay. -/
def Sys2Proof.LogicFlags (f g : Flags) (w : Width) (r : Word) : Prop :=
  g.ofl = false ∧ g.cf = false ∧ TellsOf g w r ∧ SameControl f g

/-- AND, OR, XOR and TEST in all forms (R270-R274), and NOT (R275), which changes no flag. AF is any value after a logic
operation (log 4). -/
def Obligations.LogicOperations : Prop :=
  ∀ s : State,
    (∀ w r rm, ∃ a, s.OperandIs w rm a ∧
      let b := s.cpu.reg w r
      (∃ g, LogicFlags s.cpu.f g w (a &&& b) ∧ Gives s (.andRmR .toRm w r rm) w rm (a &&& b) g) ∧
      (∃ g, LogicFlags s.cpu.f g w (a ||| b) ∧ Gives s (.orRmR .toRm w r rm) w rm (a ||| b) g) ∧
      (∃ g, LogicFlags s.cpu.f g w (a ^^^ b) ∧ Gives s (.xorRmR .toRm w r rm) w rm (a ^^^ b) g) ∧
      (∃ g, LogicFlags s.cpu.f g w (b &&& a) ∧ Gives s (.andRmR .toReg w r rm) w (.reg r) (b &&& a) g) ∧
      (∃ g, LogicFlags s.cpu.f g w (b ||| a) ∧ Gives s (.orRmR .toReg w r rm) w (.reg r) (b ||| a) g) ∧
      (∃ g, LogicFlags s.cpu.f g w (b ^^^ a) ∧ Gives s (.xorRmR .toReg w r rm) w (.reg r) (b ^^^ a) g) ∧
      (∃ g, LogicFlags s.cpu.f g w (a &&& b) ∧ Becomes s (.testRmR w r rm) { s.cpu with f := g }) ∧
      Gives s (.notRm w rm) w rm (a ^^^ BitVec.ofNat 16 (2 ^ (8 * widthBytes w) - 1)) s.cpu.f) ∧
    (∀ rm v, ∃ a, s.OperandIs (immWidth v) rm a ∧
      let w := immWidth v
      let b := immValue v
      (∃ g, LogicFlags s.cpu.f g w (a &&& b) ∧ Gives s (.andRmImm rm v) w rm (a &&& b) g) ∧
      (∃ g, LogicFlags s.cpu.f g w (a ||| b) ∧ Gives s (.orRmImm rm v) w rm (a ||| b) g) ∧
      (∃ g, LogicFlags s.cpu.f g w (a ^^^ b) ∧ Gives s (.xorRmImm rm v) w rm (a ^^^ b) g) ∧
      (∃ g, LogicFlags s.cpu.f g w (a &&& b) ∧ Becomes s (.testRmImm rm v) { s.cpu with f := g })) ∧
    (∀ v : Imm,
      let w := immWidth v
      let a := s.cpu.reg w .ax
      let b := immValue v
      (∃ g, LogicFlags s.cpu.f g w (a &&& b) ∧ Gives s (.andAccImm v) w (.reg .ax) (a &&& b) g) ∧
      (∃ g, LogicFlags s.cpu.f g w (a ||| b) ∧ Gives s (.orAccImm v) w (.reg .ax) (a ||| b) g) ∧
      (∃ g, LogicFlags s.cpu.f g w (a ^^^ b) ∧ Gives s (.xorAccImm v) w (.reg .ax) (a ^^^ b) g) ∧
      (∃ g, LogicFlags s.cpu.f g w (a &&& b) ∧ Only s (.testAccImm v) { s.cpu with f := g }))

/-- INC and DEC (R238, R239) add and subtract 1 and keep CF; NEG (R240) subtracts from 0: CF = 1 exactly when the operand
is not zero. -/
def Obligations.IncrementDecrementNegate : Prop :=
  ∀ s : State,
    let f := s.cpu.f
    (∀ w rm, ∃ a, s.OperandIs w rm a ∧
      Gives s (.incRm w rm) w rm (addResult w a 1#16 false) { f.add w a 1#16 false with cf := f.cf } ∧
      Gives s (.decRm w rm) w rm (subResult w a 1#16 false) { f.sub w a 1#16 false with cf := f.cf } ∧
      Gives s (.negRm w rm) w rm (subResult w 0#16 a false) (f.sub w 0#16 a false) ∧
      ((f.sub w 0#16 a false).cf = true ↔ a ≠ 0#16)) ∧
    (∀ r, let a := s.cpu.reg16 r
      Gives s (.incR r) .word (.reg r) (a + 1#16) { f.add .word a 1#16 false with cf := f.cf } ∧
      Gives s (.decR r) .word (.reg r) (a - 1#16) { f.sub .word a 1#16 false with cf := f.cf })

/-- MUL (R243) and IMUL (R244): the product of the accumulator and the operand, 2N bits, in AX or DX:AX; CF = OF tell
whether the high half matters; SF, ZF, AF, PF are unknown. The flags the spec leaves undefined are any value (log 4). -/
def Obligations.Multiplications : Prop :=
  ∀ (s : State) (rm : RM),
    (∃ b g, s.OperandIs .byte rm b ∧ SameControl s.cpu.f g ∧
      let p := (s.cpu.reg8 .ax).toNat * b.toNat
      g.cf = decide (256 ≤ p) ∧ g.ofl = decide (256 ≤ p) ∧
      Becomes s (.mulRm .byte rm) { s.cpu.setReg16 .ax (BitVec.ofNat 16 p) with f := g }) ∧
    (∃ b g, s.OperandIs .word rm b ∧ SameControl s.cpu.f g ∧
      let p := s.cpu.ax.toNat * b.toNat
      g.cf = decide (65536 ≤ p) ∧ g.ofl = decide (65536 ≤ p) ∧
      Becomes s (.mulRm .word rm)
        { (s.cpu.setReg16 .ax (BitVec.ofNat 16 p)).setReg16 .dx (BitVec.ofNat 16 (p / 65536)) with f := g }) ∧
    (∃ b g, s.OperandIs .byte rm b ∧ SameControl s.cpu.f g ∧
      let p := BitVec.ofInt 16 ((s.cpu.reg8 .ax).toInt * (lowByte b).toInt)
      g.cf = decide (p ≠ (lowByte p).signExtend 16) ∧ g.ofl = g.cf ∧
      Becomes s (.imulRm .byte rm) { s.cpu.setReg16 .ax p with f := g }) ∧
    (∃ b g, s.OperandIs .word rm b ∧ SameControl s.cpu.f g ∧
      let p := BitVec.ofInt 32 (s.cpu.ax.toInt * b.toInt)
      g.cf = decide (p ≠ (p.truncate 16).signExtend 32) ∧ g.ofl = g.cf ∧
      Becomes s (.imulRm .word rm)
        { (s.cpu.setReg16 .ax (p.truncate 16)).setReg16 .dx ((p >>> 16).truncate 16) with f := g })

/-- The dividend of a width: AX, or DX:AX. -/
def Sys2Proof.dividend (s : State) (w : Width) : BitVec 32 :=
  match w with
  | .byte => s.cpu.ax.zeroExtend 32
  | .word => s.cpu.dx.zeroExtend 32 <<< 16 ||| s.cpu.ax.zeroExtend 32

/-- The dividend as a signed number. -/
def Sys2Proof.signedDividend (s : State) (w : Width) : Int :=
  match w with
  | .byte => s.cpu.ax.toInt
  | .word => (dividend s .word).toInt

/-- The CPU with a quotient in AL or AX and a remainder in AH or DX. -/
def Sys2Proof.divided (c : Cpu) (w : Width) (q r : Int) : Cpu :=
  match w with
  | .byte => c.setReg16 .ax (wordOf (BitVec.ofInt 8 q) (BitVec.ofInt 8 r))
  | .word => (c.setReg16 .ax (BitVec.ofInt 16 q)).setReg16 .dx (BitVec.ofInt 16 r)

/-- DIV (R245) and IDIV (R246), when the divisor is not zero and the quotient fits: the quotient, truncated toward zero,
and the remainder; the six arithmetic flags are unknown. The flags after a division are any value (log 4). -/
def Obligations.DivisionsThatFit : Prop :=
  ∀ (s : State) (w : Width) (rm : RM), ∃ d, s.OperandIs w rm d ∧
    let n := 8 * widthBytes w
    let u := (dividend s w).toNat
    let i := signedDividend s w
    let e := signedValue w d
    (d.toNat ≠ 0 → u / d.toNat < 2 ^ n → ∃ g, SameControl s.cpu.f g ∧
      Becomes s (.divRm w rm) { divided s.cpu w (u / d.toNat : Nat) (u % d.toNat : Nat) with f := g }) ∧
    (e ≠ 0 → -2 ^ (n - 1) ≤ i.tdiv e → i.tdiv e < 2 ^ (n - 1) → ∃ g, SameControl s.cpu.f g ∧
      Becomes s (.idivRm w rm) { divided s.cpu w (i.tdiv e) (i.tmod e) with f := g })

/-- The divide error (R242): with a zero divisor or a quotient that does not fit, DIV and IDIV enter interrupt 0 with the
address of the next instruction, whatever IF is; the accumulator, its extension and the six flags are unknown. -/
def Obligations.DivideErrorEntersTypeZero : Prop :=
  ∀ (s : State) (w : Width) (rm : RM), ∃ d, s.OperandIs w rm d ∧
    let n := 8 * widthBytes w
    let u := (dividend s w).toNat
    let i := signedDividend s w
    let e := signedValue w d
    let enters (x : Instr) : Prop := ∃ t q r g, SameControl s.cpu.f g ∧ exec x s = .next t ∧
      s.Enters t { divided s.cpu w q r with f := g } 0#8
    (d.toNat = 0 ∨ 2 ^ n ≤ u / d.toNat → enters (.divRm w rm)) ∧
    (e = 0 ∨ i.tdiv e < -2 ^ (n - 1) ∨ 2 ^ (n - 1) ≤ i.tdiv e → enters (.idivRm w rm))

/-- CBW, CWD (R247, R248) and the six corrections DAA, DAS, AAA, AAS, AAM, AAD, by the algorithms R249-R254 give. The
algorithms of these six are not from the source: the spec marks each of them as general knowledge. -/
def Obligations.ExtensionsAndCorrections : Prop :=
  ∀ s : State,
    let c := s.cpu
    let al := (s.cpu.reg8 .ax).toNat
    let ah := (s.cpu.reg8 .sp).toNat
    let low := decide (9 < al % 16) || s.cpu.f.af
    let high := decide (0x99 < al) || s.cpu.f.cf
    let put (l h : Nat) : Cpu := c.setReg16 .ax (BitVec.ofNat 16 (l % 256 + 256 * (h % 256)))
    Only s .cbw (c.setReg16 .ax ((lowByte c.ax).signExtend 16)) ∧
    Only s .cwd (c.setReg16 .dx (if c.ax.getLsbD 15 = true then 0xFFFF#16 else 0#16)) ∧
    (∃ g, SameControl c.f g ∧ g.af = low ∧ g.cf = high ∧
      let a := (al + 6 * low.toNat + 0x60 * high.toNat) % 256
      TellsOf g .byte (BitVec.ofNat 16 a) ∧ Only s .daa { put a ah with f := g }) ∧
    (∃ g, SameControl c.f g ∧ g.af = low ∧ g.cf = high ∧
      let a := (al + 0x200 - 6 * low.toNat - 0x60 * high.toNat) % 256
      TellsOf g .byte (BitVec.ofNat 16 a) ∧ Only s .das { put a ah with f := g }) ∧
    (∃ g, SameControl c.f g ∧ g.af = low ∧ g.cf = low ∧
      Only s .aaa { put ((al + 6 * low.toNat) % 16) (ah + low.toNat) with f := g }) ∧
    (∃ g, SameControl c.f g ∧ g.af = low ∧ g.cf = low ∧
      Only s .aas { put ((al + 256 - 6 * low.toNat) % 16) (ah + 256 - low.toNat) with f := g }) ∧
    (∃ g, SameControl c.f g ∧ TellsOf g .byte (BitVec.ofNat 16 (al % 10)) ∧
      Only s .aam { put (al % 10) (al / 10) with f := g }) ∧
    (∃ g, SameControl c.f g ∧ TellsOf g .byte (BitVec.ofNat 16 ((ah * 10 + al) % 256)) ∧
      Only s .aad { put (ah * 10 + al) 0 with f := g })

/-! ### Shifts -/

/-- The flags after a shift by at least one position (R278): CF the last bit shifted out; the shifts set SF, ZF and PF,
the rotates leave them and AF; OF by the constant 1 is 1 exactly when the sign bit changed, and SAR clears it. -/
def Sys2Proof.ShiftFlags (k : ShiftKind) (c : ShiftCount) (w : Width) (a : Word) (r : Word × Bool) (f g : Flags) : Prop :=
  let top := 8 * widthBytes w - 1
  g.cf = r.2 ∧ SameControl f g ∧
  (if k.isShift = true then TellsOf g w r.1 else g.sf = f.sf ∧ g.zf = f.zf ∧ g.af = f.af ∧ g.pf = f.pf) ∧
  (k = .sar → g.ofl = false) ∧ (c = .one → (g.ofl = true ↔ a.getLsbD top ≠ r.1.getLsbD top))

/-- A shift or rotate: the one-position step as many times as the constant 1 or the whole of CL says; a count of 0
rewrites the operand and changes no flag (R277). -/
def Sys2Proof.ShiftGives (s : State) (i : ShiftCount → Instr) (k : ShiftKind) (w : Width) (rm : RM) : Prop :=
  ∃ a, s.OperandIs w rm a ∧ ∀ c : ShiftCount,
    let n := match c with | .one => 1 | .cl => (s.cpu.reg8 .cx).toNat
    let r := shiftN k w n (a, s.cpu.f.cf)
    (n = 0 → Gives s (i c) w rm a s.cpu.f) ∧
    (n ≠ 0 → ∃ g, ShiftFlags k c w a r s.cpu.f g ∧ Gives s (i c) w rm r.1 g)

/-- The seven shifts and rotates (R276-R285). -/
def Obligations.ShiftsAndRotates : Prop :=
  ∀ (s : State) (w : Width) (rm : RM),
    ShiftGives s (fun c => .rolRm c w rm) .rol w rm ∧ ShiftGives s (fun c => .rorRm c w rm) .ror w rm ∧
    ShiftGives s (fun c => .rclRm c w rm) .rcl w rm ∧ ShiftGives s (fun c => .rcrRm c w rm) .rcr w rm ∧
    ShiftGives s (fun c => .shlRm c w rm) .shl w rm ∧ ShiftGives s (fun c => .shrRm c w rm) .shr w rm ∧
    ShiftGives s (fun c => .sarRm c w rm) .sar w rm

/-- What `n` positions do (R279-R285): SHL multiplies modulo 2^N and SHR divides, the last bit shifted out in CF; SAR
divides rounding toward minus infinity. One position of ROL or ROR moves the top or the bottom bit to the other end and
into CF; one of RCL or RCR moves it into CF and the old CF to the other end; more positions are one after the other. So N
positions of ROL or ROR, and N + 1 of RCL or RCR, bring the operand back, ROR undoes ROL and RCR undoes RCL. -/
def Obligations.ShiftsByManyPositions : Prop :=
  ∀ (w : Width) (v : Word) (cf : Bool) (k : Nat), Fits w v →
    let n := 8 * widthBytes w
    (shiftN .shl w k (v, cf)).1.toNat = v.toNat * 2 ^ k % 2 ^ n ∧
    (shiftN .shl w (k + 1) (v, cf)).2 = decide (v.toNat * 2 ^ k / 2 ^ (n - 1) % 2 = 1) ∧
    (shiftN .shr w k (v, cf)).1.toNat = v.toNat / 2 ^ k ∧
    (shiftN .shr w (k + 1) (v, cf)).2 = decide (v.toNat / 2 ^ k % 2 = 1) ∧
    signedValue w (shiftN .sar w k (v, cf)).1 = signedValue w v / 2 ^ k ∧
    (shiftN .sar w (k + 1) (v, cf)).2 = decide (signedValue w v / 2 ^ k % 2 = 1) ∧
    (let x := shiftN .rol w 1 (v, cf)
     x.1.toNat = 2 * v.toNat % 2 ^ n + v.toNat / 2 ^ (n - 1) ∧ x.2 = v.getLsbD (n - 1)) ∧
    (let x := shiftN .ror w 1 (v, cf)
     x.1.toNat = v.toNat / 2 + 2 ^ (n - 1) * (v.toNat % 2) ∧ x.2 = v.getLsbD 0) ∧
    (let x := shiftN .rcl w 1 (v, cf)
     x.1.toNat = 2 * v.toNat % 2 ^ n + cf.toNat ∧ x.2 = v.getLsbD (n - 1)) ∧
    (let x := shiftN .rcr w 1 (v, cf)
     x.1.toNat = v.toNat / 2 + 2 ^ (n - 1) * cf.toNat ∧ x.2 = v.getLsbD 0) ∧
    (∀ kind, shiftN kind w 0 (v, cf) = (v, cf) ∧
      shiftN kind w (k + 1) (v, cf) = shiftN kind w 1 (shiftN kind w k (v, cf))) ∧
    (shiftN .rol w n (v, cf)).1 = v ∧ (shiftN .ror w n (v, cf)).1 = v ∧
    shiftN .rcl w (n + 1) (v, cf) = (v, cf) ∧ shiftN .rcr w (n + 1) (v, cf) = (v, cf) ∧
    (shiftN .ror w k (shiftN .rol w k (v, cf))).1 = v ∧ shiftN .rcr w k (shiftN .rcl w k (v, cf)) = (v, cf)

/-! ### Strings -/

/-- The change of SI and DI (R301): up when DF = 0, down when DF = 1, by the size of the element. -/
def Sys2Proof.stringStep (c : Cpu) (w : Width) : Word :=
  if c.f.df = true then -BitVec.ofNat 16 (widthBytes w) else BitVec.ofNat 16 (widthBytes w)

/-- The CPU after the element of a string instruction: without a repeat byte as `c`; with one CX is one less, and the
instruction ends when CX is 0 or, in CMPS and SCAS, when ZF differs from the repeat byte's bit; otherwise it stands
between two elements (R308, R309). -/
def Sys2Proof.afterElement (c : Cpu) (i : Instr) (compares : Bool) : Cpu :=
  match c.lead.rep with
  | none => c
  | some z =>
    { c with
      cx := c.cx - 1#16,
      phase := if c.cx - 1#16 = 0#16 ∨ (compares = true ∧ c.f.zf ≠ z) then c.phase else .element i }

/-- MOVS, CMPS, SCAS, LODS, STOS (R302-R306): the source is at SI in DS or the override segment, the destination at
ES:DI; under a repeat byte (R308, R309) the same for each element, and CX = 0 does nothing at all. That each element is a
step of its own is the model's choice (log 8). -/
def Obligations.StringElements : Prop :=
  ∀ (s : State) (w : Width),
    let c := s.cpu
    let d := stringStep c w
    let source (k : Nat) : Nat := phys (c.segFor .ds) (c.si + BitVec.ofNat 16 k)
    let dest (k : Nat) : Nat := phys c.es (c.di + BitVec.ofNat 16 k)
    (c.lead.rep = none ∨ c.cx ≠ 0#16 →
      (∃ v, s.BytesAre w source v ∧
        Writes s (.movs w) (afterElement { c with si := c.si + d, di := c.di + d } (.movs w) false) (widthBytes w) dest
          v.toNat) ∧
      (∃ a b, s.BytesAre w source a ∧ s.BytesAre w dest b ∧
        Becomes s (.cmps w)
          (afterElement { c with si := c.si + d, di := c.di + d, f := c.f.sub w a b false } (.cmps w) true)) ∧
      (∃ b, s.BytesAre w dest b ∧
        Becomes s (.scas w) (afterElement { c with di := c.di + d, f := c.f.sub w (c.reg w .ax) b false } (.scas w) true)) ∧
      (∃ v, s.BytesAre w source v ∧
        Becomes s (.lods w) (afterElement { c.setReg w .ax v with si := c.si + d } (.lods w) false)) ∧
      Writes s (.stos w) (afterElement { c with di := c.di + d } (.stos w) false) (widthBytes w) dest
        (c.reg w .ax).toNat) ∧
    (c.lead.rep ≠ none → c.cx = 0#16 →
      exec (.movs w) s = .next s ∧ exec (.cmps w) s = .next s ∧ exec (.scas w) s = .next s ∧
      exec (.lods w) s = .next s ∧ exec (.stos w) s = .next s)

/-! ### Control transfer -/

/-- JMP in its five forms (R321-R325): relative to the next instruction, absolute through a register or memory word, or
to a new segment and offset; nothing else of the CPU changes. -/
def Obligations.UnconditionalJumps : Prop :=
  ∀ s : State,
    let c := s.cpu
    (∀ rel, Only s (.jmpShort rel) { c with ip := c.ip + rel.signExtend 16 }) ∧
    (∀ rel, Only s (.jmpNear rel) { c with ip := c.ip + rel }) ∧
    (∀ rm, ∃ v, s.OperandIs .word rm v ∧ Becomes s (.jmpRm rm) { c with ip := v }) ∧
    (∀ off seg, Only s (.jmpFar off seg) { c with cs := seg, ip := off }) ∧
    (∀ m, ∃ off seg, s.FarIs m off seg ∧ Becomes s (.jmpMem m) { c with cs := seg, ip := off })

/-- CALL in its four forms (R326-R329): the return address, with CS above it for the far forms, is pushed; the operand is
read before. -/
def Obligations.CallsPushTheReturnAddress : Prop :=
  ∀ s : State,
    let c := s.cpu
    let near (i : Instr) (ip : Word) : Prop :=
      Writes s i { c with sp := c.sp - 2#16, ip := ip } 2 (stackAddr c.ss (c.sp - 2#16)) c.ip.toNat
    let far (i : Instr) (off seg : Word) : Prop :=
      Writes s i { c with sp := c.sp - 4#16, cs := seg, ip := off } 4 (stackAddr c.ss (c.sp - 4#16))
        (c.ip.toNat + 2 ^ 16 * c.cs.toNat)
    (∀ rel, near (.callNear rel) (c.ip + rel)) ∧
    (∀ rm, ∃ v, s.OperandIs .word rm v ∧ near (.callRm rm) v) ∧
    (∀ off seg, far (.callFar off seg) off seg) ∧
    (∀ m, ∃ off seg, s.FarIs m off seg ∧ far (.callMem m) off seg)

/-- RET in its four forms (R330-R333): IP, or IP and CS, from the stack; the forms with an operand also add it to SP. -/
def Obligations.ReturnsPopTheAddress : Prop :=
  ∀ s : State,
    let c := s.cpu
    (∃ ip, s.StackIs 0 ip ∧ Becomes s .retNear { c with sp := c.sp + 2#16, ip := ip } ∧
      ∀ n, Becomes s (.retNearImm n) { c with sp := c.sp + 2#16 + n, ip := ip }) ∧
    (∃ ip cs, s.StackIs 0 ip ∧ s.StackIs 2 cs ∧ Becomes s .retFar { c with sp := c.sp + 4#16, cs := cs, ip := ip } ∧
      ∀ n, Becomes s (.retFarImm n) { c with sp := c.sp + 4#16 + n, cs := cs, ip := ip })

/-- The sixteen conditional jumps (R334-R350, Table 2.11): relative to the next instruction when the condition holds,
and no effect at all otherwise; no flag changes. LOOP, LOOPE, LOOPNE (R351-R353): CX decreases by 1 without flags, and
the jump is taken while CX is not 0 and ZF is as the instruction asks; JCXZ (R354) jumps when CX is 0 and changes
nothing else. -/
def Obligations.ConditionalJumpsAndLoops : Prop :=
  (∀ (s : State) (rel : Byte),
     let c := s.cpu
     let f := s.cpu.f
     let jumps (i : Instr) (p : Prop) : Prop :=
       (p → Only s i { c with ip := c.ip + rel.signExtend 16 }) ∧ (¬p → exec i s = .next s)
     jumps (.jo rel) (f.ofl = true) ∧ jumps (.jno rel) (f.ofl = false) ∧
     jumps (.jb rel) (f.cf = true) ∧ jumps (.jnb rel) (f.cf = false) ∧
     jumps (.je rel) (f.zf = true) ∧ jumps (.jne rel) (f.zf = false) ∧
     jumps (.jbe rel) (f.cf = true ∨ f.zf = true) ∧ jumps (.ja rel) (f.cf = false ∧ f.zf = false) ∧
     jumps (.js rel) (f.sf = true) ∧ jumps (.jns rel) (f.sf = false) ∧
     jumps (.jp rel) (f.pf = true) ∧ jumps (.jnp rel) (f.pf = false) ∧
     jumps (.jl rel) (f.sf ≠ f.ofl) ∧ jumps (.jge rel) (f.sf = f.ofl) ∧
     jumps (.jle rel) (f.sf ≠ f.ofl ∨ f.zf = true) ∧ jumps (.jg rel) (f.sf = f.ofl ∧ f.zf = false)) ∧
  (∀ (s : State) (rel : Byte),
     let c := s.cpu
     let cx := c.cx - 1#16
     let target (p : Prop) [Decidable p] : Word := if p then c.ip + rel.signExtend 16 else c.ip
     Only s (.loop rel) { c with cx := cx, ip := target (cx ≠ 0#16) } ∧
     Only s (.loope rel) { c with cx := cx, ip := target (cx ≠ 0#16 ∧ c.f.zf = true) } ∧
     Only s (.loopne rel) { c with cx := cx, ip := target (cx ≠ 0#16 ∧ c.f.zf = false) } ∧
     Only s (.jcxz rel) { c with ip := target (c.cx = 0#16) })

/-- After CMP of two operands the conditional jumps tell their order: JB, JBE, JA, JNB as unsigned numbers, JL, JLE, JG,
JGE as signed numbers, JE and JNE whether they are equal (R335-R344 with R237). -/
def Obligations.JumpsAfterCompareTellTheOrder : Prop :=
  ∀ (f : Flags) (w : Width) (a b : Word), Fits w a → Fits w b →
    let g := f.sub w a b false
    let x := signedValue w a
    let y := signedValue w b
    (Cond.holds .b g = true ↔ a.toNat < b.toNat) ∧ (Cond.holds .be g = true ↔ a.toNat ≤ b.toNat) ∧
    (Cond.holds .a g = true ↔ b.toNat < a.toNat) ∧ (Cond.holds .nb g = true ↔ b.toNat ≤ a.toNat) ∧
    (Cond.holds .l g = true ↔ x < y) ∧ (Cond.holds .le g = true ↔ x ≤ y) ∧
    (Cond.holds .g g = true ↔ y < x) ∧ (Cond.holds .ge g = true ↔ y ≤ x) ∧
    (Cond.holds .e g = true ↔ a = b) ∧ (Cond.holds .ne g = true ↔ a ≠ b)

/-! ### Interrupts of the program and the return -/

/-- INT type, INT 3 and INTO (R355-R357) take the entry sequence of R812 with the next instruction as return address,
whatever IF is; INTO with OF = 0 does nothing. -/
def Obligations.SoftwareInterruptsEnter : Prop :=
  ∀ s : State,
    (∀ n, ∃ t, exec (.intN n) s = .next t ∧ s.Enters t s.cpu n) ∧
    (∃ t, exec .int3 s = .next t ∧ s.Enters t s.cpu 3#8) ∧
    (s.cpu.f.ofl = true → ∃ t, exec .into s = .next t ∧ s.Enters t s.cpu 4#8) ∧
    (s.cpu.f.ofl = false → exec .into s = .next s)

/-- IRET (R358, R815): IP, CS and F are popped, in this order. -/
def Obligations.InterruptReturnPopsThreeWords : Prop :=
  ∀ s : State, ∃ ip cs f, s.StackIs 0 ip ∧ s.StackIs 2 cs ∧ s.StackIs 4 f ∧
    Becomes s .iret { s.cpu with sp := s.cpu.sp + 6#16, cs := cs, ip := ip, f := Flags.ofWord f }

/-- With RAM under the six stack bytes, the return from an interrupt undoes its entry: every register and flag of the CPU
is as before (R812, R815), and so with a CALL and its RET (R326, R330). -/
def Obligations.ReturnUndoesEntryAndCall : Prop :=
  ∀ s : State,
    (∀ n, (∀ k, k < 6 → s.isRam (stackAddr s.cpu.ss (s.cpu.sp - 6#16) k) = true) →
      ∃ t u, exec (.intN n) s = .next t ∧ exec .iret t = .next u ∧ u.cpu.core = { s.cpu.core with halted := false }) ∧
    (∀ rel, (∀ k, k < 2 → s.isRam (stackAddr s.cpu.ss (s.cpu.sp - 2#16) k) = true) →
      ∃ t u, exec (.callNear rel) s = .next t ∧ exec .retNear t = .next u ∧ u.cpu.core = s.cpu.core) ∧
    (∀ off seg, (∀ k, k < 4 → s.isRam (stackAddr s.cpu.ss (s.cpu.sp - 4#16) k) = true) →
      ∃ t u, exec (.callFar off seg) s = .next t ∧ exec .retFar t = .next u ∧ u.cpu.core = s.cpu.core)

/-! ### Processor control -/

/-- CLC, STC, CMC, CLD, STD, CLI, STI (R361-R367), HLT (R370), WAIT (R371) and an ESC without a coprocessor (R372): each
changes what is named and nothing else. WAIT goes on when TEST is 0 and stays when it is 1; TEST is BUSY of the VM87
where one is attached (R59), else the device output wired to it, if there is one. REP, LOCK and the segment override are
leading bytes (R106, R307, R369): each is remembered for the instruction that follows, before which no request is
recognised (R42); a later byte of a kind replaces an earlier one (R161), and LOCK keeps the VM89, the VM87 and the VT37
from the bus (R125): a grant to the VT37 is delayed and given when the lock is over (R748), a grant to the others for a
turn that needs the bus is passed over; what needs no bus goes on, so that a WAIT under LOCK ends when the VM87 has
executed (R369). Without a VM87 every one of its instructions is such an ESC: a read of its memory operand, if it has
one, and nothing else. That a leading byte is a step of its own, and that a grant which LOCK forbids is passed over, is
the model's choice (logs 8, 10). -/
def Obligations.ProcessorControlAndLeadingBytes : Prop :=
  (∀ s : State,
     let c := s.cpu
     let f := s.cpu.f
     Only s .clc { c with f := { f with cf := false } } ∧ Only s .stc { c with f := { f with cf := true } } ∧
     Only s .cmc { c with f := { f with cf := !f.cf } } ∧ Only s .cld { c with f := { f with df := false } } ∧
     Only s .std { c with f := { f with df := true } } ∧ Only s .cli { c with f := { f with ifl := false } } ∧
     Only s .sti { c with f := { f with ifl := true } } ∧ Only s .hlt { c with halted := true } ∧
     (let test := if s.plat.hasVm87 = true then s.fpu.sr.getLsbD 15 || s.run.active
        else match s.plat.testWire with
          | some l => s.line l
          | none => s.env.test
      (test = false → exec .wait s = .next s) ∧ (test = true → Only s .wait { c with phase := .testing })) ∧
     (s.plat.hasVm87 = false → ∀ x y,
       (∀ r, exec (.esc x y (.reg r)) s = .next s) ∧
       ∀ m, exec (.esc x y (.mem m)) s = .next (s.readOp .word m).2 ∧ Becomes s (.esc x y (.mem m)) c) ∧
     (s.plat.hasVm87 = false →
       (∀ i ∈ ([.fldz, .fld1, .fldpi, .fldl2t, .fldl2e, .fldlg2, .fldln2, .fcompp, .ftst, .fxam, .fsqrt, .fscale,
          .fprem, .frndint, .fxtract, .fabs, .fchs, .fptan, .fpatan, .f2xm1, .fyl2x, .fyl2xp1, .fincstp,
          .fdecstp, .fnop, .finit, .feni, .fdisi, .fclex] : List Instr),
         exec i s = .next s) ∧
       (∀ j : BitVec 3, ∀ i ∈ ([.fldSti j, .fstSti j, .fstpSti j, .fxchSti j, .fcomSti j, .fcompSti j, .faddStSti j, .faddStiSt j,
          .faddpStiSt j, .fmulStSti j, .fmulStiSt j, .fmulpStiSt j, .fsubStSti j, .fsubStiSt j, .fsubrStSti j,
          .fsubrStiSt j, .fdivStSti j, .fdivStiSt j, .fdivrStSti j, .fdivrStiSt j, .fsubpStiSt j, .fsubrpStiSt j,
          .fdivpStiSt j, .fdivrpStiSt j, .ffreeSti j] : List Instr),
         exec i s = .next s) ∧
       ∀ m : MemOp, ∀ i ∈ ([.fldM32 m, .fldM64 m, .fldM80 m, .fildM16i m, .fildM32i m, .fildM64i m, .fbldM80 m, .fstM32 m,
          .fstM64 m, .fistM16i m, .fistM32i m, .fstpM32 m, .fstpM64 m, .fstpM80 m, .fistpM16i m, .fistpM32i m,
          .fistpM64i m, .fbstpM80 m, .fcomM32 m, .fcomM64 m, .ficomM16i m, .ficomM32i m, .fcompM32 m,
          .fcompM64 m, .ficompM16i m, .ficompM32i m, .faddM32 m, .faddM64 m, .fiaddM16i m, .fiaddM32i m,
          .fmulM32 m, .fmulM64 m, .fimulM16i m, .fimulM32i m, .fsubM32 m, .fsubM64 m, .fsubrM32 m, .fsubrM64 m,
          .fdivM32 m, .fdivM64 m, .fdivrM32 m, .fdivrM64 m, .fisubM16i m, .fisubM32i m, .fisubrM16i m,
          .fisubrM32i m, .fidivM16i m, .fidivM32i m, .fidivrM16i m, .fidivrM32i m, .fldcw m, .fstcw m, .fstsw m,
          .fstenv m, .fldenv m, .fsave m, .frstor m] : List Instr),
         exec i s = .next (s.readOp .word m).2 ∧ Becomes s i c)) ∧
  (∀ s : State,
     let led (l : Leading) : Cpu :=
       { s.cpu with
         phase := .leading, lead := { l with first := some (s.cpu.lead.first.getD s.cpu.instrAddr), last := s.cpu.instrAddr } }
     (∀ z, Only s (.repPrefix z) (led { s.cpu.lead with rep := some z })) ∧
     Only s .lockPrefix (led { s.cpu.lead with lock := true }) ∧
     (∀ sr, Only s (.segPrefix sr) (led { s.cpu.lead with seg := some sr })) ∧
     (s.cpu.phase = .leading → s.boundary = s) ∧
     (s.cpu.lead.lock = true → s.iop.lockOut = false →
       (s.env.agenda = [] → s.nextAgent.1 = .cpu ∨ s.nextAgent.1 = .fpu ∧ s.run.needsBus = false ∨
         s.nextAgent.1 = .iop ∧ s.iopNeedsBus = false) ∧
       (s.env.agenda = [] → s.cpu.phase = .testing → s.requested = false → s.iopReady = false → s.fpuReady = true →
         s.run.needsBus = false → s.nextAgent.1 = .fpu) ∧
       ∀ r, (s.env.agenda = .grantIop :: r → s.iopNeedsBus = true → s.nextAgent.1 = .event .grantIop) ∧
         (s.env.agenda = .grantFpu :: r → s.run.needsBus = true → s.nextAgent.1 = .event .grantFpu) ∧
         (s.env.agenda = .grantFpu :: r → s.fpuReady = true → s.run.needsBus = false → s.nextAgent.1 = .fpu) ∧
         ∀ k e d, s.env.agenda = .dmaGrant k e d :: r →
           s.nextAgent = (.nobody, { s with env := { s.env with
             agenda := r, delayed := s.env.delayed ++ [.dmaGrant k e d] } })) ∧
     (∀ e r, s.env.delayed = e :: r → s.cpu.lead.lock = false → s.iop.lockOut = false → s.vt37.yield = false →
       (∀ d ∈ s.cascaded, d.yield = false) → s.nextAgent = (.event e, { s with env := { s.env with delayed := r } })))

/-! ### The machine as a whole -/

/-- A step of the CPU fetches, which changes nothing but devices and the bytes of them that its queue holds, and runs
the instruction that its bytes decode to, in the state where IP points past it and TF has been sampled, then the
boundary procedure, with which the outputs of the VT37's last grant end; a string instruction between two elements and
a WAIT go on without a new fetch; a halted CPU only looks at the requests. A byte that the queue has taken from a
device, of those that follow, is not read again (R130), and with a byte at an even address the VM86 takes the one
above it, of the same word (R112). An ESC of a VM87 that works beside the CPU is taken by it (R462), and a later step
of the VM87 runs it in the state of the CPU at the ESC; before that it reads the rest of a source operand, and after
it writes the bytes of a result, in bus cycles of its own: a queued byte is stored at its address and every other byte
stays. An ESC that needs a WAIT and comes while TEST is 1 is refused (log 27: R465 and U17 leave it open). A step of
the VM89 in a channel program runs the instruction at TP, with TP past it, then starts a transfer that an XFER has
announced. After each, a rising edge of the line wired to NMI is latched, and the VT37s look at their requests, which
changes the levels of their pins DREQ and the channel for which HRQ stands, and nothing else. What counts as one step,
who takes it, and when the edge is latched and the requests are looked at, is the model's choice (logs 8, 9, 10, 14,
50, 59), and so is that refusal (log 27). -/
def Obligations.StepRunsTheDecodedInstruction : Prop :=
  (∀ (s : State) (i : Instr) (n : Nat), s.nextAgent.1 = .cpu →
    let t := s.nextAgent.2
    (∀ u, t.cpu.halted = false → (t.cpu.phase = .complete ∨ t.cpu.phase = .leading) → t.fetch86 = .ok (i, n, u) →
      u.cpu = { t.cpu with ahead := u.cpu.ahead } ∧ u.mem = t.mem ∧ t.SameBeyondBus u ∧
      (u.begun n).cpu = { t.cpu with ip := t.cpu.ip + BitVec.ofNat 16 n, instrAddr := t.cpu.ip,
                                     stepPending := t.cpu.f.tf, phase := .complete, ahead := (u.begun n).cpu.ahead } ∧
      (∀ e ∈ (u.begun n).cpu.ahead, e ∈ t.cpu.ahead ∧ inQueue t.cpu.cs t.cpu.ip e.1 n = false ∨
        inQueue t.cpu.cs (t.cpu.ip + BitVec.ofNat 16 n) e.1 t.queueLen = true) ∧
      (u.begun n).mem = t.mem ∧
      (t.plat.hasVm87 = false ∨ t.plat.vm87Atomic = true ∨ escOf i = none →
        step s = onNext (onNext (exec i (u.begun n)) State.cpuDone) s.turnDone) ∧
      (∀ x second rm, t.plat.hasVm87 = true → t.plat.vm87Atomic = false → escOf i = some (x, second, rm) →
        step s = onNext (onNext ((u.begun n).fpuIssue i x second rm) State.cpuDone) s.turnDone)) ∧
    (t.cpu.halted = false → t.cpu.phase = .element i →
      step s = onNext (onNext (exec i t.again) State.cpuDone) s.turnDone) ∧
    (t.cpu.halted = false → t.cpu.phase = .testing →
      step s = onNext (onNext (exec .wait t.again) State.cpuDone) s.turnDone) ∧
    (t.cpu.halted = true → step s = .next (s.turnDone t.haltedStep.endGrant))) ∧
  (∀ (s : State) (e : Host.Cell) (d : Dev) (k off : Nat), findRegion .ram e.1 s.plat.memoryMap = (.device d k, off) →
    s.cpu.ahead.find? (fun x => x.1 == e.1) = some e → s.fetchByte e.1 = (e.2, s)) ∧
  (∀ (s : State) (a : Nat) (d : Dev) (k off : Nat), s.plat.vm88 = false → a % 2 = 0 →
    findRegion .ram (a + 1) s.plat.memoryMap = (.device d k, off) → (∀ e ∈ s.cpu.ahead, e.1 ≠ a) →
    ∃ b, (a + 1, b) ∈ (s.fetchByte a).2.cpu.ahead) ∧
  (∀ s : State,
    let ended (d : Vt37) : Vt37 := { d with dack := 0#4, eop := false, given := [], yield := false }
    s.cpuDone = { s.boundary with vt37 := ended s.boundary.vt37, cascaded := s.boundary.cascaded.map ended }) ∧
  (∀ s t : State,
    let u := s.turnDone t
    u = { s.watchNmi t with vt37 := u.vt37, cascaded := u.cascaded } ∧
    ∀ k, ∃ c q, u.dmac k = { t.dmac k with chosen := c, dreq := q }) ∧
  (∀ (s : State) (i : Instr) (x second : Nat) (rm : RM), s.plat.hasVm87 = true →
    (s.testLevel = true → escNoWait x second rm = false → s.fpuIssue i x second rm = .refused .escWhileBusy) ∧
    (s.testLevel = false ∨ escNoWait x second rm = true → ∃ t j, s.fpuIssue i x second rm = .next t ∧
      j.instr = i ∧ j.cpu = s.cpu ∧ t.cpu = s.cpu ∧ t.fpu = s.fpu ∧ t.mem = s.mem ∧
      (t.run.jobs = s.run.jobs ++ [j] ∨ escInit x second = true ∧ t.run.jobs = [j]))) ∧
  (∀ (s : State) (j : FpuJob) (r : List FpuJob), s.nextAgent.1 = .fpu →
    let t := s.nextAgent.2
    t.run.writes = [] → t.run.jobs = j :: r → (∀ m need, j.source = some (m, need) → need ≤ j.got.length) →
      step s = onNext (onNext (exec j.instr { t with
          cpu := j.cpu, run := { jobs := r, writes := [], feed := some j.got } })
        fun u => { u with cpu := t.cpu, run := { u.run with feed := none } }) s.turnDone) ∧
  (∀ (s : State) (j : FpuJob) (r : List FpuJob) (m : MemOp) (need : Nat), s.nextAgent.1 = .fpu →
    let t := s.nextAgent.2
    t.run.writes = [] → t.run.jobs = j :: r → j.source = some (m, need) → j.got.length < need →
      step s = .next (s.turnDone (t.fpuReadOn j r m need))) ∧
  (∀ (s : State) (j : FpuJob) (r : List FpuJob) (m : MemOp) (need : Nat), j.got.length < need →
    let a := phys (j.cpu.memSeg m) (j.cpu.ea m) + j.got.length
    let t := s.fpuReadOn j r m need
    ∃ bs : List Byte, bs.length = min 2 (need - j.got.length) ∧
      (∀ k, k < bs.length → s.isMemory ((a + k) % 2 ^ 20) = true → bs.getD k 0#8 = s.byteAt ((a + k) % 2 ^ 20)) ∧
      t.run = { s.run with jobs := { j with got := j.got ++ bs } :: r } ∧ t.fpu = s.fpu ∧ s.SameBytes t ∧
      s.SameBesideFpu { t with run := s.run }) ∧
  (∀ s : State, s.nextAgent.1 = .fpu → s.nextAgent.2.run.writes ≠ [] →
    step s = .next (s.turnDone s.nextAgent.2.fpuWriteOn)) ∧
  (∀ s : State,
    let t := s.fpuWriteOn
    let now := s.run.writes.take 2
    t.run = { s.run with writes := s.run.writes.drop 2 } ∧ t.fpu = s.fpu ∧ s.SameBesideFpu { t with run := s.run } ∧
    (∀ x, (∀ c ∈ now, x ≠ c.1 % 2 ^ 20) → t.byteAt x = s.byteAt x) ∧
    ∀ c ∈ now, (s.isRam (c.1 % 2 ^ 20) = false → t.byteAt (c.1 % 2 ^ 20) = s.byteAt (c.1 % 2 ^ 20)) ∧
      (s.isRam (c.1 % 2 ^ 20) = true → (∀ d ∈ now, d.1 % 2 ^ 20 = c.1 % 2 ^ 20 → d = c) →
        t.byteAt (c.1 % 2 ^ 20) = c.2)) ∧
  (∀ (s : State) (i : Instr) (n : Nat) (u : State), s.nextAgent.1 = .iop →
    let t := s.nextAgent.2
    let ch := t.iop.nextChan
    let c := t.iop.chan ch
    t.iop.initialised = true → c.task = .program → t.fetch89 c = .ok (i, n, u) →
      u.cpu = t.cpu ∧ u.mem = t.mem ∧ t.SameBeyondBus u ∧
      step s = onNext (onNext (exec i (u.iopBegun ch i n)) fun v => v.iopAfter ch c.armed) s.turnDone ∧
      (u.iopBegun ch i n).ch.core = { c with
        tp := c.tp + BitVec.ofNat 20 n, ca := false, look := [], kept := none,
        queued := decide ((c.tp + BitVec.ofNat 20 n).toNat % 2 = 1) &&
          (if c.tagTp = true then t.iop.ioBus16 else t.iop.sysBus16) && !isLpdi i } ∧
      (u.iopBegun ch i n).mem = t.mem)

/-- The state after RESET (R44, R45, R56, R60, R86, R740, R861): what the spec gives for the CPU, the VM87, the VM89 and
the devices. The word 03BFH of CR is that of R56 (log 48). Not the source's values: TAG = FFFFH (D23, log 13), the
status 80H of the VG72 (general knowledge, log 35), and the canonical form of memory with nothing listed (log 1). -/
def Obligations.ResetLeavesTheGivenValues : Prop :=
  let s := State.reset
  s.cpu.cs = 0xFFFF#16 ∧ s.cpu.ds = 0#16 ∧ s.cpu.es = 0#16 ∧ s.cpu.ss = 0#16 ∧ s.cpu.ip = 0#16 ∧
  s.cpu.f = { cf := false, pf := false, af := false, zf := false, sf := false, tf := false, ifl := false, df := false,
              ofl := false } ∧
  phys s.cpu.cs s.cpu.ip = 0xFFFF0 ∧ s.cpu.nmiPending = false ∧ s.cpu.halted = false ∧
  s.fpu.cr = 0x03BF#16 ∧ s.fpu.tag = 0xFFFF#16 ∧ s.fpu.top = 0#3 ∧ s.fpu.busy = false ∧ s.fpu.int = false ∧
  (∀ k, k < 6 → s.fpu.masked k = true) ∧ (∀ i, s.fpu.isEmpty i = true) ∧
  s.iop.initialised = false ∧ s.iop.ready = false ∧ s.iop.ch1.widDone = false ∧ s.iop.ch2.widDone = false ∧
  s.run.active = false ∧ s.vt37.mask = 0xF#4 ∧ s.vt37.cr = 0#8 ∧ s.vt37.ff = false ∧ s.vt37.winner = none ∧
  s.vt37.chosen = none ∧ s.vg72.phase = .idle ∧ s.vg72.status = 0x80#8 ∧ s.ru55.ctl = 0#8 ∧ s.ru55.running = false ∧ s.MemoryWf

/-- RESET as an event (R861): CS = FFFFH, the other segment registers, IP and F are 0, the requests are dropped, the VM87
is initialised, the VM89 stops and knows of no WID; memory, the general registers and the VI54 keep their values. The
word 03BFH of CR is that of R56 (log 48); TAG = FFFFH is log 13, that C3-C0 and AR may then hold anything log 12, what
else RESET keeps or leaves open log 52. -/
def Obligations.ResetEventKeepsMemory : Prop :=
  ∀ s : State, ∃ t, s.event .reset = .next t ∧
    t.cpu = { Cpu.reset with ax := s.cpu.ax, cx := s.cpu.cx, dx := s.cpu.dx, bx := s.cpu.bx, sp := s.cpu.sp,
                             bp := s.cpu.bp, si := s.cpu.si, di := s.cpu.di } ∧
    t.mem = s.mem ∧ s.SameIo t ∧ t.ru55.ram = s.ru55.ram ∧ t.vi54 = s.vi54 ∧ t.env = s.env ∧ t.plat = s.plat ∧
    t.fpu.cr = 0x03BF#16 ∧ t.fpu.tag = 0xFFFF#16 ∧ t.fpu.top = 0#3 ∧ t.fpu.busy = false ∧ t.run.active = false ∧
    t.iop.initialised = false ∧ t.iop.ready = false ∧ t.iop.ch1.widDone = false ∧ t.iop.ch2.widDone = false ∧
    t.vt37.mask = 0xF#4 ∧ t.vt37.cr = 0#8 ∧ t.vt37.tc = 0#4 ∧ t.vt37.rr = 0#4 ∧ t.vt37.tr = 0#8 ∧ t.vt37.ff = false ∧
    t.vt37.chosen = none ∧ t.vt37.ch = s.vt37.ch

/-- The leading bytes belong to the instruction that is complete, and no MOV sr or POP sr came before the next. -/
def Sys2Proof.withoutLead (s : State) : State := { s with cpu := { s.cpu with lead := Leading.none, shadow := false } }

/-- What stands between two instructions (R41, R42, R805-R811): after an instruction that loads a segment register
nothing is recognised; without a request the next instruction follows; else NMI enters type 2, INTR with IF = 1 its
type after the acknowledge, and last a single step type 1, each entry from the state that the one before has left.
The bit `shadow` is the `inhibit_int` of R41 while the next instruction is in progress (log 55); that a single step
ends a HLT too is log 51. -/
def Obligations.BoundaryTakesRequestsInOrder : Prop :=
  ∀ s : State, s.cpu.phase = .complete →
    let offered (n : Byte) : Prop := s.cpu.f.ifl = true ∧ s.intr = some n
    let nothing : Prop := s.cpu.f.ifl = false ∨ s.intr = none
    let singleStep (m t : State) : Prop :=
      if s.cpu.stepPending = true then m.Enters t { m.cpu with stepPending := false } 1#8 else t = m
    (s.cpu.inhibit = true → s.boundary.cpu = { (withoutLead s).cpu with inhibit := false, shadow := true, stepPending := false } ∧
      s.SameOutside s.boundary) ∧
    (s.cpu.inhibit = false → s.cpu.nmiPending = false → nothing → singleStep (withoutLead s) s.boundary) ∧
    (s.cpu.inhibit = false → s.cpu.nmiPending = true →
      ∃ m, (withoutLead s).Enters m { (withoutLead s).cpu with nmiPending := false } 2#8 ∧ singleStep m s.boundary) ∧
    (∀ n, s.cpu.inhibit = false → s.cpu.nmiPending = false → offered n →
      ∃ m, (withoutLead s).acknowledge.Enters m (withoutLead s).cpu n ∧ singleStep m s.boundary)

/-- Between the elements of a repeated string instruction and inside WAIT a request is taken too, and then the return
address is that of the last leading byte, or of the first, so that the instruction goes on after the return (R310,
R814); a halted CPU stays halted until a request (R370, R809). The steps it speaks of are the model's choice (log 8), and
so is the single step between elements and inside WAIT, by the order of R811 (log 51). After MOV sr or POP sr too such an
instruction is interrupted so, since they hold requests off at their own boundary alone (R310, R809, R811; log 55). -/
def Obligations.RequestsInterruptLongInstructions : Prop :=
  ∀ s : State,
    let asked : Prop := s.requested = true ∨ s.cpu.stepPending = true
    (∀ i, s.cpu.phase = .element i →
      (¬asked → s.boundary = s) ∧
      (asked → s.boundary =
        State.takeAll { s with cpu := { s.cpu with ip := s.cpu.lead.last, phase := .complete, lead := Leading.none,
                                                   shadow := false } })) ∧
    (s.cpu.phase = .testing →
      (¬asked → s.boundary = s) ∧
      (asked → s.boundary =
        State.takeAll { s with cpu := { s.cpu with ip := s.cpu.lead.first.getD s.cpu.instrAddr, phase := .complete,
                                                   lead := Leading.none, shadow := false } })) ∧
    (s.requested = false → s.haltedStep = s) ∧
    (s.cpu.nmiPending = true → s.requested = true) ∧
    (s.cpu.f.ifl = false → s.cpu.nmiPending = false → s.requested = false)

/-- Every step keeps the memories in canonical form: addresses strictly rising, below 2^20 for the system's, 2^16 for
the two I/O spaces and 2^8 for the RU55, and no entry equal to what an unlisted byte reads as. The form is the model's
choice (log 1). -/
def Obligations.StepKeepsMemoryCanonical : Prop :=
  ∀ s t : State, s.MemoryWf → step s = .next t → t.MemoryWf

/-- No step changes a byte of system memory or of an I/O space where no RAM answers, nor the platform (R119): stores to
ROM, to absent memory and to devices leave every byte. Where nothing answers a store has no effect (log 6). -/
def Obligations.StepStoresInRamAlone : Prop :=
  ∀ s t : State, step s = .next t →
    t.plat = s.plat ∧ (∀ a, s.isRam a = false → t.byteAt a = s.byteAt a) ∧
    (∀ x, (findRegion .absent x s.plat.ioMap).1 ≠ .ram → t.iomem.get x = s.iomem.get x) ∧
    ∀ x, (findRegion .ram x s.plat.remoteMap).1 ≠ .ram → t.remote.get x = s.remote.get x

/-! ### Encodings -/

/-- Decoding the bytes of a well-formed instruction of the VM86 or the VM87 gives it back, and leaves the bytes that
follow (R150-R167). -/
def Obligations.EncodingsOfTheCpuDecode : Prop :=
  ∀ (i : Instr) (rest : List Byte), i.wf = true → i.isIop = false → decode86 (encode i ++ rest) = .ok (i, rest)

/-- The same for the VM89 (R590-R594). -/
def Obligations.EncodingsOfTheIopDecode : Prop :=
  ∀ (i : Instr) (rest : List Byte), i.wf = true → i.isIop = true → decode89 (encode i ++ rest) = .ok (i, rest)

/-- Some words written out from the encodings of the spec, with what they stand for. -/
def Obligations.WordsDecode : Prop :=
  (decode86 [0x8B#8, 0x46#8, 0xFE#8]).toOption = some (.movRmR .toReg .word .ax (.mem (.disp8 .bp 0xFE#8)), []) ∧
  (decode86 [0x83#8, 0xC3#8, 0xFF#8]).toOption = some (.addRmImm (.reg .bx) (.sx 0xFF#8), []) ∧
  (decode86 [0xD3#8, 0xE0#8]).toOption = some (.shlRm .cl .word (.reg .ax), []) ∧
  (decode86 [0xF3#8, 0xA5#8]).toOption = some (.repPrefix true, [0xA5#8]) ∧ (decode86 [0xA5#8]).toOption = some (.movs .word, []) ∧
  (decode86 [0x75#8, 0xFB#8]).toOption = some (.jne 0xFB#8, []) ∧ (decode86 [0xCD#8, 0x21#8]).toOption = some (.intN 0x21#8, []) ∧
  (decode86 [0xD9#8, 0xE8#8]).toOption = some (.fld1, []) ∧ (decode86 [0xD8#8, 0xC1#8]).toOption = some (.faddStSti 1#3, []) ∧
  (match decode86 [0x0F#8] with | .error e => some e | .ok _ => none) = some .loadCs ∧
  (match decode86 [0x60#8] with | .error e => some e | .ok _ => none) = some .unusedOpcode ∧
  (decode89 [0x71#8, 0x30#8, 0x00#8, 0x01#8]).toOption = some (.iMoviRegData .bc 0x0100#16, []) ∧
  (decode89 [0x20#8, 0x48#8]).toOption = some (.iHlt, []) ∧ (decode89 [0x60#8, 0x00#8]).toOption = some (.iXfer, [])

/-! ### The VM87 -/

/-- The register stack (R50, R51, R426): an operand loaded on a free register becomes ST(0) and the others move up by
one, and pop() undoes it. A full top is a stack overflow, and an empty ST(i) as the source of FLD the other stack
fault: masked, the indefinite code is loaded and IE is set, and the request rises where IEM alone masks it (R53);
unmasked, no register changes and the request and BUSY rise. A denormalised operand sets DE and is loaded when DE is
masked (R422, R433); unmasked, no register changes. That BUSY rises with the request is log 14, that an unmasked DE
loads nothing is D24 (R428, log 25). -/
def Obligations.CoprocessorStack : Prop :=
  ∀ (f : Fpu) (o : Opnd) (empty : Bool),
    let g := f.load o empty
    let free := (f.setTop (f.top - 1)).isEmpty 0
    let moved : Prop :=
      g.top = f.top - 1 ∧ g.cr = f.cr ∧ (∀ i, i ≠ 7#3 → g.st (i + 1) = f.st i ∧ g.tagOf (i + 1) = f.tagOf i) ∧
      g.sr.getLsbD 15 = f.sr.getLsbD 15
    let held (k : ℕ) : Prop :=
      g.ar = f.ar ∧ g.tag = f.tag ∧ g.top = f.top ∧ g.cr = f.cr ∧ g.sr.getLsbD k = true ∧ g.sr.getLsbD 7 = true ∧
      g.sr.getLsbD 15 = true
    (free = true → empty = false → (o.den = true → f.masked 1 = true) →
      moved ∧ g.st 0 = o.v ∧ g.tagOf 0 = extTag o.v ∧ g.sr.getLsbD 0 = f.sr.getLsbD 0 ∧
      g.sr.getLsbD 1 = (f.sr.getLsbD 1 || o.den) ∧
      g.sr.getLsbD 7 = (f.sr.getLsbD 7 || (o.den && !f.cr.getLsbD 1)) ∧
      g.pop.top = f.top ∧ g.pop.isEmpty 7 = true ∧ ∀ i, i ≠ 7#3 → g.pop.st i = f.st i ∧ g.pop.tagOf i = f.tagOf i) ∧
    (free = true → empty = false → o.den = true → f.masked 1 = false → held 1) ∧
    (free = false ∨ empty = true → f.masked 0 = true →
      moved ∧ g.st 0 = indefinite ∧ g.tagOf 0 = 2 ∧ g.sr.getLsbD 0 = true ∧ g.sr.getLsbD 1 = f.sr.getLsbD 1 ∧
      g.sr.getLsbD 7 = (f.sr.getLsbD 7 || !f.cr.getLsbD 0)) ∧
    (free = false ∨ empty = true → f.masked 0 = false → held 0 ∧ g.sr.getLsbD 1 = f.sr.getLsbD 1)

/-- The magnitude of a finite temporary real (R404): bit 63 of the mantissa has the weight of two to the exponent field
less 16383, and field 0 counts as 1 (R422). -/
noncomputable def Sys2Proof.extMagnitude (v : Ext80) : ℝ :=
  let field : ℕ := v.toNat / 2 ^ 64 % 2 ^ 15
  ((v.toNat % 2 ^ 64 : ℕ) : ℝ) * 2 ^ ((if field = 0 then 1 else (field : ℤ)) - 16446)

/-- The number that a finite temporary real is. -/
noncomputable def Sys2Proof.extNumber (v : Ext80) : ℝ := if extSign v = true then -extMagnitude v else extMagnitude v

/-- The widths of fraction and exponent, and the bias, of the short and of the long real (R403). -/
def Sys2Proof.fractionBits (long : Bool) : ℕ := if long = true then 52 else 23
def Sys2Proof.exponentBits (long : Bool) : ℕ := if long = true then 11 else 8
def Sys2Proof.exponentBias (long : Bool) : ℤ := if long = true then 1023 else 127

/-- The magnitude of a finite short or long real (R403). -/
noncomputable def Sys2Proof.realMagnitude (long : Bool) (w : ℕ) : ℝ :=
  let f := fractionBits long
  let e := w / 2 ^ f % 2 ^ exponentBits long
  if e = 0 then ((w % 2 ^ f : ℕ) : ℝ) * 2 ^ (1 - exponentBias long - f)
  else ((2 ^ f + w % 2 ^ f : ℕ) : ℝ) * 2 ^ ((e : ℤ) - exponentBias long - f)

/-- The value of the eighteen digits of a packed decimal (R402). -/
def Sys2Proof.decimalValue (w : ℕ) : ℕ := ((List.range 18).map fun i => w / 16 ^ i % 16 * 10 ^ i).sum

/-- `v` is the multiple of `unit` that the rounding control `rc` chooses for the magnitude `x` of a number that is
negative or not (R410): nearest and even, toward minus infinity, toward plus infinity, toward zero. -/
def Sys2Proof.RoundsTo (rc : ℕ) (neg : Bool) (x unit v : ℝ) : Prop :=
  (∃ k : ℕ, v = k * unit) ∧
  match rc with
  | 0 => |v - x| ≤ unit / 2 ∧ (|v - x| = unit / 2 → ∃ k : ℕ, v = 2 * k * unit)
  | 1 => if neg = true then x ≤ v ∧ v < x + unit else v ≤ x ∧ x < v + unit
  | 2 => if neg = true then v ≤ x ∧ x < v + unit else x ≤ v ∧ v < x + unit
  | _ => v ≤ x ∧ x < v + unit

/-- The loads (R470-R472) and the constants (R479-R485): the value in memory, in ST(i) or built in is loaded on the
stack; a packed decimal with a digit above 9 is any value, a constant one of the two neighbours of the true one. The
constants and the bad packed decimals are logs 15 and 17; the exception pointers are those of R57 (log 24). A short or
long real and a packed decimal are loaded exactly, with their sign; a denormalised real is marked as such (R402, R403,
R406). An infinity or a NAN of these two formats becomes one of the temporary real, with its fraction below an integer
bit of 1 (R406, general knowledge by its own words). What a load does with a denormalised operand, with an empty
register and with a full stack is the statement CoprocessorStack. -/
def Obligations.CoprocessorLoads : Prop :=
  (∀ (long : Bool) (w : ℕ) (x : Ext80),
    let o := ofReal long w
    let e := w / 2 ^ fractionBits long % 2 ^ exponentBits long
    let fraction := w % 2 ^ fractionBits long
    extSign o.v = w.testBit (fractionBits long + exponentBits long) ∧
    (e ≠ 2 ^ exponentBits long - 1 → extMagnitude o.v = realMagnitude long w ∧ (o.den = true ↔ e = 0 ∧ fraction ≠ 0) ∧
      extClass o.v = if e = 0 then (if fraction = 0 then .zero else .unnormal) else .normal) ∧
    (e = 2 ^ exponentBits long - 1 → o.den = false ∧ extMant o.v = 2 ^ 63 + fraction * 2 ^ (63 - fractionBits long) ∧
      extClass o.v = if fraction = 0 then .infinity else .nan) ∧
    ((∀ i, i < 18 → w / 16 ^ i % 16 ≤ 9) →
      extMagnitude (ofBcd x w) = (decimalValue w : ℝ) ∧ extSign (ofBcd x w) = w.testBit 79)) ∧
  ∀ s : State, s.FpuReady →
    let f := s.fpu
    let value (v : Ext80) : Opnd := { v := v, den := false }
    let mem (n : Nat) (i : MemOp → Instr) (o : Nat → Opnd) : Prop :=
      ∀ m, ∃ w, s.SourceIs (s.escAddr m) n w ∧ FpuBecomes s (i m) (some (s.escAddr m)) (f.load (o w) false)
    let const (i : Instr) (e m : Nat) : Prop :=
      ∃ k, (k = m ∨ k = m + 1) ∧ FpuBecomes s i none (f.load (value (mkExt false e k)) false)
    mem 4 .fldM32 (ofReal false) ∧ mem 8 .fldM64 (ofReal true) ∧
    mem 2 .fildM16i (fun w => value (extOfIntValue (signedBits 16 w))) ∧
    mem 4 .fildM32i (fun w => value (extOfIntValue (signedBits 32 w))) ∧
    mem 8 .fildM64i (fun w => value (extOfIntValue (signedBits 64 w))) ∧
    (∀ m, ∃ w, s.SourceIs (s.escAddr m) 10 w ∧
      (extClass (BitVec.ofNat 80 w) ≠ .bad →
        FpuBecomes s (.fldM80 m) (some (s.escAddr m)) (f.load (value (BitVec.ofNat 80 w)) false))) ∧
    (∀ m, ∃ w x, s.SourceIs (s.escAddr m) 10 w ∧
      FpuBecomes s (.fbldM80 m) (some (s.escAddr m)) (f.load (value (ofBcd x w)) false)) ∧
    (∀ i, extClass (f.operand i) ≠ .bad →
      FpuBecomes s (.fldSti i) none (f.load (value (f.operand i)) (f.isEmpty i))) ∧
    FpuBecomes s .fldz none (f.load (value (extZero false)) false) ∧
    FpuBecomes s .fld1 none (f.load (value (mkExt false 0x3FFF (2 ^ 63))) false) ∧
    const .fldpi 0x4000 0xC90FDAA22168C234 ∧ const .fldl2t 0x4000 0xD49A784BCD1B8AFE ∧
    const .fldl2e 0x3FFF 0xB8AA3B295C17F0BB ∧ const .fldlg2 0x3FFD 0x9A209A84FBCFF798 ∧
    const .fldln2 0x3FFE 0xB17217F7D1CF79AB

/-- What a store of the converted value `r` does (R425, R428, R429): an unmasked invalid operation, overflow or underflow
stores nothing and pops nothing; otherwise the flags are raised, the value is stored and the stack is popped. -/
def Sys2Proof.StoresResult (s : State) (i : Instr) (a n pops : Nat) (r : SRes) : Prop :=
  let f := s.fpu
  if r.ie = true then
    if f.masked 0 = true then FpuWrites s i a n r.val ((f.raise 0).popN pops) else FpuBecomes s i (some a) (f.raise 0)
  else
    let g := if r.oe = true then f.raise 3 else f
    let g := if r.ue = true then g.raise 4 else g
    if (r.oe = true ∧ f.masked 3 = false) ∨ (r.ue = true ∧ f.masked 4 = false) then FpuBecomes s i (some a) g
    else FpuWrites s i a n r.val ((if r.pe = true then g.raise 5 else g).popN pops)

/-- The stores (R473-R477): ST(0) is converted to the format of the operand, or copied bit for bit by FSTP m80; an
empty ST(0) is an invalid operation. The exception pointers are those of R57 (log 24). The bytes are stored in the
step of the ESC, or queued for the write cycles of a VM87 that works beside the CPU (log 14); that an unmasked invalid
operation stores and pops nothing is D24 (log 25), and that FSTP m80 takes a pattern outside Table 3.5 is log 26. A
conversion gives the number rounded as RC says (R410, R413): an integer or a decimal that its format holds, and one
that it does not hold is the indefinite code, with IE. A short or long real takes the number with the bits of its
fraction; when that lies above its largest number it overflows, to an infinity with PE (R424, in all four modes by
D26), and when it lies below its least normal number it underflows, to the denormalised number, rounded once more by
RC when bits are shifted out (R425; log 41). Zeros, infinities and NANs keep class and sign; of a NAN's fraction the
bits that fit are kept, and when they are all 0 it is not known (R413, general knowledge by its own words; log 44). An
unnormal or a pseudo-zero underflows or is invalid (R434; log 54). The flags are those that Table 3.14 lists (R556):
no DE, and no PE of FBSTP; that this list goes before the general rules is log 46, and that FBSTP stores -0 for a
negative number that rounds to 0 is log 54. -/
def Obligations.CoprocessorStores : Prop :=
  (∀ (c : FCtl) (long : Bool) (v : Ext80),
    let x := extMagnitude v
    let f := fractionBits long
    let width := f + exponentBits long
    let ones := 2 ^ exponentBits long - 1
    let least := 1 - exponentBias long
    let r := storeReal c long v
    let code (neg : Bool) (e k : ℕ) : ℕ := (if neg = true then 2 ^ width else 0) + e * 2 ^ f + k
    let exact (e k : ℕ) : SRes := SRes.exact (code (extSign v) e k)
    let invalid : SRes := { SRes.exact (code true ones (2 ^ (f - 1))) with ie := true }
    let shortened (n : ℝ) : Prop :=
      ∃ e : ℤ, (2 : ℝ) ^ e ≤ x ∧ x < 2 ^ (e + 1) ∧ RoundsTo c.rc (extSign v) x (2 ^ (e - f)) n
    let underflows (n : ℝ) : Prop :=
      r.oe = false ∧ r.ue = true ∧ (r.pe = true ↔ realMagnitude long r.val ≠ x) ∧
      RoundsTo c.rc (extSign v) n (2 ^ (least - f)) (realMagnitude long r.val)
    let signed : Prop := r.ie = false ∧ r.val < 2 ^ (width + 1) ∧ r.val.testBit width = extSign v
    (extClass v = .normal ∨ extClass v = .denormal → signed ∧ ∃ n, shortened n ∧
      (2 ^ (exponentBias long + 1) ≤ n → r = { exact ones 0 with oe := true, pe := true }) ∧
      (2 ^ least ≤ n → n < 2 ^ (exponentBias long + 1) →
        r.oe = false ∧ r.ue = false ∧ realMagnitude long r.val = n ∧ (r.pe = true ↔ n ≠ x)) ∧
      (n < 2 ^ least → underflows n)) ∧
    (extClass v = .zero → r = exact 0 0) ∧ (extClass v = .infinity → r = exact ones 0) ∧
    (extClass v = .nan → ∃ k, r = exact ones k ∧ 0 < k ∧ k < 2 ^ f ∧
      (extMant v / 2 ^ (63 - f) % 2 ^ f ≠ 0 → k = extMant v / 2 ^ (63 - f) % 2 ^ f)) ∧
    (extClass v = .unnormal →
      (2 ^ least ≤ x → r = invalid) ∧ (x < 2 ^ least → signed ∧ ∃ n, shortened n ∧ underflows n)) ∧
    (extClass v = .pseudoZero →
      r = if (extExp v : ℤ) - 16383 < least then { exact 0 0 with ue := true } else invalid)) ∧
  (∀ (c : FCtl) (v : Ext80) (n : ℕ), extClass v = .normal ∨ extClass v = .zero →
    RoundsTo c.rc (extSign v) (extMagnitude v) 1 n →
    let noneOf (r : SRes) : Prop := r.ie = false ∧ r.oe = false ∧ r.ue = false
    (∀ bits : ℕ, bits = 16 ∨ bits = 32 ∨ bits = 64 →
      let r := storeInt c bits v
      if n < 2 ^ (bits - 1) then
        noneOf r ∧ (r.pe = true ↔ (n : ℝ) ≠ extMagnitude v) ∧ r.val < 2 ^ bits ∧
          signedBits bits r.val = if extSign v = true then -(n : ℤ) else n
      else r.ie = true ∧ r.val = 2 ^ (bits - 1)) ∧
    let r := storeBcd c v
    if n < 10 ^ 18 then
      noneOf r ∧ r.pe = false ∧ decimalValue r.val = n ∧
        (∀ i, i < 18 → r.val / 16 ^ i % 16 ≤ 9) ∧ r.val / 2 ^ 72 = if extSign v = true then 2 ^ 7 else 0
    else r.ie = true ∧ r.val = 2 ^ 80 - 1) ∧
  ∀ (s : State) (m : MemOp), s.FpuReady →
    let v := s.fpu.operand 0
    let empty := s.fpu.isEmpty 0
    let stores (i : Instr) (n pops : Nat) (conv : FCtl → Ext80 → SRes) : Prop :=
      ∃ k, let r := conv (s.fpu.ctl k) v
        StoresResult s i (s.escAddr m) n pops { r with ie := r.ie || empty }
    stores (.fstpM80 m) 10 1 (fun _ x => SRes.exact x.toNat) ∧
    (extClass v ≠ .bad →
      stores (.fstM32 m) 4 0 (fun c => storeReal c false) ∧ stores (.fstM64 m) 8 0 (fun c => storeReal c true) ∧
      stores (.fistM16i m) 2 0 (fun c => storeInt c 16) ∧ stores (.fistM32i m) 4 0 (fun c => storeInt c 32) ∧
      stores (.fstpM32 m) 4 1 (fun c => storeReal c false) ∧ stores (.fstpM64 m) 8 1 (fun c => storeReal c true) ∧
      stores (.fistpM16i m) 2 1 (fun c => storeInt c 16) ∧ stores (.fistpM32i m) 4 1 (fun c => storeInt c 32) ∧
      stores (.fistpM64i m) 8 1 (fun c => storeInt c 64) ∧ stores (.fbstpM80 m) 10 1 storeBcd)

/-- FST ST(i), FSTP ST(i) (R473, R475), FXCH (R478), FINCSTP, FDECSTP, FFREE, FNOP (R534-R537), with the registers they
use not empty: contents move with their tags; nothing else changes. That a pattern outside Table 3.5 moves too is log 26;
the exception pointers are those of R57 (log 24). -/
def Obligations.CoprocessorStackMoves : Prop :=
  ∀ (s : State) (i : BitVec 3), s.FpuReady →
    let f := s.fpu
    (f.isEmpty 0 = false →
      FpuBecomes s (.fstSti i) none ((f.put i (f.st 0)).setTag i (f.tagOf 0)) ∧
      FpuBecomes s (.fstpSti i) none ((f.put i (f.st 0)).setTag i (f.tagOf 0)).pop) ∧
    (f.isEmpty 0 = false → f.isEmpty i = false →
      ∃ g, FpuBecomes s (.fxchSti i) none g ∧ g.st 0 = f.st i ∧ g.st i = f.st 0 ∧ g.tagOf 0 = f.tagOf i ∧
        g.tagOf i = f.tagOf 0 ∧ (∀ j, j ≠ 0#3 → j ≠ i → g.st j = f.st j ∧ g.tagOf j = f.tagOf j) ∧
        g.sr = f.sr ∧ g.cr = f.cr) ∧
    FpuBecomes s .fincstp none (f.setTop (f.top + 1)) ∧ FpuBecomes s .fdecstp none (f.setTop (f.top - 1)) ∧
    FpuBecomes s (.ffreeSti i) none (f.setTag i 3) ∧ FpuBecomes s .fnop none f

/-- The comparisons (R486-R491): ST(0) against a memory operand, ST(i) or zero, then none, one or two pops. FXAM (R492,
R440): the class of ST(0) in C3, C2, C0 and its sign in C1; of an empty register C2 and C1 are unknown. The unknown
codes of an empty register are log 19; the exception pointers are those of R57 (log 24). A comparison writes C3 C2 C0 as
000 for greater, 001 for less, 100 for equal and 111 for operands that cannot be compared, which a NAN makes so, with IE
(R437, R440); unmasked IE leaves the codes and the stack (R428, log 25). Finite operands, zeros, denormals, unnormals and
pseudo-zeros among them, are related as the numbers that they are. An infinity cannot be compared in the projective mode,
with IE, and lies beyond every number on its side in the affine mode, equal to itself (R438). A denormalised operand sets
DE; masked, the comparison goes on, and unmasked DE leaves the codes and the stack (R422, R428, log 25). -/
def Obligations.CoprocessorComparisons : Prop :=
  (∀ (f : Fpu) (r : Rel),
    let g := f.setRel r
    g.ar = f.ar ∧ g.tag = f.tag ∧ g.cr = f.cr ∧ (∀ k, k ≠ 14 → k ≠ 10 → k ≠ 8 → g.sr.getLsbD k = f.sr.getLsbD k) ∧
    (g.sr.getLsbD 14, g.sr.getLsbD 10, g.sr.getLsbD 8) =
      match r with
      | .gt => (false, false, false)
      | .lt => (false, false, true)
      | .eq => (true, false, false)
      | .unordered => (true, true, true)) ∧
  (∀ (affine : Bool) (a b : Opnd),
    let c := fpCompare affine a b
    let finite (o : Opnd) : Prop := o.cls ≠ .infinity ∧ o.cls ≠ .nan
    let beyond (neg : Bool) : Rel := if neg = true then .lt else .gt
    (a.cls = .nan ∨ b.cls = .nan → c.1 = true ∧ c.2.2 = .unordered) ∧
    (finite a → finite b → c.1 = false ∧ c.2.1 = (a.den || b.den) ∧
      (c.2.2 = .lt ↔ extNumber a.v < extNumber b.v) ∧ (c.2.2 = .eq ↔ extNumber a.v = extNumber b.v) ∧
      (c.2.2 = .gt ↔ extNumber b.v < extNumber a.v)) ∧
    (a.cls ≠ .nan → b.cls ≠ .nan → a.cls = .infinity ∨ b.cls = .infinity → affine = false →
      c.1 = true ∧ c.2.2 = .unordered) ∧
    (affine = true → a.cls = .infinity → b.cls = .infinity →
      c = (false, false, if extSign a.v = extSign b.v then .eq else beyond (extSign a.v))) ∧
    (affine = true → a.cls = .infinity → finite b → c = (false, b.den, beyond (extSign a.v))) ∧
    (affine = true → finite a → b.cls = .infinity → c = (false, a.den, beyond (!extSign b.v)))) ∧
  (∀ (f : Fpu) (b : Opnd) (pops : ℕ),
    let a := Opnd.ofReg (f.operand 0)
    let c := fpCompare (f.cr.getLsbD 12) a b
    (c.1 = false → c.2.1 = false → f.compare b pops = (f.setRel c.2.2).popN pops) ∧
    (c.1 = false → c.2.1 = true → f.compare b pops =
      if f.masked 1 = true then ((f.raise 1).setRel c.2.2).popN pops else f.raise 1) ∧
    (c.1 = true → f.compare b pops =
      if f.masked 0 = true then ((f.raise 0).setRel c.2.2).popN pops else f.raise 0)) ∧
  ∀ s : State, s.FpuReady →
    let f := s.fpu
    let good (j : BitVec 3) : Prop := (Opnd.ofReg (f.operand j)).cls ≠ .bad
    let mem (k : FSrc) (i : MemOp → Instr) (pops : Nat) : Prop :=
      ∀ m, ∃ w, s.SourceIs (s.escAddr m) k.size w ∧ FpuBecomes s (i m) (some (s.escAddr m)) (f.compare (k.opnd w) pops)
    let examined (c3 c2 c0 : Bool) : Prop :=
      FpuBecomes s .fxam none ((f.setCodes c3 c2 c0).setC1 (extSign (f.st 0)))
    (good 0 →
      mem .short .fcomM32 0 ∧ mem .long .fcomM64 0 ∧ mem .word .ficomM16i 0 ∧ mem .dword .ficomM32i 0 ∧
      mem .short .fcompM32 1 ∧ mem .long .fcompM64 1 ∧ mem .word .ficompM16i 1 ∧ mem .dword .ficompM32i 1 ∧
      (∀ j, good j →
        FpuBecomes s (.fcomSti j) none (f.compare (Opnd.ofReg (f.operand j)) 0) ∧
        FpuBecomes s (.fcompSti j) none (f.compare (Opnd.ofReg (f.operand j)) 1)) ∧
      (good 1 → FpuBecomes s .fcompp none (f.compare (Opnd.ofReg (f.operand 1)) 2)) ∧
      FpuBecomes s .ftst none (f.compare { v := extZero false, den := false } 0)) ∧
    (f.isEmpty 0 = true → ∃ c2 c1, FpuBecomes s .fxam none ((f.setCodes true c2 true).setC1 c1)) ∧
    (f.isEmpty 0 = false →
      match extClass (f.st 0) with
      | .zero => examined true false false
      | .pseudoZero => examined false false false
      | .denormal => examined true true false
      | .unnormal => examined false false false
      | .normal => examined false true false
      | .infinity => examined false true true
      | .nan => examined false false true
      | .bad => True)

/-- A dyadic operation of the VM87 in its seven forms: four memory formats into ST(0), ST(i) into ST(0), ST(0) into ST(i)
without and with a pop; `rev` exchanges the operands. -/
def Sys2Proof.ArithmeticFamily (s : State) (g : Sys2Proof.Machine.Dyadic) (rev : Bool) (m32 m64 m16i m32i : MemOp → Instr)
    (top sti pop : BitVec 3 → Instr) : Prop :=
  let f := s.fpu
  let x := Opnd.ofReg (f.operand 0)
  let runs (i : Instr) (ep : Option Nat) (y : Opnd) (intoTop : Bool) (dst : BitVec 3) (pops : Nat) : Prop :=
    x.cls ≠ .bad → y.cls ≠ .bad → ∃ k, FpuBecomes s i ep
      (f.deliver (if rev = true then g (f.ctl k) y x (!intoTop) else g (f.ctl k) x y intoTop)
        fun h v => (h.put dst v).popN pops)
  let mem (k : FSrc) (i : MemOp → Instr) : Prop :=
    ∀ m, ∃ w, s.SourceIs (s.escAddr m) k.size w ∧ runs (i m) (some (s.escAddr m)) (k.opnd w) true 0 0
  mem .short m32 ∧ mem .long m64 ∧ mem .word m16i ∧ mem .dword m32i ∧
  ∀ j, let y := Opnd.ofReg (f.operand j)
    runs (top j) none y true 0 0 ∧ runs (sti j) none y false j 0 ∧ runs (pop j) none y false j 1

/-- A magnitude that, rounded, is neither too large nor too small for the exponent field of a normal number. -/
def Sys2Proof.InRange (x : ℝ) : Prop := (2 : ℝ) ^ (-16382 : ℤ) ≤ x ∧ x < 2 ^ (16383 : ℤ)

/-- A result without a condition but PE: the magnitude `x` and the sign, rounded to `p` bits as RC says; PE tells whether
it is inexact (R410, R412). -/
def Sys2Proof.RoundedResult (c : FCtl) (p : ℕ) (neg : Bool) (x : ℝ) (r : FRes) : Prop :=
  r.ie = false ∧ r.de = false ∧ r.ze = false ∧ r.oe = false ∧ r.ue = false ∧ extClass r.val = .normal ∧
  extSign r.val = neg ∧ (r.pe = true ↔ extMagnitude r.val ≠ x) ∧
  ∃ e : ℤ, (2 : ℝ) ^ e ≤ x ∧ x < 2 ^ (e + 1) ∧ RoundsTo c.rc neg x (2 ^ (e + 1 - p)) (extMagnitude r.val)

/-- Addition, subtraction, multiplication and division of the VM87 (R493-R510), with the operands in both orders. The
exception pointers are those of R57 (log 24). Of normal numbers the result is the exact sum, difference, product or
quotient rounded to the precision of PC as RC says, when it is in the range of the normal numbers (R410-R412); a
number divided by zero is an infinity, with ZE (R423). That FADDP, FSUBP, FSUBRP, FMULP, FDIVP and FDIVRP pop after an
unmasked overflow or underflow too is the model's choice (log 25, DESIGN CHOICE). RC is CR bits 11-10, PC bits 9-8 and
the control of infinities bit 12 (R55); the length that PC = 01 gives is log 22. -/
def Obligations.CoprocessorArithmetic : Prop :=
  (∀ (f : Fpu) (k : Nat),
    let c := f.ctl k
    let pc := f.cr.toNat / 2 ^ 8 % 4
    c.rc = f.cr.toNat / 2 ^ 10 % 4 ∧ c.affine = f.cr.getLsbD 12 ∧ 1 ≤ c.prec ∧ c.prec ≤ 64 ∧
    (pc = 0 → c.prec = 24) ∧ (pc = 2 → c.prec = 53) ∧ (pc = 3 → c.prec = 64)) ∧
  (∀ (c : FCtl) (a b : Ext80) (d zero : Bool), 1 ≤ c.prec → c.prec ≤ 64 → extClass a = .normal → extClass b = .normal →
    let x := Opnd.ofReg a
    let y := Opnd.ofReg b
    let sign : Bool := extSign a != extSign b
    let sums (sub : Bool) (v : ℝ) : Prop :=
      InRange |v| → ∃ neg : Bool, (neg = true ↔ v < 0) ∧ RoundedResult c c.prec neg |v| (fpAdd c sub x y d)
    sums false (extNumber a + extNumber b) ∧ sums true (extNumber a - extNumber b) ∧
    (InRange (extMagnitude a * extMagnitude b) →
      RoundedResult c c.prec sign (extMagnitude a * extMagnitude b) (fpMul c x y d)) ∧
    (InRange (extMagnitude a / extMagnitude b) →
      RoundedResult c c.prec sign (extMagnitude a / extMagnitude b) (fpDiv c x y d)) ∧
    fpDiv c x (Opnd.ofReg (extZero zero)) d = { FRes.exact (extInf (extSign a != zero)) with ze := true }) ∧
  ∀ s : State, s.FpuReady →
    ArithmeticFamily s (fun c => fpAdd c false) false .faddM32 .faddM64 .fiaddM16i .fiaddM32i .faddStSti .faddStiSt
      .faddpStiSt ∧
    ArithmeticFamily s (fun c => fpAdd c true) false .fsubM32 .fsubM64 .fisubM16i .fisubM32i .fsubStSti .fsubStiSt
      .fsubpStiSt ∧
    ArithmeticFamily s (fun c => fpAdd c true) true .fsubrM32 .fsubrM64 .fisubrM16i .fisubrM32i .fsubrStSti .fsubrStiSt
      .fsubrpStiSt ∧
    ArithmeticFamily s fpMul false .fmulM32 .fmulM64 .fimulM16i .fimulM32i .fmulStSti .fmulStiSt .fmulpStiSt ∧
    ArithmeticFamily s fpDiv false .fdivM32 .fdivM64 .fidivM16i .fidivM32i .fdivStSti .fdivStiSt .fdivpStiSt ∧
    ArithmeticFamily s fpDiv true .fdivrM32 .fdivrM64 .fidivrM16i .fidivrM32i .fdivrStSti .fdivrStiSt .fdivrpStiSt

/-- The result `r` is a normal number with the sign `neg` that lies by no more than the tolerance of the platform,
counted in units of the last place of `y`, and the rounding beside the magnitude `y` (U12). -/
def Sys2Proof.Approximates (tol : ℕ) (neg : Bool) (y : ℝ) (r : FRes) : Prop :=
  extClass r.val = .normal ∧ extSign r.val = neg ∧
  ∃ e : ℤ, (2 : ℝ) ^ e ≤ y ∧ |extMagnitude r.val - y| ≤ (2 * tol + 4) * 2 ^ (e - 63)

/-- FSQRT, FSCALE, FPREM, FRNDINT, FXTRACT, FABS, FCHS (R511-R517) and the transcendental instructions (R518-R522):
what they read, what they replace, push or pop. The open values are logs 16, 20, 21, 42, 43 and 54; that FABS and FCHS
change the sign of a NAN and of a denormal too is log 45, that the transcendental instructions take a pattern outside
Table 3.5 is log 26; the exception pointers are those of R57 (log 24). Of normal numbers: the root is the exact one
rounded; FRNDINT gives the integer that RC chooses; FSCALE by an integer adds it to the exponent; FPREM gives what is
left of the dividend after a whole number of divisors, complete when the exponents lie near enough, with the low bits
of that number; FXTRACT gives an exponent and a mantissa from 1 to 2 that make the number; FYL2X of a power of two
gives the product with its exponent, up to the tolerance (U12), with PE when that is not exact. Inside their ranges,
and where the result is not near the ends of the exponent, F2XM1 gives 2^x - 1, FPTAN two numbers with the ratio tg
(z/2), or tg z when the platform says so (D30), FPATAN arctg (ST(1)/ST(0)), as the spec reads R519, FYL2X the product
with log2 x and FYL2XP1 that with log2 (1 + x), up to the tolerance; of a number they set PE (R427), for no number
equals the result, but that of FYL2X of a power of two. How many units of the last place the tolerance allows is a
parameter of the platform, and which x FPTAN takes the model's choice (log 16). FYL2X of x = 1 gives a zero, of either
sign, and of a y that is neither a zero nor normal a value that is not defined (R434, R437). The flags that an
instruction may set are those that Table 3.14 lists for it (R556): the model takes that list before the general rules
(log 46). -/
def Obligations.CoprocessorSpecialOperations : Prop :=
  (∀ (c : FCtl) (a : Ext80), extClass a = .normal →
    let x := extMagnitude a
    let clean (r : FRes) : Prop :=
      r.ie = false ∧ r.de = false ∧ r.ze = false ∧ r.oe = false ∧ r.ue = false ∧ extSign r.val = extSign a
    (1 ≤ c.prec → c.prec ≤ 64 → extSign a = false → RoundedResult c c.prec false (Real.sqrt x) (fpSqrt c (Opnd.ofReg a))) ∧
    (let r := fpRoundInt c (Opnd.ofReg a)
     clean r ∧ (r.pe = true ↔ extMagnitude r.val ≠ x) ∧ RoundsTo c.rc (extSign a) x 1 (extMagnitude r.val)) ∧
    (∀ k : ℤ, k.natAbs ≤ 2 ^ 15 → 1 ≤ (extExp a : ℤ) + k → (extExp a : ℤ) + k ≤ 32766 →
      fpScale c (Opnd.ofReg a) { v := extOfIntValue k, den := false } =
        FRes.exact (mkExt (extSign a) ((extExp a : ℤ) + k).toNat (extMant a))) ∧
    (let r := fpExtract (Opnd.ofReg a)
     r.1 = false ∧ extSign r.2.2 = extSign a ∧ 1 ≤ extMagnitude r.2.2 ∧ extMagnitude r.2.2 < 2 ∧
     ∃ e : ℤ, r.2.1 = extOfIntValue e ∧ x = extMagnitude r.2.2 * 2 ^ e) ∧
    (∀ b : Ext80, extClass b = .normal → x < 2 ^ 63 * extMagnitude b →
      let r := fpRem c (Opnd.ofReg a) (Opnd.ofReg b)
      ∃ q : ℕ, let left := x - q * extMagnitude b
        0 ≤ left ∧ left < extMagnitude b ∧
        (left = 0 ∨ (2 : ℝ) ^ (-16382 : ℤ) ≤ left →
          clean r.1 ∧ r.1.pe = false ∧ extMagnitude r.1.val = left ∧ r.2.1 = true ∧ r.2.2 % 8 = q % 8)) ∧
    (∀ (tol : ℕ) (k : ℤ), tol ≤ 1024 → k ≠ 0 → -16382 ≤ k → k ≤ 16383 →
      let y := x * |(k : ℝ)|
      (2 : ℝ) ^ (-16380 : ℤ) ≤ y → y < 2 ^ (16380 : ℤ) →
      let r := approxYl2x c tol (mkExt false (16383 + k).toNat (2 ^ 63)) a
      (r.pe = true ↔ extMagnitude r.val ≠ y) ∧ Approximates tol (extSign a != decide (k < 0)) y r) ∧
    (∀ (tol : ℕ) (half : Bool), extSign a = false →
      (x ≤ 1 / 2 → (approx2xm1 c tol a).pe = true) ∧ (x < Real.pi / 4 → (approxTanY c tol half a).pe = true) ∧
      ∀ b : Ext80, extClass b = .normal → extSign b = false → extMagnitude b < x → (approxAtan c tol a b).pe = true) ∧
    (∀ (tol : ℕ) (half : Bool), tol ≤ 1024 →
      let inside (y : ℝ) : Prop := (2 : ℝ) ^ (-16380 : ℤ) ≤ y ∧ y < 2 ^ (16380 : ℤ)
      (extSign a = false → x ≤ 1 / 2 → inside ((2 : ℝ) ^ x - 1) →
        Approximates tol false ((2 : ℝ) ^ x - 1) (approx2xm1 c tol a)) ∧
      (extSign a = false → x < Real.pi / 4 →
        let w := approxTanX c tol a
        extClass w = .normal ∧ extSign w = false ∧
        Approximates tol false (extMagnitude w * Real.tan (if half = true then x / 2 else x)) (approxTanY c tol half a)) ∧
      ∀ b : Ext80, extClass b = .normal →
        let z := extMagnitude b
        (extSign a = false → extSign b = false → z < x → inside (Real.arctan (z / x)) →
          Approximates tol false (Real.arctan (z / x)) (approxAtan c tol a b)) ∧
        (extSign b = false → z ≠ 1 →
          let r := approxYl2x c tol b a
          (inside (x * |Real.logb 2 z|) → ∃ neg : Bool, (neg = true ↔ z < 1) ∧
            Approximates tol (extSign a != neg) (x * |Real.logb 2 z|) r) ∧ (extMant b ≠ 2 ^ 63 → r.pe = true)) ∧
        (z < 1 - 1 / Real.sqrt 2 →
          let r := approxYl2xp1 c tol b a
          let y := x * |Real.logb 2 (1 + extNumber b)|
          r.pe = true ∧ (inside y → Approximates tol (extSign a != extSign b) y r)))) ∧
  (∀ (c : FCtl) (tol : ℕ) (half : Bool) (a b : Ext80),
    let x := Opnd.ofReg a
    let y := Opnd.ofReg b
    let one := mkExt false 0x3FFF (2 ^ 63)
    let peAlone (r : FRes) : Prop := r.ie = false ∧ r.de = false ∧ r.ze = false ∧ r.oe = false ∧ r.ue = false
    (fpScale c x y).de = false ∧ (fpScale c x y).ze = false ∧ (fpScale c x y).pe = false ∧
    (fpRoundInt c x).de = false ∧ (fpRoundInt c x).ze = false ∧
    (approx2xm1 c tol a).ie = false ∧ (approx2xm1 c tol a).de = false ∧ (approx2xm1 c tol a).ze = false ∧
    peAlone (approxTanY c tol half a) ∧ peAlone (approxAtan c tol a b) ∧ peAlone (approxYl2x c tol a b) ∧
    peAlone (approxYl2xp1 c tol a b) ∧
    ((extClass b).zeroLike = false → extClass b ≠ .normal → approxYl2x c tol one b = c.undefinedResult) ∧
    (extClass b = .zero ∨ extClass b = .normal → ∃ neg, approxYl2x c tol one b = FRes.exact (extZero neg))) ∧
  ∀ s : State, s.FpuReady →
    let f := s.fpu
    let tol := s.plat.vm87Tolerance
    let a := Opnd.ofReg (f.operand 0)
    let b := Opnd.ofReg (f.operand 1)
    let top (r : FRes) : Fpu := f.deliver r fun h v => h.put 0 v
    let below (r : FRes) : Fpu := f.deliver r fun h v => h.pop.put 0 v
    (a.cls ≠ .bad → (∃ k, FpuBecomes s .fsqrt none (top (fpSqrt (f.ctl k) a))) ∧
      (∃ k, FpuBecomes s .frndint none (top (fpRoundInt (f.ctl k) a))) ∧
      FpuBecomes s .fxtract none
        (f.pushPair { FRes.exact (fpExtract a).2.1 with ie := (fpExtract a).1 } (fpExtract a).2.2)) ∧
    (a.cls ≠ .bad → b.cls ≠ .bad → (∃ k, FpuBecomes s .fscale none (top (fpScale (f.ctl k) a b))) ∧
      ∃ k, let r := fpRem (f.ctl k) a b
        FpuBecomes s .fprem none (f.deliver r.1 fun h v =>
          ((h.setCodes (r.2.2 / 2 % 2 == 1) (!r.2.1) (r.2.2 / 4 % 2 == 1)).setC1 (r.2.2 % 2 == 1)).put 0 v)) ∧
    (let v := f.operand 0
     extClass v ≠ .bad →
      let signed (i : Instr) (w : Ext80) : Prop := FpuBecomes s i none (top { FRes.exact w with ie := f.isEmpty 0 })
      signed .fabs (v &&& BitVec.ofNat 80 (2 ^ 79 - 1)) ∧ signed .fchs (v ^^^ BitVec.ofNat 80 (2 ^ 79))) ∧
    (∃ k, let c := f.ctl k
      FpuBecomes s .fptan none (f.pushPair { approxTanY c tol s.plat.fptanHalfAngle (f.operand 0) with ie := f.isEmpty 0 }
        (approxTanX c tol (f.operand 0)))) ∧
    (∃ k, let c := f.ctl k
      FpuBecomes s .fpatan none (below
        { approxAtan c tol (f.operand 0) (f.operand 1) with ie := f.isEmpty 0 || f.isEmpty 1 })) ∧
    (∃ k, FpuBecomes s .f2xm1 none (top (approx2xm1 (f.ctl k) tol (f.operand 0)))) ∧
    (∃ k, FpuBecomes s .fyl2x none (below (approxYl2x (f.ctl k) tol (f.operand 0) (f.operand 1)))) ∧
    (∃ k, FpuBecomes s .fyl2xp1 none (below (approxYl2xp1 (f.ctl k) tol (f.operand 0) (f.operand 1))))

/-- FINIT (R523), FENI, FDISI, FCLEX (R524, R525, R529), FLDCW, FSTCW, FSTSW (R526-R528). All but FLDCW run while BUSY
is 1 (R463). The SR that FSTSW stores has B = 1, because the VM87 executes it (R53, R462; log 14). A flag that FENI or
FLDCW leaves unmasked raises the request (R53, R526), and BUSY with it when IEM = 0 (log 14). The bits of CR that are
not used are unknown after FLDCW (log 23), C3-C0 and the registers after FINIT (log 12); TAG = FFFFH and EP = 0 after
FINIT are D23 (R60; log 13), the word 03BFH that of R56 (log 48). The exception pointers are those of R57 (log 24). -/
def Obligations.CoprocessorControl : Prop :=
  ∀ s : State, s.FpuThere →
    let f := s.fpu
    let reacts (cr : Word) : Fpu :=
      if f.sr &&& ~~~cr &&& 0x003F#16 = 0#16 then { f with cr := cr }
      else { f with cr := cr, sr := if cr.getLsbD 7 = true then f.sr ||| 0x0080#16 else f.sr ||| 0x8080#16 }
    (∃ t codes, exec .finit s = .next t ∧ t.fpu.cr = 0x03BF#16 ∧ t.fpu.tag = 0xFFFF#16 ∧
      t.fpu.sr = codes &&& 0x4700#16 ∧ t.fpu.epInstr = 0#20 ∧ t.fpu.epOpcode = 0#11 ∧ t.fpu.epOperand = 0#20 ∧
      s.SameBytes t ∧ s.SameBesideFpu t) ∧
    FpuBecomes s .feni none (reacts (f.cr &&& 0xFF7F#16)) ∧
    FpuBecomes s .fdisi none { f with cr := f.cr ||| 0x0080#16 } ∧
    FpuBecomes s .fclex none { f with sr := f.sr &&& 0x7F40#16 } ∧
    (∀ m, FpuWrites s (.fstcw m) (s.escAddr m) 2 f.cr.toNat f ∧
      FpuWrites s (.fstsw m) (s.escAddr m) 2 ((f.sr ||| 0x8000#16) &&& 0xFFBF#16).toNat f) ∧
    (f.busy = false → ∀ m, ∃ w u : Nat, s.SourceIs (s.escAddr m) 2 w ∧
      FpuBecomes s (.fldcw m) (some (s.escAddr m))
        (reacts ((BitVec.ofNat 16 w &&& 0x1FBF#16) ||| (BitVec.ofNat 16 u &&& 0xE040#16))))

/-- The environment (R530-R533): FSTENV and FSAVE store the image and leave EP in it, FLDENV and FRSTOR load it; FSTENV
masks all conditions, FSAVE initialises. The image: CR at +0, SR at +2, TAG at +4, the address of the instruction with
its operation code and the address of the operand in two words each from +6 and +10 on (R57, R530), and in FSAVE's ST(i)
at +14 + 10 i (R532). An image stored and loaded gives TAG, EP, every used bit of CR and of SR but B, which is 1 in the
image as the VM87 executes the store (R53, R462; log 14), and the register stack back. The load then sets the request and
B by the flags that the loaded CR leaves unmasked, and changes nothing else of what the image gave (R531, R533, R526; log
14). That FSTENV clears SR.B and a load sets it by the flags is log 14, what FSAVE leaves of the
registers log 12, its TAG log 13, that these instructions leave EP log 24, the unused bits of CR log 23. -/
def Obligations.CoprocessorEnvironment : Prop :=
  (∀ (f : Fpu) (i : ℕ), i < 8 →
    let word (k : ℕ) : ℕ := f.envImage / 2 ^ (8 * k) % 2 ^ 16
    word 0 = (f.cr &&& 0x1FBF#16).toNat ∧ word 2 = ((f.sr ||| 0x8000#16) &&& 0xFFBF#16).toNat ∧ word 4 = f.tag.toNat ∧
    word 6 = f.epInstr.toNat % 2 ^ 16 ∧ word 8 = f.epOpcode.toNat + 2 ^ 12 * (f.epInstr.toNat / 2 ^ 16) ∧
    word 10 = f.epOperand.toNat % 2 ^ 16 ∧ word 12 = 2 ^ 12 * (f.epOperand.toNat / 2 ^ 16) ∧
    f.envImage < 2 ^ (8 * 14) ∧
    (f.envImage + 2 ^ 112 * f.stackImage 0 8) / 2 ^ (8 * (14 + 10 * i)) % 2 ^ 80 = (f.st (BitVec.ofNat 3 i)).toNat) ∧
  (∀ (s : State) (m : MemOp), s.FpuThere →
    let f := s.fpu
    let a := s.escAddr m
    let stored (i : Instr) (n v : Nat) (p : Fpu → Prop) : Prop :=
      ∃ t, exec i s = .next t ∧ p t.fpu ∧ s.FpuStored t a n v
    let loaded (i : Instr) (n : Nat) (g : Nat → Word → Fpu) : Prop :=
      ∃ t w u, exec i s = .next t ∧ s.SourceIs a n w ∧ t.fpu = g w u ∧ s.SameBytes t ∧ s.SameBesideFpu t
    stored (.fstenv m) 14 f.envImage (fun g => g = { f with cr := f.cr ||| 0x3F#16, sr := f.sr &&& 0x7FFF#16 }) ∧
    stored (.fsave m) 94 (f.envImage + 2 ^ 112 * f.stackImage 0 8) (fun g => ∃ k, g = Fpu.init k) ∧
    (f.busy = false →
      loaded (.fldenv m) 14 (fun w u => (f.ofEnvImage w u).reload) ∧
      loaded (.frstor m) 94 (fun w u => ((f.ofEnvImage w u).ofStackImage 0 (w / 2 ^ 112) 8).reload))) ∧
  (∀ f : Fpu,
    let g := f.reload
    let pending : Prop := f.sr &&& ~~~f.cr &&& 0x003F#16 ≠ 0#16
    g.ar = f.ar ∧ g.tag = f.tag ∧ g.cr = f.cr ∧ g.epInstr = f.epInstr ∧ g.epOpcode = f.epOpcode ∧
    g.epOperand = f.epOperand ∧ (g.sr.getLsbD 7 = true ↔ f.sr.getLsbD 7 = true ∨ pending) ∧
    (g.sr.getLsbD 15 = true ↔ pending ∧ f.cr.getLsbD 7 = false) ∧
    ∀ k, k ≠ 7 → k ≠ 15 → g.sr.getLsbD k = f.sr.getLsbD k) ∧
  (∀ (f h : Fpu) (u : Word),
    let g := h.ofEnvImage (f.envImage + 2 ^ 112 * f.stackImage 0 8) u
    g.tag = f.tag ∧ g.sr = (f.sr ||| 0x8000#16) &&& 0xFFBF#16 ∧ g.cr &&& 0x1FBF#16 = f.cr &&& 0x1FBF#16 ∧
    g.epInstr = f.epInstr ∧ g.epOpcode = f.epOpcode ∧ g.epOperand = f.epOperand ∧
    ∀ i, (g.ofStackImage 0 (f.stackImage 0 8) 8).st i = f.st i)

/-- The response to a condition (R53, R420, R425, R428, R429): its flag is set; where its own mask is 0 the request IR
rises, and BUSY with it when IEM = 0 (log 14); unmasked, an invalid operation, a denormal operand or a division by zero
leaves the registers as they are (D24, D27, log 25); masked, or an overflow, an underflow or an inexact result, the
result is delivered, and an unmasked overflow or underflow hides an inexact result. -/
def Obligations.CoprocessorConditions : Prop :=
  (∀ (f : Fpu) (k : Nat), k < 6 →
    (f.masked k = (f.cr.getLsbD 7 || f.cr.getLsbD k)) ∧ (f.raise k).ar = f.ar ∧ (f.raise k).tag = f.tag ∧
    (f.raise k).cr = f.cr ∧
    ∀ j, (f.raise k).sr.getLsbD j =
      (f.sr.getLsbD j || decide (j = k) ||
        (!f.cr.getLsbD k && (decide (j = 7) || (decide (j = 15) && !f.cr.getLsbD 7))))) ∧
  (∀ (f : Fpu) (r : FRes) (put : Fpu → Ext80 → Fpu),
    (r.ie = true → f.masked 0 = false → f.deliver r put = f.raise 0) ∧
    (r.ie = true → f.masked 0 = true → f.deliver r put = put (f.raise 0) r.val) ∧
    (r.ie = false → r.de = true → f.masked 1 = false → f.deliver r put = f.raise 1) ∧
    (r.ie = false → r.de = false → r.ze = true → f.masked 2 = false → f.deliver r put = f.raise 2) ∧
    (r.ie = false → (r.de = true → f.masked 1 = true) → (r.ze = true → f.masked 2 = true) →
      ∃ g, f.deliver r put = put g r.val ∧ g.ar = f.ar ∧ g.tag = f.tag ∧ g.cr = f.cr ∧
        (r.de = true → g.sr.getLsbD 1 = true) ∧ (r.ze = true → g.sr.getLsbD 2 = true) ∧
        (r.oe = true → g.sr.getLsbD 3 = true) ∧ (r.ue = true → g.sr.getLsbD 4 = true) ∧
        (r.pe = true → (r.oe = true → f.masked 3 = true) → (r.ue = true → f.masked 4 = true) →
          g.sr.getLsbD 5 = true) ∧
        ((r.oe = true ∧ f.masked 3 = false) ∨ (r.ue = true ∧ f.masked 4 = false) →
          g.sr.getLsbD 5 = f.sr.getLsbD 5)))

/-- Whole numbers (R400, R403, R406, R410, R413, R440): an integer in memory is loaded exactly and stored back as the
same bits, without a condition, but for the most negative pattern, which a store never writes for a value; with 64 bits
of precision the sums, differences and products of short integers are exact, and comparing tells their order. -/
def Obligations.CoprocessorIntegersAreExact : Prop :=
  (∀ (c : FCtl) (n w : Nat), n = 16 ∨ n = 32 ∨ n = 64 → w < 2 ^ n → w ≠ 2 ^ (n - 1) →
    storeInt c n (extOfIntValue (signedBits n w)) = SRes.exact w) ∧
  (∀ (c : FCtl) (a b : Int) (d : Bool), c.prec = 64 → a.natAbs < 2 ^ 31 → b.natAbs < 2 ^ 31 →
    let x : Opnd := { v := extOfIntValue a, den := false }
    let y : Opnd := { v := extOfIntValue b, den := false }
    (a + b ≠ 0 → fpAdd c false x y d = FRes.exact (extOfIntValue (a + b))) ∧
    (a - b ≠ 0 → fpAdd c true x y d = FRes.exact (extOfIntValue (a - b))) ∧
    (a * b ≠ 0 → fpMul c x y d = FRes.exact (extOfIntValue (a * b))) ∧
    fpCompare c.affine x y = (false, false, if a < b then .lt else if a = b then .eq else .gt))

/-! ### The VM89 -/

/-- The three bytes of a pointer with its TAG bit, as MOVP and CALL store them (R604). -/
def Sys2Proof.pointerBytes (p : Addr20) (tag : Bool) : Nat :=
  p.toNat % 2 ^ 16 + 2 ^ 16 * (p.toNat / 2 ^ 16 * 16 + 8 * tag.toNat)

/-- The moves of the VM89 (R600-R606): a value moved into a register is sign-extended and sets the TAG bit of a
pointer register; MOVP moves a pointer with its TAG bit, LPD and LPDI load a segment and offset and clear it; a memory
operand with auto-increment steps IX by its bytes (R592); between two memory operands the source half comes first. A
register then holds 20 bits (GA, GB, GC, TP) or 16 (R71, R591, R596), and nothing else of the channel's registers
changes. A memory operand lies at its base register, plus an offset or IX, modulo 2^20, in the space of the register's
TAG bit, and the last form alone adds the bytes moved to IX (R592). The spec's own decisions, not the source's, are
the unsigned offset and IX and the step of IX (D36, R592, general knowledge), the three bytes of a pointer (D35, R604)
and the offset before the segment in the two words of LPD (D34, R570). That the auto-increment of IX stands before a
write of the destination register is the model's choice (log 32). -/
def Obligations.IopMoves : Prop :=
  (∀ (c : IopChan) (b : IBase) (o : Byte) (n : ℕ),
     let r : Addr20 × Bool := match b with
       | .ga => (c.ga, c.tagGa)
       | .gb => (c.gb, c.tagGb)
       | .gc => (c.gc, c.tagGc)
       | .pp => (c.pp, false)
     c.ea (.base b) = r.1.toNat ∧ c.ea (.off b o) = (r.1.toNat + o.toNat) % 2 ^ 20 ∧
     c.ea (.idx b) = (r.1.toNat + c.ix.toNat) % 2 ^ 20 ∧ c.ea (.idxInc b) = (r.1.toNat + c.ix.toNat) % 2 ^ 20 ∧
     c.space (.base b) = r.2 ∧ c.space (.off b o) = r.2 ∧ c.space (.idx b) = r.2 ∧ c.space (.idxInc b) = r.2 ∧
     c.after (.base b) n = c ∧ c.after (.off b o) n = c ∧ c.after (.idx b) n = c ∧
     c.after (.idxInc b) n = { c with ix := c.ix + BitVec.ofNat 16 n }) ∧
  (∀ s : State,
     let c := s.ch
     let toReg (w : Width) (i : IReg → IMem → Instr) : Prop :=
       ∀ r m, ∃ v, s.IopOperandIs w m v ∧ IopBecomes s (i r m) ((c.after m (widthBytes w)).move r (v.signExtend 20))
     let toMem (w : Width) (i : Instr) (m : IMem) (v : Nat) : Prop :=
       IopWrites s i (c.after m (widthBytes w)) (c.space m) (widthBytes w) (c.ea m) v
     let both (w : Width) (i : IMem → IMem → Instr) : Prop :=
       ∀ m n, ∃ v, s.IopOperandIs w m v ∧
         let d := c.after m (widthBytes w)
         IopWrites s (i m n) (d.after n (widthBytes w)) (d.space n) (widthBytes w) (d.ea n) v.toNat
     toReg .word .iMovRegMem ∧ toReg .byte .iMovbRegMem ∧
     (∀ m r, toMem .word (.iMovMemReg m r) m (c.reg16 r).toNat ∧ toMem .byte (.iMovbMemReg m r) m (c.reg16 r).toNat) ∧
     both .word .iMovMemMem ∧ both .byte .iMovbMemMem ∧
     (∀ r v, IopBecomes s (.iMoviRegData r v) (c.move r (v.signExtend 20))) ∧
     (∀ r v, IopBecomes s (.iMovbiRegData r v) (c.move r (v.signExtend 20))) ∧
     (∀ m v, toMem .word (.iMoviMemData m v) m v.toNat) ∧ (∀ m v, toMem .byte (.iMovbiMemData m v) m v.toNat) ∧
     (∀ p m, ∃ (lo : Word) (h : Byte), s.CellsAre .word (c.space m) (c.ea m) lo ∧
       s.CellsAre .byte (c.space m) (c.ea m + 2) (h.signExtend 16) ∧
       IopBecomes s (.iMovpPtrMem p m)
         (((c.after m 3).setReg (ptrReg p) (BitVec.ofNat 20 (lo.toNat + 2 ^ 16 * (h.toNat / 16)))).setTag (ptrReg p)
           (h.getLsbD 3))) ∧
     (∀ m p, IopWrites s (.iMovpMemPtr m p) (c.after m 3) (c.space m) 3 (c.ea m)
       (pointerBytes (c.reg (ptrReg p)) (c.tagOf p))) ∧
     (∀ p m, ∃ off seg, s.CellsAre .word (c.space m) (c.ea m) off ∧ s.CellsAre .word (c.space m) (c.ea m + 2) seg ∧
       IopBecomes s (.iLpdPtrMem p m)
         (((c.after m 4).setReg (ptrReg p) (BitVec.ofNat 20 (phys seg off))).setTag (ptrReg p) false)) ∧
     (∀ p off seg, IopBecomes s (.iLpdiPtr p off seg)
       ((c.setReg (ptrReg p) (BitVec.ofNat 20 (phys seg off))).setTag (ptrReg p) false))) ∧
  (∀ (c : IopChan) (r q : IReg) (v : Addr20),
     let wide : Bool := r = .ga ∨ r = .gb ∨ r = .gc ∨ r = .tp
     (c.setReg r v).reg q = (if q = r then (if wide = true then v else v &&& 0x0FFFF#20) else c.reg q) ∧
     (c.setReg r v).pp = c.pp ∧ (c.setReg r v).psw = c.psw ∧
     (∀ p, (c.setReg r v).tagOf p = c.tagOf p) ∧ (∀ p, (c.move r v).tagOf p = (decide (ptrReg p = r) || c.tagOf p)))

/-- The arithmetic and logic instructions (R607-R626): byte operands and data are sign-extended for addition and
decide a whole register by their sign; all 20 bits of a pointer register take part in arithmetic; a logic result fills
bits 15-0 and leaves bits 19-16 of a pointer register unknown; a memory result has the width of the operand. That no
TAG bit changes is the spec's decision D38 (R595), and the effective address with its auto-increment D36 (R592). The
unknown bits 19-16 are log 31; that the auto-increment of IX stands before a write of the destination register is log
32. -/
def Obligations.IopArithmeticAndLogic : Prop :=
  ∀ s : State,
    let c := s.ch
    let signed (v : Word) : Word := (v.truncate 8).signExtend 16
    let add (w : Width) (i : IReg → IMem → Instr) : Prop :=
      ∀ r m, ∃ v, s.IopOperandIs w m v ∧
        IopBecomes s (i r m) ((c.after m (widthBytes w)).setReg r (c.reg r + v.signExtend 20))
    let logic (w : Width) (i : IReg → IMem → Instr) (f : IReg → Word → Word) : Prop :=
      ∀ r m, ∃ v x, s.IopOperandIs w m v ∧ x.truncate 16 = (if w = .byte then signed (f r v) else f r v) ∧
        IopBecomes s (i r m) ((c.after m (widthBytes w)).setReg r x)
    let modify (w : Width) (i : Instr) (m : IMem) (f : Word → Word) : Prop :=
      ∃ v, s.IopOperandIs w m v ∧
        IopWrites s i (c.after m (widthBytes w)) (c.space m) (widthBytes w) (c.ea m) (f v).toNat
    let into (i : Instr) (r : IReg) (v : Word) : Prop := ∃ x, x.truncate 16 = v ∧ IopBecomes s i (c.setReg r x)
    add .word .iAddRegMem ∧ add .byte .iAddbRegMem ∧
    logic .word .iAndRegMem (fun r v => c.reg16 r &&& v) ∧ logic .byte .iAndbRegMem (fun r v => c.reg16 r &&& v) ∧
    logic .word .iOrRegMem (fun r v => c.reg16 r ||| v) ∧ logic .byte .iOrbRegMem (fun r v => c.reg16 r ||| v) ∧
    logic .word .iNotRegMem (fun _ v => ~~~v) ∧ logic .byte .iNotbRegMem (fun _ v => ~~~v) ∧
    (∀ m r, modify .word (.iAddMemReg m r) m (fun v => c.reg16 r + v) ∧
      modify .byte (.iAddbMemReg m r) m (fun v => c.reg16 r + v) ∧
      modify .word (.iAndMemReg m r) m (fun v => c.reg16 r &&& v) ∧
      modify .byte (.iAndbMemReg m r) m (fun v => c.reg16 r &&& v) ∧
      modify .word (.iOrMemReg m r) m (fun v => c.reg16 r ||| v) ∧
      modify .byte (.iOrbMemReg m r) m (fun v => c.reg16 r ||| v)) ∧
    (∀ m d, modify .word (.iAddiMemData m d) m (fun v => v + d) ∧ modify .word (.iAndiMemData m d) m (fun v => v &&& d) ∧
      modify .word (.iOriMemData m d) m (fun v => v ||| d)) ∧
    (∀ m d, modify .byte (.iAddbiMemData m d) m (fun v => v + d.zeroExtend 16) ∧
      modify .byte (.iAndbiMemData m d) m (fun v => v &&& d.zeroExtend 16) ∧
      modify .byte (.iOrbiMemData m d) m (fun v => v ||| d.zeroExtend 16)) ∧
    (∀ m, modify .word (.iIncMem m) m (fun v => v + 1#16) ∧ modify .byte (.iIncbMem m) m (fun v => v + 1#16) ∧
      modify .word (.iDecMem m) m (fun v => v - 1#16) ∧ modify .byte (.iDecbMem m) m (fun v => v - 1#16) ∧
      modify .word (.iNotMem m) m (fun v => ~~~v) ∧ modify .byte (.iNotbMem m) m (fun v => ~~~v) ∧
      ∀ b, modify .byte (.iSetbMem m b) m (fun v => v ||| BitVec.ofNat 16 (2 ^ b.toNat)) ∧
        modify .byte (.iClrMem m b) m (fun v => v &&& ~~~BitVec.ofNat 16 (2 ^ b.toNat))) ∧
    (∀ r d, IopBecomes s (.iAddiRegData r d) (c.setReg r (c.reg r + d.signExtend 20)) ∧
      into (.iAndiRegData r d) r (c.reg16 r &&& d) ∧ into (.iOriRegData r d) r (c.reg16 r ||| d)) ∧
    (∀ r d, IopBecomes s (.iAddbiRegData r d) (c.setReg r (c.reg r + d.signExtend 20)) ∧
      into (.iAndbiRegData r d) r (signed (c.reg16 r &&& d.zeroExtend 16)) ∧
      into (.iOrbiRegData r d) r (signed (c.reg16 r ||| d.zeroExtend 16))) ∧
    (∀ r, IopBecomes s (.iIncReg r) (c.setReg r (c.reg r + 1#20)) ∧
      IopBecomes s (.iDecReg r) (c.setReg r (c.reg r - 1#20)) ∧ into (.iNotReg r) r (~~~c.reg16 r))

/-- A byte agrees with the low byte of MC in the bits that its high byte selects (R77). -/
def Sys2Proof.agrees (mc : Word) (b : Byte) : Prop := ∀ j, j < 8 → mc.getLsbD (8 + j) = true → b.getLsbD j = mc.getLsbD j

/-- The jumps (R629-R646): relative to the next instruction, when the register, the word or byte in memory is zero or
not, the masked byte agrees or not, or the bit is one or zero; short and long forms. CALL and LCALL (R627, R628) store TP
with its TAG bit and jump. TAG of TP stays. The three bytes of a pointer in memory are the spec's decision D35 (R604),
and the effective address with its auto-increment D36 (R592). -/
def Obligations.IopJumpsAndCalls : Prop :=
  ∀ (s : State) (d8 : Byte) (d16 : Word),
    let c := s.ch
    let go (c : IopChan) (d : Addr20) : IopChan := c.setReg .tp (c.tp + d)
    let near := d8.signExtend 20
    let far := d16.signExtend 20
    let onReg (i : Instr) (d : Addr20) (p : Prop) : Prop :=
      (p → IopBecomes s i (go c d)) ∧ (¬p → IopBecomes s i c)
    let onMem (w : Width) (i : Instr) (d : Addr20) (m : IMem) (p : Word → Prop) : Prop :=
      ∃ v, s.IopOperandIs w m v ∧
        (p v → IopBecomes s i (go (c.after m (widthBytes w)) d)) ∧
        (¬p v → IopBecomes s i (c.after m (widthBytes w)))
    let low (v : Word) : Byte := v.truncate 8
    IopBecomes s (.iJmp d8) (go c near) ∧ IopBecomes s (.iLjmp d16) (go c far) ∧
    (∀ r, onReg (.iJzReg r d8) near (c.reg16 r = 0#16) ∧ onReg (.iLjzReg r d16) far (c.reg16 r = 0#16) ∧
      onReg (.iJnzReg r d8) near (c.reg16 r ≠ 0#16) ∧ onReg (.iLjnzReg r d16) far (c.reg16 r ≠ 0#16)) ∧
    ∀ m,
      onMem .word (.iJzMem m d8) near m (· = 0#16) ∧ onMem .word (.iLjzMem m d16) far m (· = 0#16) ∧
      onMem .word (.iJnzMem m d8) near m (· ≠ 0#16) ∧ onMem .word (.iLjnzMem m d16) far m (· ≠ 0#16) ∧
      onMem .byte (.iJzbMem m d8) near m (· = 0#16) ∧ onMem .byte (.iLjzbMem m d16) far m (· = 0#16) ∧
      onMem .byte (.iJnzbMem m d8) near m (· ≠ 0#16) ∧ onMem .byte (.iLjnzbMem m d16) far m (· ≠ 0#16) ∧
      onMem .byte (.iJmceMem m d8) near m (fun v => agrees c.mc (low v)) ∧
      onMem .byte (.iLjmceMem m d16) far m (fun v => agrees c.mc (low v)) ∧
      onMem .byte (.iJmcneMem m d8) near m (fun v => ¬agrees c.mc (low v)) ∧
      onMem .byte (.iLjmcneMem m d16) far m (fun v => ¬agrees c.mc (low v)) ∧
      (∀ b : BitVec 3,
        onMem .byte (.iJbtMem m b d8) near m (fun v => (low v).getLsbD b.toNat = true) ∧
        onMem .byte (.iLjbtMem m b d16) far m (fun v => (low v).getLsbD b.toNat = true) ∧
        onMem .byte (.iJnbtMem m b d8) near m (fun v => (low v).getLsbD b.toNat = false) ∧
        onMem .byte (.iLjnbtMem m b d16) far m (fun v => (low v).getLsbD b.toNat = false)) ∧
      IopWrites s (.iCallMem m d8) (go (c.after m 3) near) (c.space m) 3 (c.ea m) (pointerBytes c.tp c.tagTp) ∧
      IopWrites s (.iLcallMem m d16) (go (c.after m 3) far) (c.space m) 3 (c.ea m) (pointerBytes c.tp c.tagTp)

/-- Processor control of the VM89 (R647-R652): TSL jumps, or stores its data, by whether the byte is zero and the
platform's polarity; WID sets the two logical widths, and from then on a transfer may begin (U22); XFER arms the
transfer; SINTR requests; HLT clears BUSY of the channel in memory and the channel is idle; NOP changes nothing. -/
def Obligations.IopProcessorControl : Prop :=
  ∀ s : State,
    let c := s.ch
    (∀ m d rel, ∃ v, s.IopOperandIs .byte m v ∧
      let jumps : Prop := (v = 0#16 ↔ s.plat.tslJumpWhenZero = true)
      let e := c.after m 1
      (jumps → IopBecomes s (.iTslMemData m d rel) (e.setReg .tp (e.tp + rel.signExtend 20))) ∧
      (¬jumps → IopWrites s (.iTslMemData m d rel) e (c.space m) 1 (c.ea m) d.toNat)) ∧
    (∀ x y, ∃ p : Byte, IopBecomes s (.iWid x y) { c with psw := p, widDone := true } ∧ p.getLsbD 1 = x ∧ p.getLsbD 0 = y ∧
      ∀ k, 2 ≤ k → p.getLsbD k = c.psw.getLsbD k) ∧
    IopBecomes s .iXfer { c with armed := true } ∧ IopBecomes s .iSintr { c with psw := c.psw ||| 0x10#8 } ∧
    IopWrites s .iHlt { c with psw := c.psw &&& 0xFB#8, activity := .idle } false 1 (s.iop.block s.iop.cur + 1) 0 ∧
    exec .iNop s = .next s

/-- Starting a channel program (R570, R572-R575, R581): an idle channel that answers a channel attention whose command
byte starts a program in the system space (CF = 011) marks itself busy in memory, takes PP from the control block and TP
from the parameter block, and runs from TP in the system space; the attention is answered, unless reading the pointers
meets a device that raises another. -/
def Obligations.ChannelStartLoadsThePointers : Prop :=
  ∀ (s : State) (n : ChanNo),
    let base := s.iop.block n
    (s.iop.chan n).activity = .idle → (∀ k, k < 6 → s.cellKind false (iopCell false (base + k)) = .ram) →
    (s.cellByte false (iopCell false base)).toNat % 8 = 3 →
    ∃ t pp, s.iopAnswer n = .next t ∧
      s.CellsStored t false 1 (base + 1) 0xFF ∧
      (t.iop.chan n).pp = BitVec.ofNat 20 pp ∧ (t.iop.chan n).tagTp = false ∧ (t.iop.chan n).activity = .program ∧
      (t.iop.chan n).psw.getLsbD 2 = true ∧ (t.iop.chan n).psw.getLsbD 6 = false ∧
      (s.NoDevices → (t.iop.chan n).ca = false) ∧
      (∃ off seg, t.CellsAre .word false (base + 2) off ∧ t.CellsAre .word false (base + 4) seg ∧ pp = phys seg off) ∧
      ∃ off seg, t.CellsAre .word false pp off ∧ t.CellsAre .word false (pp + 2) seg ∧
        (t.iop.chan n).tp = BitVec.ofNat 20 (phys seg off)

/-- One transfer cycle of bytes (R671-R673, R678): with a WID executed, logical widths of 8 bits, no synchronisation,
translation or termination condition, a read and a write bus cycle copy the byte from the source to the destination; the
pointers that point to memory step by one, BC decreases by one, and the transfer goes on. That one bus cycle is a step is
the model's choice (log 9); no command to suspend waits for the end of the cycle (log 47). -/
def Obligations.TransferCycleCopiesAByte : Prop :=
  ∀ (s : State) (n : ChanNo),
    let c := s.iop.chan n
    let source := iopCell c.src.1 c.src.2
    let dest := iopCell c.dst.1 c.dst.2
    c.widDone = true → c.cycle = none → c.suspending = false → c.held = [] → c.psw.toNat % 4 = 0 →
    c.cc.getLsbD 13 = false → c.syn = 0 → c.cc.toNat % 4 = 0 → c.cc.getLsbD 3 = false → c.cc.getLsbD 4 = false →
    c.cc.getLsbD 5 = false → c.cc.getLsbD 6 = false → c.cc.getLsbD 7 = false →
    s.cellKind c.src.1 source = .ram → s.cellKind c.dst.1 dest = .ram →
    ∃ t u, s.iopTransfer n = .next t ∧ t.SameCells s ∧ t.iopTransfer n = .next u ∧
      u.cellByte c.dst.1 dest = s.cellByte c.src.1 source ∧
      (∀ io x, (io = c.dst.1 → x ≠ dest) → u.cellByte io x = s.cellByte io x) ∧
      let d := u.iop.chan n
      d.bc = c.bc - 1#16 ∧ d.cycle = none ∧ d.held = [] ∧ d.activity = c.activity ∧ d.psw = c.psw ∧ d.tp = c.tp ∧
      (c.srcIsGb = false →
        d.ga = (if c.srcSteps = true then c.ga + 1#20 else c.ga) ∧
        d.gb = (if c.dstSteps = true then c.gb + 1#20 else c.gb)) ∧
      (c.srcIsGb = true →
        d.gb = (if c.srcSteps = true then c.gb + 1#20 else c.gb) ∧
        d.ga = (if c.dstSteps = true then c.ga + 1#20 else c.ga))

/-! ### The devices -/

/-- The upper four address bits of channel `n` of controller `u` (R741, D47). -/
def Sys2Proof.dmaPage (s : State) (u : Nat) (n : BitVec 2) : BitVec 4 :=
  match u with
  | 0 => s.plat.vt37Page.get n
  | k + 1 => match s.plat.cascades[k]? with
    | some c => c.page.get n
    | none => 0#4

/-- A grant of the bus to the VT37 that gives one cycle to a channel in single mode (R741-R743, R746-R748): when the
controller leaves SI the lowest pending channel wins under fixed priority, and under rotating priority the first after
the one served last; that channel is served at the grant, whatever asks in between; the byte of the device goes to
memory, or the byte of memory to the device, or nothing is transferred, and no device register is read or written; the
address steps, the count goes down, and at its end EOP is pulsed and the channel is initialised again or masked; DACK
of the channel is active, and the CPU has the next bus cycle. Of cascaded controllers each works so: the bus goes to
the first, or, where its channel in service is in cascade mode, through the DACK of that channel to the controller
wired there. The model's choice (log 58, DESIGN CHOICE) are that it goes there only with DACK active at 1, CR bit 7 =
1, and else stays with the first, and all that is said of the pins DACK: that they stand at 0 from RESET until a
command is loaded (`dackZero`), and what their level is after it (`dackPin`). When the controllers look at their
requests, and that one whose request is withdrawn is in SI again, is log 59 (DESIGN CHOICE). That a grant is a step,
with the bytes of the device in its event, is the model's choice (log 10), and so is how long its outputs last (log
50) and which of two controllers on one channel gets the bus (log 53). That a cycle writes no device, the RAM of the
RU55 among them, is log 57; the page of an address is D47 and that a request bit falls at the end D49. -/
def Obligations.DmaCycleMovesAByte : Prop :=
  (∀ d : Vt37,
    (d.chosen = none → d.settle = { d with chosen := d.winner }) ∧
    (∀ n : BitVec 2, d.chosen = some n → d.pending n.toNat = true → d.settle = d) ∧
    (d.winner = none ↔ ∀ m, m < 4 → d.pending m = false) ∧
    ∀ n : BitVec 2, d.winner = some n → d.pending n.toNat = true ∧
      (d.cr.getLsbD 4 = false ∨ d.lastServed = none → ∀ m, m < n.toNat → d.pending m = false) ∧
      (∀ l : BitVec 2, d.cr.getLsbD 4 = true → d.lastServed = some l →
        ∀ m : BitVec 2, (m - l - 1#2).toNat < (n - l - 1#2).toNat → d.pending m.toNat = false)) ∧
  (∀ (s : State) (n : BitVec 2) (k : Nat) (eop : Bool) (data : List Byte), (s.dma 0).chosen = some n →
    let cascade : Prop := ((s.dma 0).ch.get n).dmaMode = .cascade
    (¬cascade ∨ (s.dma 0).cr.getLsbD 7 = false → s.dmaGrant k eop data = s.dmaRun 0 k eop data) ∧
    (∀ j c m, cascade → (s.dma 0).cr.getLsbD 0 = false → s.plat.cascades[j]? = some c → c.parent = 0 → c.channel = n →
      (s.dma 0).cr.getLsbD 7 = true → (s.dma 0).dackZero = false →
      (∀ i e, i < j → s.plat.cascades[i]? = some e → e.parent = 0 → e.channel ≠ n) →
      ((s.dmaServe 0 n).dma (j + 1)).chosen = some m →
      (((s.dmaServe 0 n).dma (j + 1)).ch.get m).dmaMode ≠ .cascade →
      s.dmaGrant k eop data = (s.dmaServe 0 n).dmaRun (j + 1) k eop data ∧
        (s.dmaServe 0 n).vt37 = { s.dma 0 with
          lastServed := some n, chosen := none, dack := (s.dmaServe 0 n).vt37.dack, yield := false } ∧
        ∀ i : BitVec 2, (s.dmaServe 0 n).vt37.dack.getLsbD i.toNat = ((s.dma 0).dack.getLsbD i.toNat || i == n))) ∧
  ∀ (s : State) (u : Nat) (n : BitVec 2) (k : Nat) (b : Byte) (data : List Byte), u ≤ s.cascaded.length →
    let v := s.dma u
    let c := v.ch.get n
    let last : Bool := c.cwr = 0#16
    let at_ : Nat := (dmaPage s u n).toNat * 65536 + c.car.toNat
    let moved : DmaChan := { c with car := if bit c.mode 3 = true then c.car - 1#16 else c.car + 1#16, cwr := c.cwr - 1#16 }
    v.chosen = some n → v.cr.getLsbD 0 = false → c.dmaMode = .single → c.type ≠ .illegal → s.plat.fdcDma ≠ some (u, n) →
    ∃ t, s.dmaRun u k false (b :: data) = .next t ∧
      (c.type = .write → s.isRam at_ = true → t.byteAt at_ = b) ∧
      (∀ x, (c.type = .write → x ≠ at_) → t.byteAt x = s.byteAt x) ∧
      t.cpu.core = s.cpu.core ∧ s.SameFpu t ∧ t.iop.core = s.iop.core ∧ s.SameIo t ∧ t.env = s.env ∧ t.plat = s.plat ∧
      t.vi54 = s.vi54 ∧ t.vg72 = s.vg72 ∧ t.ru55 = s.ru55 ∧ t.rf55 = s.rf55 ∧
      (∀ w, w ≠ u → t.dmac w = s.dmac w) ∧
      let d := t.dmac u
      d.ch.get n = (if last = true ∧ bit c.mode 2 = true then { c with car := c.bar, cwr := c.wcr } else moved) ∧
      (∀ m, m ≠ n → d.ch.get m = v.ch.get m) ∧
      (∀ m : BitVec 2, d.tc.getLsbD m.toNat = (v.tc.getLsbD m.toNat || (last && m == n)) ∧
        d.rr.getLsbD m.toNat = (v.rr.getLsbD m.toNat && !(last && m == n)) ∧
        d.mask.getLsbD m.toNat = (v.mask.getLsbD m.toNat || (last && m == n && !bit c.mode 2)) ∧
        d.dack.getLsbD m.toNat = (v.dack.getLsbD m.toNat || m == n)) ∧
      (v.dackZero = false → d.dackPin n = v.cr.getLsbD 7) ∧ d.dackZero = v.dackZero ∧
      d.eop = (v.eop || last) ∧ d.yield = true ∧
      (c.type ≠ .read → d.given = v.given) ∧
      (c.type = .read → ∃ x, d.given = v.given ++ [x] ∧ (s.isMemory at_ = true → x = s.byteAt at_)) ∧
      d.lastServed = some n ∧ d.chosen = none ∧ d.cr = v.cr ∧ d.tr = v.tr ∧ d.ff = v.ff ∧ d.dreq = v.dreq

/-- A channel of the VI54 in mode 0 (R753, R754, R760): after the control word 30h and the two bytes of a constant N
that is not 0, with GATE = 1, OUT is 0 for N + 1 periods of CLK, the count stands at N after the first of them, and
then OUT is 1. A count latched while no two-byte load is half done (U36) is read as it was, whatever CLK does
meanwhile (R756), and read out frees the latch. Loading in mode 0 does not wait for GATE: the pseudo-code of R760
before the wording of R754 (log 34). That CE is latched as it stands before the first count cycle too, where R756
calls it not meaningful, is the model's choice (log 34, DESIGN CHOICE). -/
def Obligations.TimerCountsAndLatches : Prop :=
  (∀ (c : PitChan) (lo hi : Byte) (f g : Word) (unknown : List Word),
    let n := (wordOf lo hi).toNat
    let programmed := ((c.control 0x30#8).writeByte lo f).writeByte hi g
    let d := unknown.foldl PitChan.tick programmed
    c.gate = true → n ≠ 0 →
    programmed.out = false ∧ programmed.fn = true ∧
    (1 ≤ unknown.length → unknown.length ≤ n → d.out = false ∧ d.fn = false ∧ d.ce.toNat = n + 1 - unknown.length) ∧
    (n < unknown.length → d.out = true)) ∧
  (∀ (c : PitChan) (f g h : Word) (unknown : List Word),
    let d := unknown.foldl PitChan.tick (c.latchCount f)
    c.rw = 3 → c.mode ≠ 3 → c.countLatched = false → c.statusLatched = false → c.readHigh = false → c.writeHigh = false →
    (d.readByte g).1 = lowByte c.ce ∧ ((d.readByte g).2.readByte h).1 = highByte c.ce ∧
    ((d.readByte g).2.readByte h).2.countLatched = false)

/-- The ports of the RF55 and the RU55 and the command Specify of the VG72 (R772, R774, R784, R788): a line programmed
for output reads back what was written, a line programmed for input its pin; a strobe of a port with handshake stores the
pins and raises BF, and a read takes the byte and lowers BF and INTR; the three bytes of Specify set the four parameters
and leave the controller ready for a command. The port addresses of the RF55 and the code of Specify are the spec's
general knowledge (logs 35, 37). -/
def Obligations.PortsOfTheDevices : Prop :=
  (∀ (d : Rf55) (v f : Byte) (i : Nat),
    (((d.write 0 v).read 0 f).1.getLsbD i = if d.dirA.getLsbD i = true then v.getLsbD i else d.pinsA.getLsbD i) ∧
    (((d.write 1 v).read 1 f).1.getLsbD i = if d.dirB.getLsbD i = true then v.getLsbD i else d.pinsB.getLsbD i)) ∧
  (∀ (d : Ru55) (v : Byte) (f : Word), d.alt < 2 →
    (d.ctl.getLsbD 0 = true → ((d.write 1 v).read 1 f).1 = v) ∧ (d.ctl.getLsbD 0 = false → (d.read 1 f).1 = d.a.pins) ∧
    (d.ctl.getLsbD 1 = true → ((d.write 2 v).read 2 f).1 = v) ∧ (d.ctl.getLsbD 1 = false → (d.read 2 f).1 = d.b.pins)) ∧
  (∀ (d : Ru55) (f : Word), 2 ≤ d.alt → d.ctl.getLsbD 0 = false → d.ctl.getLsbD 4 = true →
    let e := d.strobeA
    let r := e.read 1 f
    (e.read 0 f).1.getLsbD 0 = true ∧ (e.read 0 f).1.getLsbD 1 = true ∧ r.1 = d.a.pins ∧
    (r.2.read 0 f).1.getLsbD 0 = false ∧ (r.2.read 0 f).1.getLsbD 1 = false) ∧
  (∀ (d : Vg72) (x y : Byte), d.phase = .idle → d.unsensed = false →
    let e := ((d.write 1 3#8).write 1 x).write 1 y
    e.phase = .idle ∧ e.status = d.status ∧ e.srt = BitVec.ofNat 4 (x.toNat / 16) ∧
    e.hut = BitVec.ofNat 4 (x.toNat % 16) ∧ e.hlt = BitVec.ofNat 7 (y.toNat / 2) ∧ e.nd = y.getLsbD 0)
end

