-- ==== Sys2Proof/Laws/Memory.lean ====
section
/-! SUPPORT. The list of cells: a read after a write, and the canonical form that every write keeps. -/

namespace Sys2Proof.Machine

theorem Memory.get_drop (m : Memory) (a b : Nat) :
    Memory.get (m.drop a) b = if b = a then Memory.unlisted else m.get b := by
  induction m with
  | nil => simp [Memory.drop, Memory.get]
  | cons e r ih =>
    obtain ⟨k, v⟩ := e
    by_cases h : a = k
    · subst h
      rw [Memory.drop, if_pos rfl, ih]
      by_cases hb : b = a <;> simp [Memory.get, hb]
    · rw [Memory.drop, if_neg h, Memory.get, ih, Memory.get]
      by_cases hb : b = k
      · subst hb; simp [Ne.symm h]
      · simp [hb]

/-- Reading one byte after writing one: the written byte at its address, everything else as before. -/
theorem Memory.get_put (m : Memory) (a b : Nat) (v : Byte) :
    Memory.get (m.put a v) b = if b = a then v else m.get b := by
  induction m with
  | nil =>
    by_cases hv : v = Memory.unlisted <;> by_cases hb : b = a <;> simp [Memory.put, Memory.get, hv, hb]
  | cons e r ih =>
    obtain ⟨k, w⟩ := e
    rw [Memory.put]
    by_cases hv : v = Memory.unlisted
    · rw [if_pos hv, Memory.get_drop, hv]
    · rw [if_neg hv]
      by_cases h1 : a < k
      · rw [if_pos h1, Memory.get]
      · rw [if_neg h1]
        by_cases h2 : a = k
        · subst h2
          rw [if_pos rfl, Memory.get, Memory.get]
          by_cases hb : b = a <;> simp [hb]
        · rw [if_neg h2, Memory.get, ih, Memory.get]
          by_cases hb : b = k
          · subst hb; simp [Ne.symm h2]
          · simp [hb]

@[simp] theorem Memory.get_put_same (m : Memory) (a : Nat) (v : Byte) : Memory.get (m.put a v) a = v := by
  simp [Memory.get_put]

theorem Memory.get_put_ne (m : Memory) {a b : Nat} (v : Byte) (h : b ≠ a) :
    Memory.get (m.put a v) b = m.get b := by
  simp [Memory.get_put, h]

theorem Memory.wfFrom_mono {size lo lo' : Nat} {m : Memory} (h : lo' ≤ lo) (hm : Memory.wfFrom size lo m = true) :
    Memory.wfFrom size lo' m = true := by
  cases m with
  | nil => rfl
  | cons e r =>
    obtain ⟨k, v⟩ := e
    simp only [Memory.wfFrom, Bool.and_eq_true, decide_eq_true_eq] at hm ⊢
    exact ⟨⟨⟨by omega, hm.1.1.2⟩, hm.1.2⟩, hm.2⟩

theorem Memory.wfFrom_drop {size lo : Nat} (a : Nat) {m : Memory} (hm : Memory.wfFrom size lo m = true) :
    Memory.wfFrom size lo (m.drop a) = true := by
  induction m generalizing lo with
  | nil => rfl
  | cons e r ih =>
    obtain ⟨k, v⟩ := e
    simp only [Memory.wfFrom, Bool.and_eq_true, decide_eq_true_eq] at hm
    rw [Memory.drop]
    split
    · exact Memory.wfFrom_mono (by omega) (ih hm.2)
    · simp only [Memory.wfFrom, Bool.and_eq_true, decide_eq_true_eq]
      exact ⟨hm.1, ih hm.2⟩

/-- A write keeps the canonical form. -/
theorem Memory.wfFrom_put {size lo a : Nat} (v : Byte) {m : Memory} (hm : Memory.wfFrom size lo m = true)
    (hlo : lo ≤ a) (ha : a < size) : Memory.wfFrom size lo (m.put a v) = true := by
  induction m generalizing lo with
  | nil =>
    by_cases hv : v = Memory.unlisted
    · simp [Memory.put, hv, Memory.wfFrom]
    · simp [Memory.put, hv, Memory.wfFrom, hlo, ha]
  | cons e r ih =>
    obtain ⟨k, w⟩ := e
    have hm' := hm
    simp only [Memory.wfFrom, Bool.and_eq_true, decide_eq_true_eq] at hm
    rw [Memory.put]
    by_cases hv : v = Memory.unlisted
    · rw [if_pos hv]; exact Memory.wfFrom_drop a hm'
    · rw [if_neg hv]
      by_cases h1 : a < k
      · rw [if_pos h1]
        simp only [Memory.wfFrom, Bool.and_eq_true, decide_eq_true_eq]
        exact ⟨⟨⟨hlo, ha⟩, by simpa using hv⟩, ⟨⟨by omega, hm.1.1.2⟩, hm.1.2⟩, hm.2⟩
      · rw [if_neg h1]
        by_cases h2 : a = k
        · subst h2
          rw [if_pos rfl]
          simp only [Memory.wfFrom, Bool.and_eq_true, decide_eq_true_eq]
          exact ⟨⟨⟨hlo, ha⟩, by simpa using hv⟩, hm.2⟩
        · rw [if_neg h2]
          simp only [Memory.wfFrom, Bool.and_eq_true, decide_eq_true_eq]
          exact ⟨hm.1, ih hm.2 (by omega)⟩

theorem Memory.wf_put {a : Nat} (v : Byte) {m : Memory} (hm : m.wf = true) (ha : a < 2 ^ 20) :
    (m.put a v).wf = true :=
  Memory.wfFrom_put v hm (Nat.zero_le a) ha

theorem Memory.wf16_put {a : Nat} (v : Byte) {m : Memory} (hm : m.wf16 = true) (ha : a < 2 ^ 16) :
    (m.put a v).wf16 = true :=
  Memory.wfFrom_put v hm (Nat.zero_le a) ha

theorem phys_lt (seg off : Word) : phys seg off < 2 ^ 20 := Nat.mod_lt _ (by norm_num)

/-- Different offsets of one segment are different addresses (20_memory.md R101). -/
theorem phys_inj {seg a b : Word} (h : phys seg a = phys seg b) : a = b := by
  unfold phys at h
  have ha := a.isLt
  have hb := b.isLt
  have hs := seg.isLt
  apply BitVec.eq_of_toNat_eq
  omega

end Sys2Proof.Machine
end

