-- ==== Sys2Proof/Laws/State.lean ====
section
/-! SUPPORT. One lemma per field per update of the state, so that no proof unfolds a record update. -/

namespace Sys2Proof.Machine

/-! ### bump -/

@[simp] theorem State.bump_cpu (s : State) : (s.bump).cpu = s.cpu := rfl
@[simp] theorem State.bump_fpu (s : State) : (s.bump).fpu = s.fpu := rfl
@[simp] theorem State.bump_run (s : State) : (s.bump).run = s.run := rfl
@[simp] theorem State.bump_iop (s : State) : (s.bump).iop = s.iop := rfl
@[simp] theorem State.bump_mem (s : State) : (s.bump).mem = s.mem := rfl
@[simp] theorem State.bump_iomem (s : State) : (s.bump).iomem = s.iomem := rfl
@[simp] theorem State.bump_remote (s : State) : (s.bump).remote = s.remote := rfl
@[simp] theorem State.bump_vt37 (s : State) : (s.bump).vt37 = s.vt37 := rfl
@[simp] theorem State.bump_cascaded (s : State) : (s.bump).cascaded = s.cascaded := rfl
@[simp] theorem State.bump_vi54 (s : State) : (s.bump).vi54 = s.vi54 := rfl
@[simp] theorem State.bump_vg72 (s : State) : (s.bump).vg72 = s.vg72 := rfl
@[simp] theorem State.bump_ru55 (s : State) : (s.bump).ru55 = s.ru55 := rfl
@[simp] theorem State.bump_rf55 (s : State) : (s.bump).rf55 = s.rf55 := rfl
@[simp] theorem State.bump_env (s : State) : (s.bump).env = s.env := rfl
@[simp] theorem State.bump_plat (s : State) : (s.bump).plat = s.plat := rfl
@[simp] theorem State.bump_free (s : State) : (s.bump).free = s.free + 1 := rfl

/-! ### setFlags -/

@[simp] theorem State.setFlags_cpu (s : State) (f : Flags) : (s.setFlags f).cpu = { s.cpu with f := f } := rfl
@[simp] theorem State.setFlags_fpu (s : State) (f : Flags) : (s.setFlags f).fpu = s.fpu := rfl
@[simp] theorem State.setFlags_run (s : State) (f : Flags) : (s.setFlags f).run = s.run := rfl
@[simp] theorem State.setFlags_iop (s : State) (f : Flags) : (s.setFlags f).iop = s.iop := rfl
@[simp] theorem State.setFlags_mem (s : State) (f : Flags) : (s.setFlags f).mem = s.mem := rfl
@[simp] theorem State.setFlags_iomem (s : State) (f : Flags) : (s.setFlags f).iomem = s.iomem := rfl
@[simp] theorem State.setFlags_remote (s : State) (f : Flags) : (s.setFlags f).remote = s.remote := rfl
@[simp] theorem State.setFlags_vt37 (s : State) (f : Flags) : (s.setFlags f).vt37 = s.vt37 := rfl
@[simp] theorem State.setFlags_cascaded (s : State) (f : Flags) : (s.setFlags f).cascaded = s.cascaded := rfl
@[simp] theorem State.setFlags_vi54 (s : State) (f : Flags) : (s.setFlags f).vi54 = s.vi54 := rfl
@[simp] theorem State.setFlags_vg72 (s : State) (f : Flags) : (s.setFlags f).vg72 = s.vg72 := rfl
@[simp] theorem State.setFlags_ru55 (s : State) (f : Flags) : (s.setFlags f).ru55 = s.ru55 := rfl
@[simp] theorem State.setFlags_rf55 (s : State) (f : Flags) : (s.setFlags f).rf55 = s.rf55 := rfl
@[simp] theorem State.setFlags_env (s : State) (f : Flags) : (s.setFlags f).env = s.env := rfl
@[simp] theorem State.setFlags_plat (s : State) (f : Flags) : (s.setFlags f).plat = s.plat := rfl
@[simp] theorem State.setFlags_free (s : State) (f : Flags) : (s.setFlags f).free = s.free := rfl

/-! ### setReg -/

@[simp] theorem State.setReg_cpu (s : State) (w : Width) (r : GReg) (v : Word) :
    (s.setReg w r v).cpu = s.cpu.setReg w r v := rfl
@[simp] theorem State.setReg_fpu (s : State) (w : Width) (r : GReg) (v : Word) : (s.setReg w r v).fpu = s.fpu := rfl
@[simp] theorem State.setReg_run (s : State) (w : Width) (r : GReg) (v : Word) : (s.setReg w r v).run = s.run := rfl
@[simp] theorem State.setReg_iop (s : State) (w : Width) (r : GReg) (v : Word) : (s.setReg w r v).iop = s.iop := rfl
@[simp] theorem State.setReg_mem (s : State) (w : Width) (r : GReg) (v : Word) : (s.setReg w r v).mem = s.mem := rfl
@[simp] theorem State.setReg_iomem (s : State) (w : Width) (r : GReg) (v : Word) :
    (s.setReg w r v).iomem = s.iomem := rfl
@[simp] theorem State.setReg_remote (s : State) (w : Width) (r : GReg) (v : Word) :
    (s.setReg w r v).remote = s.remote := rfl
@[simp] theorem State.setReg_vt37 (s : State) (w : Width) (r : GReg) (v : Word) :
    (s.setReg w r v).vt37 = s.vt37 := rfl
@[simp] theorem State.setReg_cascaded (s : State) (w : Width) (r : GReg) (v : Word) :
    (s.setReg w r v).cascaded = s.cascaded := rfl
@[simp] theorem State.setReg_vi54 (s : State) (w : Width) (r : GReg) (v : Word) :
    (s.setReg w r v).vi54 = s.vi54 := rfl
@[simp] theorem State.setReg_vg72 (s : State) (w : Width) (r : GReg) (v : Word) :
    (s.setReg w r v).vg72 = s.vg72 := rfl
@[simp] theorem State.setReg_ru55 (s : State) (w : Width) (r : GReg) (v : Word) :
    (s.setReg w r v).ru55 = s.ru55 := rfl
@[simp] theorem State.setReg_rf55 (s : State) (w : Width) (r : GReg) (v : Word) :
    (s.setReg w r v).rf55 = s.rf55 := rfl
@[simp] theorem State.setReg_env (s : State) (w : Width) (r : GReg) (v : Word) : (s.setReg w r v).env = s.env := rfl
@[simp] theorem State.setReg_plat (s : State) (w : Width) (r : GReg) (v : Word) :
    (s.setReg w r v).plat = s.plat := rfl
@[simp] theorem State.setReg_free (s : State) (w : Width) (r : GReg) (v : Word) :
    (s.setReg w r v).free = s.free := rfl

/-! ### setAcc -/

@[simp] theorem State.setAcc_cpu (s : State) (w : Width) (v : Word) : (s.setAcc w v).cpu = s.cpu.setReg w .ax v := rfl
@[simp] theorem State.setAcc_fpu (s : State) (w : Width) (v : Word) : (s.setAcc w v).fpu = s.fpu := rfl
@[simp] theorem State.setAcc_run (s : State) (w : Width) (v : Word) : (s.setAcc w v).run = s.run := rfl
@[simp] theorem State.setAcc_iop (s : State) (w : Width) (v : Word) : (s.setAcc w v).iop = s.iop := rfl
@[simp] theorem State.setAcc_mem (s : State) (w : Width) (v : Word) : (s.setAcc w v).mem = s.mem := rfl
@[simp] theorem State.setAcc_iomem (s : State) (w : Width) (v : Word) : (s.setAcc w v).iomem = s.iomem := rfl
@[simp] theorem State.setAcc_remote (s : State) (w : Width) (v : Word) : (s.setAcc w v).remote = s.remote := rfl
@[simp] theorem State.setAcc_vt37 (s : State) (w : Width) (v : Word) : (s.setAcc w v).vt37 = s.vt37 := rfl
@[simp] theorem State.setAcc_cascaded (s : State) (w : Width) (v : Word) : (s.setAcc w v).cascaded = s.cascaded := rfl
@[simp] theorem State.setAcc_vi54 (s : State) (w : Width) (v : Word) : (s.setAcc w v).vi54 = s.vi54 := rfl
@[simp] theorem State.setAcc_vg72 (s : State) (w : Width) (v : Word) : (s.setAcc w v).vg72 = s.vg72 := rfl
@[simp] theorem State.setAcc_ru55 (s : State) (w : Width) (v : Word) : (s.setAcc w v).ru55 = s.ru55 := rfl
@[simp] theorem State.setAcc_rf55 (s : State) (w : Width) (v : Word) : (s.setAcc w v).rf55 = s.rf55 := rfl
@[simp] theorem State.setAcc_env (s : State) (w : Width) (v : Word) : (s.setAcc w v).env = s.env := rfl
@[simp] theorem State.setAcc_plat (s : State) (w : Width) (v : Word) : (s.setAcc w v).plat = s.plat := rfl
@[simp] theorem State.setAcc_free (s : State) (w : Width) (v : Word) : (s.setAcc w v).free = s.free := rfl

/-! ### setExt -/

@[simp] theorem State.setExt_cpu (s : State) (w : Width) (v : Word) :
    (s.setExt w v).cpu = s.cpu.setReg w (extReg w) v := rfl
@[simp] theorem State.setExt_fpu (s : State) (w : Width) (v : Word) : (s.setExt w v).fpu = s.fpu := rfl
@[simp] theorem State.setExt_run (s : State) (w : Width) (v : Word) : (s.setExt w v).run = s.run := rfl
@[simp] theorem State.setExt_iop (s : State) (w : Width) (v : Word) : (s.setExt w v).iop = s.iop := rfl
@[simp] theorem State.setExt_mem (s : State) (w : Width) (v : Word) : (s.setExt w v).mem = s.mem := rfl
@[simp] theorem State.setExt_iomem (s : State) (w : Width) (v : Word) : (s.setExt w v).iomem = s.iomem := rfl
@[simp] theorem State.setExt_remote (s : State) (w : Width) (v : Word) : (s.setExt w v).remote = s.remote := rfl
@[simp] theorem State.setExt_vt37 (s : State) (w : Width) (v : Word) : (s.setExt w v).vt37 = s.vt37 := rfl
@[simp] theorem State.setExt_cascaded (s : State) (w : Width) (v : Word) : (s.setExt w v).cascaded = s.cascaded := rfl
@[simp] theorem State.setExt_vi54 (s : State) (w : Width) (v : Word) : (s.setExt w v).vi54 = s.vi54 := rfl
@[simp] theorem State.setExt_vg72 (s : State) (w : Width) (v : Word) : (s.setExt w v).vg72 = s.vg72 := rfl
@[simp] theorem State.setExt_ru55 (s : State) (w : Width) (v : Word) : (s.setExt w v).ru55 = s.ru55 := rfl
@[simp] theorem State.setExt_rf55 (s : State) (w : Width) (v : Word) : (s.setExt w v).rf55 = s.rf55 := rfl
@[simp] theorem State.setExt_env (s : State) (w : Width) (v : Word) : (s.setExt w v).env = s.env := rfl
@[simp] theorem State.setExt_plat (s : State) (w : Width) (v : Word) : (s.setExt w v).plat = s.plat := rfl
@[simp] theorem State.setExt_free (s : State) (w : Width) (v : Word) : (s.setExt w v).free = s.free := rfl

/-! ### loadSreg -/

@[simp] theorem State.loadSreg_cpu (s : State) (r : SReg) (v : Word) :
    (s.loadSreg r v).cpu = { s.cpu.setSreg r v with inhibit := true } := rfl
@[simp] theorem State.loadSreg_fpu (s : State) (r : SReg) (v : Word) : (s.loadSreg r v).fpu = s.fpu := rfl
@[simp] theorem State.loadSreg_run (s : State) (r : SReg) (v : Word) : (s.loadSreg r v).run = s.run := rfl
@[simp] theorem State.loadSreg_iop (s : State) (r : SReg) (v : Word) : (s.loadSreg r v).iop = s.iop := rfl
@[simp] theorem State.loadSreg_mem (s : State) (r : SReg) (v : Word) : (s.loadSreg r v).mem = s.mem := rfl
@[simp] theorem State.loadSreg_iomem (s : State) (r : SReg) (v : Word) : (s.loadSreg r v).iomem = s.iomem := rfl
@[simp] theorem State.loadSreg_remote (s : State) (r : SReg) (v : Word) : (s.loadSreg r v).remote = s.remote := rfl
@[simp] theorem State.loadSreg_vt37 (s : State) (r : SReg) (v : Word) : (s.loadSreg r v).vt37 = s.vt37 := rfl
@[simp] theorem State.loadSreg_cascaded (s : State) (r : SReg) (v : Word) :
    (s.loadSreg r v).cascaded = s.cascaded := rfl
@[simp] theorem State.loadSreg_vi54 (s : State) (r : SReg) (v : Word) : (s.loadSreg r v).vi54 = s.vi54 := rfl
@[simp] theorem State.loadSreg_vg72 (s : State) (r : SReg) (v : Word) : (s.loadSreg r v).vg72 = s.vg72 := rfl
@[simp] theorem State.loadSreg_ru55 (s : State) (r : SReg) (v : Word) : (s.loadSreg r v).ru55 = s.ru55 := rfl
@[simp] theorem State.loadSreg_rf55 (s : State) (r : SReg) (v : Word) : (s.loadSreg r v).rf55 = s.rf55 := rfl
@[simp] theorem State.loadSreg_env (s : State) (r : SReg) (v : Word) : (s.loadSreg r v).env = s.env := rfl
@[simp] theorem State.loadSreg_plat (s : State) (r : SReg) (v : Word) : (s.loadSreg r v).plat = s.plat := rfl
@[simp] theorem State.loadSreg_free (s : State) (r : SReg) (v : Word) : (s.loadSreg r v).free = s.free := rfl

/-! ### jumpNear -/

@[simp] theorem State.jumpNear_cpu (s : State) (ip : Word) :
    (s.jumpNear ip).cpu = { s.cpu with ip := ip, stale := [], ahead := [] } := rfl
@[simp] theorem State.jumpNear_fpu (s : State) (ip : Word) : (s.jumpNear ip).fpu = s.fpu := rfl
@[simp] theorem State.jumpNear_run (s : State) (ip : Word) : (s.jumpNear ip).run = s.run := rfl
@[simp] theorem State.jumpNear_iop (s : State) (ip : Word) : (s.jumpNear ip).iop = s.iop := rfl
@[simp] theorem State.jumpNear_mem (s : State) (ip : Word) : (s.jumpNear ip).mem = s.mem := rfl
@[simp] theorem State.jumpNear_iomem (s : State) (ip : Word) : (s.jumpNear ip).iomem = s.iomem := rfl
@[simp] theorem State.jumpNear_remote (s : State) (ip : Word) : (s.jumpNear ip).remote = s.remote := rfl
@[simp] theorem State.jumpNear_vt37 (s : State) (ip : Word) : (s.jumpNear ip).vt37 = s.vt37 := rfl
@[simp] theorem State.jumpNear_cascaded (s : State) (ip : Word) : (s.jumpNear ip).cascaded = s.cascaded := rfl
@[simp] theorem State.jumpNear_vi54 (s : State) (ip : Word) : (s.jumpNear ip).vi54 = s.vi54 := rfl
@[simp] theorem State.jumpNear_vg72 (s : State) (ip : Word) : (s.jumpNear ip).vg72 = s.vg72 := rfl
@[simp] theorem State.jumpNear_ru55 (s : State) (ip : Word) : (s.jumpNear ip).ru55 = s.ru55 := rfl
@[simp] theorem State.jumpNear_rf55 (s : State) (ip : Word) : (s.jumpNear ip).rf55 = s.rf55 := rfl
@[simp] theorem State.jumpNear_env (s : State) (ip : Word) : (s.jumpNear ip).env = s.env := rfl
@[simp] theorem State.jumpNear_plat (s : State) (ip : Word) : (s.jumpNear ip).plat = s.plat := rfl
@[simp] theorem State.jumpNear_free (s : State) (ip : Word) : (s.jumpNear ip).free = s.free := rfl

/-! ### jumpFar -/

@[simp] theorem State.jumpFar_cpu (s : State) (cs ip : Word) :
    (s.jumpFar cs ip).cpu = { s.cpu with cs := cs, ip := ip, stale := [], ahead := [] } := rfl
@[simp] theorem State.jumpFar_fpu (s : State) (cs ip : Word) : (s.jumpFar cs ip).fpu = s.fpu := rfl
@[simp] theorem State.jumpFar_run (s : State) (cs ip : Word) : (s.jumpFar cs ip).run = s.run := rfl
@[simp] theorem State.jumpFar_iop (s : State) (cs ip : Word) : (s.jumpFar cs ip).iop = s.iop := rfl
@[simp] theorem State.jumpFar_mem (s : State) (cs ip : Word) : (s.jumpFar cs ip).mem = s.mem := rfl
@[simp] theorem State.jumpFar_iomem (s : State) (cs ip : Word) : (s.jumpFar cs ip).iomem = s.iomem := rfl
@[simp] theorem State.jumpFar_remote (s : State) (cs ip : Word) : (s.jumpFar cs ip).remote = s.remote := rfl
@[simp] theorem State.jumpFar_vt37 (s : State) (cs ip : Word) : (s.jumpFar cs ip).vt37 = s.vt37 := rfl
@[simp] theorem State.jumpFar_cascaded (s : State) (cs ip : Word) : (s.jumpFar cs ip).cascaded = s.cascaded := rfl
@[simp] theorem State.jumpFar_vi54 (s : State) (cs ip : Word) : (s.jumpFar cs ip).vi54 = s.vi54 := rfl
@[simp] theorem State.jumpFar_vg72 (s : State) (cs ip : Word) : (s.jumpFar cs ip).vg72 = s.vg72 := rfl
@[simp] theorem State.jumpFar_ru55 (s : State) (cs ip : Word) : (s.jumpFar cs ip).ru55 = s.ru55 := rfl
@[simp] theorem State.jumpFar_rf55 (s : State) (cs ip : Word) : (s.jumpFar cs ip).rf55 = s.rf55 := rfl
@[simp] theorem State.jumpFar_env (s : State) (cs ip : Word) : (s.jumpFar cs ip).env = s.env := rfl
@[simp] theorem State.jumpFar_plat (s : State) (cs ip : Word) : (s.jumpFar cs ip).plat = s.plat := rfl
@[simp] theorem State.jumpFar_free (s : State) (cs ip : Word) : (s.jumpFar cs ip).free = s.free := rfl

/-! ### addSp -/

@[simp] theorem State.addSp_cpu (s : State) (n : Word) : (s.addSp n).cpu = { s.cpu with sp := s.cpu.sp + n } := rfl
@[simp] theorem State.addSp_fpu (s : State) (n : Word) : (s.addSp n).fpu = s.fpu := rfl
@[simp] theorem State.addSp_run (s : State) (n : Word) : (s.addSp n).run = s.run := rfl
@[simp] theorem State.addSp_iop (s : State) (n : Word) : (s.addSp n).iop = s.iop := rfl
@[simp] theorem State.addSp_mem (s : State) (n : Word) : (s.addSp n).mem = s.mem := rfl
@[simp] theorem State.addSp_iomem (s : State) (n : Word) : (s.addSp n).iomem = s.iomem := rfl
@[simp] theorem State.addSp_remote (s : State) (n : Word) : (s.addSp n).remote = s.remote := rfl
@[simp] theorem State.addSp_vt37 (s : State) (n : Word) : (s.addSp n).vt37 = s.vt37 := rfl
@[simp] theorem State.addSp_cascaded (s : State) (n : Word) : (s.addSp n).cascaded = s.cascaded := rfl
@[simp] theorem State.addSp_vi54 (s : State) (n : Word) : (s.addSp n).vi54 = s.vi54 := rfl
@[simp] theorem State.addSp_vg72 (s : State) (n : Word) : (s.addSp n).vg72 = s.vg72 := rfl
@[simp] theorem State.addSp_ru55 (s : State) (n : Word) : (s.addSp n).ru55 = s.ru55 := rfl
@[simp] theorem State.addSp_rf55 (s : State) (n : Word) : (s.addSp n).rf55 = s.rf55 := rfl
@[simp] theorem State.addSp_env (s : State) (n : Word) : (s.addSp n).env = s.env := rfl
@[simp] theorem State.addSp_plat (s : State) (n : Word) : (s.addSp n).plat = s.plat := rfl
@[simp] theorem State.addSp_free (s : State) (n : Word) : (s.addSp n).free = s.free := rfl

/-! ### decCx -/

@[simp] theorem State.decCx_cpu (s : State) : (s.decCx).cpu = { s.cpu with cx := s.cpu.cx - 1#16 } := rfl
@[simp] theorem State.decCx_fpu (s : State) : (s.decCx).fpu = s.fpu := rfl
@[simp] theorem State.decCx_run (s : State) : (s.decCx).run = s.run := rfl
@[simp] theorem State.decCx_iop (s : State) : (s.decCx).iop = s.iop := rfl
@[simp] theorem State.decCx_mem (s : State) : (s.decCx).mem = s.mem := rfl
@[simp] theorem State.decCx_iomem (s : State) : (s.decCx).iomem = s.iomem := rfl
@[simp] theorem State.decCx_remote (s : State) : (s.decCx).remote = s.remote := rfl
@[simp] theorem State.decCx_vt37 (s : State) : (s.decCx).vt37 = s.vt37 := rfl
@[simp] theorem State.decCx_cascaded (s : State) : (s.decCx).cascaded = s.cascaded := rfl
@[simp] theorem State.decCx_vi54 (s : State) : (s.decCx).vi54 = s.vi54 := rfl
@[simp] theorem State.decCx_vg72 (s : State) : (s.decCx).vg72 = s.vg72 := rfl
@[simp] theorem State.decCx_ru55 (s : State) : (s.decCx).ru55 = s.ru55 := rfl
@[simp] theorem State.decCx_rf55 (s : State) : (s.decCx).rf55 = s.rf55 := rfl
@[simp] theorem State.decCx_env (s : State) : (s.decCx).env = s.env := rfl
@[simp] theorem State.decCx_plat (s : State) : (s.decCx).plat = s.plat := rfl
@[simp] theorem State.decCx_free (s : State) : (s.decCx).free = s.free := rfl

/-! ### stepSi -/

@[simp] theorem State.stepSi_cpu (s : State) (w : Width) :
    (s.stepSi w).cpu = { s.cpu with si := s.cpu.si + s.delta w } := rfl
@[simp] theorem State.stepSi_fpu (s : State) (w : Width) : (s.stepSi w).fpu = s.fpu := rfl
@[simp] theorem State.stepSi_run (s : State) (w : Width) : (s.stepSi w).run = s.run := rfl
@[simp] theorem State.stepSi_iop (s : State) (w : Width) : (s.stepSi w).iop = s.iop := rfl
@[simp] theorem State.stepSi_mem (s : State) (w : Width) : (s.stepSi w).mem = s.mem := rfl
@[simp] theorem State.stepSi_iomem (s : State) (w : Width) : (s.stepSi w).iomem = s.iomem := rfl
@[simp] theorem State.stepSi_remote (s : State) (w : Width) : (s.stepSi w).remote = s.remote := rfl
@[simp] theorem State.stepSi_vt37 (s : State) (w : Width) : (s.stepSi w).vt37 = s.vt37 := rfl
@[simp] theorem State.stepSi_cascaded (s : State) (w : Width) : (s.stepSi w).cascaded = s.cascaded := rfl
@[simp] theorem State.stepSi_vi54 (s : State) (w : Width) : (s.stepSi w).vi54 = s.vi54 := rfl
@[simp] theorem State.stepSi_vg72 (s : State) (w : Width) : (s.stepSi w).vg72 = s.vg72 := rfl
@[simp] theorem State.stepSi_ru55 (s : State) (w : Width) : (s.stepSi w).ru55 = s.ru55 := rfl
@[simp] theorem State.stepSi_rf55 (s : State) (w : Width) : (s.stepSi w).rf55 = s.rf55 := rfl
@[simp] theorem State.stepSi_env (s : State) (w : Width) : (s.stepSi w).env = s.env := rfl
@[simp] theorem State.stepSi_plat (s : State) (w : Width) : (s.stepSi w).plat = s.plat := rfl
@[simp] theorem State.stepSi_free (s : State) (w : Width) : (s.stepSi w).free = s.free := rfl

/-! ### stepDi -/

@[simp] theorem State.stepDi_cpu (s : State) (w : Width) :
    (s.stepDi w).cpu = { s.cpu with di := s.cpu.di + s.delta w } := rfl
@[simp] theorem State.stepDi_fpu (s : State) (w : Width) : (s.stepDi w).fpu = s.fpu := rfl
@[simp] theorem State.stepDi_run (s : State) (w : Width) : (s.stepDi w).run = s.run := rfl
@[simp] theorem State.stepDi_iop (s : State) (w : Width) : (s.stepDi w).iop = s.iop := rfl
@[simp] theorem State.stepDi_mem (s : State) (w : Width) : (s.stepDi w).mem = s.mem := rfl
@[simp] theorem State.stepDi_iomem (s : State) (w : Width) : (s.stepDi w).iomem = s.iomem := rfl
@[simp] theorem State.stepDi_remote (s : State) (w : Width) : (s.stepDi w).remote = s.remote := rfl
@[simp] theorem State.stepDi_vt37 (s : State) (w : Width) : (s.stepDi w).vt37 = s.vt37 := rfl
@[simp] theorem State.stepDi_cascaded (s : State) (w : Width) : (s.stepDi w).cascaded = s.cascaded := rfl
@[simp] theorem State.stepDi_vi54 (s : State) (w : Width) : (s.stepDi w).vi54 = s.vi54 := rfl
@[simp] theorem State.stepDi_vg72 (s : State) (w : Width) : (s.stepDi w).vg72 = s.vg72 := rfl
@[simp] theorem State.stepDi_ru55 (s : State) (w : Width) : (s.stepDi w).ru55 = s.ru55 := rfl
@[simp] theorem State.stepDi_rf55 (s : State) (w : Width) : (s.stepDi w).rf55 = s.rf55 := rfl
@[simp] theorem State.stepDi_env (s : State) (w : Width) : (s.stepDi w).env = s.env := rfl
@[simp] theorem State.stepDi_plat (s : State) (w : Width) : (s.stepDi w).plat = s.plat := rfl
@[simp] theorem State.stepDi_free (s : State) (w : Width) : (s.stepDi w).free = s.free := rfl

/-! ### setFpu -/

@[simp] theorem State.setFpu_cpu (s : State) (f : Fpu) : (s.setFpu f).cpu = s.cpu := rfl
@[simp] theorem State.setFpu_fpu (s : State) (f : Fpu) : (s.setFpu f).fpu = f := rfl
@[simp] theorem State.setFpu_run (s : State) (f : Fpu) : (s.setFpu f).run = s.run := rfl
@[simp] theorem State.setFpu_iop (s : State) (f : Fpu) : (s.setFpu f).iop = s.iop := rfl
@[simp] theorem State.setFpu_mem (s : State) (f : Fpu) : (s.setFpu f).mem = s.mem := rfl
@[simp] theorem State.setFpu_iomem (s : State) (f : Fpu) : (s.setFpu f).iomem = s.iomem := rfl
@[simp] theorem State.setFpu_remote (s : State) (f : Fpu) : (s.setFpu f).remote = s.remote := rfl
@[simp] theorem State.setFpu_vt37 (s : State) (f : Fpu) : (s.setFpu f).vt37 = s.vt37 := rfl
@[simp] theorem State.setFpu_cascaded (s : State) (f : Fpu) : (s.setFpu f).cascaded = s.cascaded := rfl
@[simp] theorem State.setFpu_vi54 (s : State) (f : Fpu) : (s.setFpu f).vi54 = s.vi54 := rfl
@[simp] theorem State.setFpu_vg72 (s : State) (f : Fpu) : (s.setFpu f).vg72 = s.vg72 := rfl
@[simp] theorem State.setFpu_ru55 (s : State) (f : Fpu) : (s.setFpu f).ru55 = s.ru55 := rfl
@[simp] theorem State.setFpu_rf55 (s : State) (f : Fpu) : (s.setFpu f).rf55 = s.rf55 := rfl
@[simp] theorem State.setFpu_env (s : State) (f : Fpu) : (s.setFpu f).env = s.env := rfl
@[simp] theorem State.setFpu_plat (s : State) (f : Fpu) : (s.setFpu f).plat = s.plat := rfl
@[simp] theorem State.setFpu_free (s : State) (f : Fpu) : (s.setFpu f).free = s.free := rfl

/-! ### setCh -/

@[simp] theorem State.setCh_cpu (s : State) (c : IopChan) : (s.setCh c).cpu = s.cpu := rfl
@[simp] theorem State.setCh_fpu (s : State) (c : IopChan) : (s.setCh c).fpu = s.fpu := rfl
@[simp] theorem State.setCh_run (s : State) (c : IopChan) : (s.setCh c).run = s.run := rfl
@[simp] theorem State.setCh_iop (s : State) (c : IopChan) : (s.setCh c).iop = s.iop.setChan s.iop.cur c := rfl
@[simp] theorem State.setCh_mem (s : State) (c : IopChan) : (s.setCh c).mem = s.mem := rfl
@[simp] theorem State.setCh_iomem (s : State) (c : IopChan) : (s.setCh c).iomem = s.iomem := rfl
@[simp] theorem State.setCh_remote (s : State) (c : IopChan) : (s.setCh c).remote = s.remote := rfl
@[simp] theorem State.setCh_vt37 (s : State) (c : IopChan) : (s.setCh c).vt37 = s.vt37 := rfl
@[simp] theorem State.setCh_cascaded (s : State) (c : IopChan) : (s.setCh c).cascaded = s.cascaded := rfl
@[simp] theorem State.setCh_vi54 (s : State) (c : IopChan) : (s.setCh c).vi54 = s.vi54 := rfl
@[simp] theorem State.setCh_vg72 (s : State) (c : IopChan) : (s.setCh c).vg72 = s.vg72 := rfl
@[simp] theorem State.setCh_ru55 (s : State) (c : IopChan) : (s.setCh c).ru55 = s.ru55 := rfl
@[simp] theorem State.setCh_rf55 (s : State) (c : IopChan) : (s.setCh c).rf55 = s.rf55 := rfl
@[simp] theorem State.setCh_env (s : State) (c : IopChan) : (s.setCh c).env = s.env := rfl
@[simp] theorem State.setCh_plat (s : State) (c : IopChan) : (s.setCh c).plat = s.plat := rfl
@[simp] theorem State.setCh_free (s : State) (c : IopChan) : (s.setCh c).free = s.free := rfl

/-! ### store8 -/

@[simp] theorem State.store8_cpu (s : State) (a : Nat) (v : Byte) :
    (s.store8 a v).cpu = s.cpu.noteStore s.queueLen a (s.mem.get a) := rfl
@[simp] theorem State.store8_fpu (s : State) (a : Nat) (v : Byte) : (s.store8 a v).fpu = s.fpu := rfl
@[simp] theorem State.store8_run (s : State) (a : Nat) (v : Byte) : (s.store8 a v).run = s.run := rfl
@[simp] theorem State.store8_iop (s : State) (a : Nat) (v : Byte) :
    (s.store8 a v).iop = s.iop.noteStore false a (s.mem.get a) := rfl
@[simp] theorem State.store8_mem (s : State) (a : Nat) (v : Byte) : (s.store8 a v).mem = s.mem.put a v := rfl
@[simp] theorem State.store8_iomem (s : State) (a : Nat) (v : Byte) : (s.store8 a v).iomem = s.iomem := rfl
@[simp] theorem State.store8_remote (s : State) (a : Nat) (v : Byte) : (s.store8 a v).remote = s.remote := rfl
@[simp] theorem State.store8_vt37 (s : State) (a : Nat) (v : Byte) : (s.store8 a v).vt37 = s.vt37 := rfl
@[simp] theorem State.store8_cascaded (s : State) (a : Nat) (v : Byte) : (s.store8 a v).cascaded = s.cascaded := rfl
@[simp] theorem State.store8_vi54 (s : State) (a : Nat) (v : Byte) : (s.store8 a v).vi54 = s.vi54 := rfl
@[simp] theorem State.store8_vg72 (s : State) (a : Nat) (v : Byte) : (s.store8 a v).vg72 = s.vg72 := rfl
@[simp] theorem State.store8_ru55 (s : State) (a : Nat) (v : Byte) : (s.store8 a v).ru55 = s.ru55 := rfl
@[simp] theorem State.store8_rf55 (s : State) (a : Nat) (v : Byte) : (s.store8 a v).rf55 = s.rf55 := rfl
@[simp] theorem State.store8_env (s : State) (a : Nat) (v : Byte) : (s.store8 a v).env = s.env := rfl
@[simp] theorem State.store8_plat (s : State) (a : Nat) (v : Byte) : (s.store8 a v).plat = s.plat := rfl
@[simp] theorem State.store8_free (s : State) (a : Nat) (v : Byte) : (s.store8 a v).free = s.free := rfl

/-! ### acknowledge -/

@[simp] theorem State.acknowledge_cpu (s : State) : (s.acknowledge).cpu = s.cpu := rfl
@[simp] theorem State.acknowledge_fpu (s : State) : (s.acknowledge).fpu = s.fpu := rfl
@[simp] theorem State.acknowledge_run (s : State) : (s.acknowledge).run = s.run := rfl
@[simp] theorem State.acknowledge_iop (s : State) : (s.acknowledge).iop = s.iop := rfl
@[simp] theorem State.acknowledge_mem (s : State) : (s.acknowledge).mem = s.mem := rfl
@[simp] theorem State.acknowledge_iomem (s : State) : (s.acknowledge).iomem = s.iomem := rfl
@[simp] theorem State.acknowledge_remote (s : State) : (s.acknowledge).remote = s.remote := rfl
@[simp] theorem State.acknowledge_vt37 (s : State) : (s.acknowledge).vt37 = s.vt37 := rfl
@[simp] theorem State.acknowledge_cascaded (s : State) : (s.acknowledge).cascaded = s.cascaded := rfl
@[simp] theorem State.acknowledge_vi54 (s : State) : (s.acknowledge).vi54 = s.vi54 := rfl
@[simp] theorem State.acknowledge_vg72 (s : State) : (s.acknowledge).vg72 = s.vg72 := rfl
@[simp] theorem State.acknowledge_ru55 (s : State) : (s.acknowledge).ru55 = s.ru55 := rfl
@[simp] theorem State.acknowledge_rf55 (s : State) : (s.acknowledge).rf55 = s.rf55 := rfl
@[simp] theorem State.acknowledge_env (s : State) : (s.acknowledge).env = { s.env with intr := none } := rfl
@[simp] theorem State.acknowledge_plat (s : State) : (s.acknowledge).plat = s.plat := rfl
@[simp] theorem State.acknowledge_free (s : State) : (s.acknowledge).free = s.free := rfl

/-! ### again -/

@[simp] theorem State.again_cpu (s : State) :
    (s.again).cpu = { s.cpu with stepPending := s.cpu.f.tf, phase := .complete } := rfl
@[simp] theorem State.again_fpu (s : State) : (s.again).fpu = s.fpu := rfl
@[simp] theorem State.again_run (s : State) : (s.again).run = s.run := rfl
@[simp] theorem State.again_iop (s : State) : (s.again).iop = s.iop := rfl
@[simp] theorem State.again_mem (s : State) : (s.again).mem = s.mem := rfl
@[simp] theorem State.again_iomem (s : State) : (s.again).iomem = s.iomem := rfl
@[simp] theorem State.again_remote (s : State) : (s.again).remote = s.remote := rfl
@[simp] theorem State.again_vt37 (s : State) : (s.again).vt37 = s.vt37 := rfl
@[simp] theorem State.again_cascaded (s : State) : (s.again).cascaded = s.cascaded := rfl
@[simp] theorem State.again_vi54 (s : State) : (s.again).vi54 = s.vi54 := rfl
@[simp] theorem State.again_vg72 (s : State) : (s.again).vg72 = s.vg72 := rfl
@[simp] theorem State.again_ru55 (s : State) : (s.again).ru55 = s.ru55 := rfl
@[simp] theorem State.again_rf55 (s : State) : (s.again).rf55 = s.rf55 := rfl
@[simp] theorem State.again_env (s : State) : (s.again).env = s.env := rfl
@[simp] theorem State.again_plat (s : State) : (s.again).plat = s.plat := rfl
@[simp] theorem State.again_free (s : State) : (s.again).free = s.free := rfl

/-! ### remoteStore8 -/

@[simp] theorem State.remoteStore8_cpu (s : State) (a : Nat) (v : Byte) : (s.remoteStore8 a v).cpu = s.cpu := rfl
@[simp] theorem State.remoteStore8_fpu (s : State) (a : Nat) (v : Byte) : (s.remoteStore8 a v).fpu = s.fpu := rfl
@[simp] theorem State.remoteStore8_run (s : State) (a : Nat) (v : Byte) : (s.remoteStore8 a v).run = s.run := rfl
@[simp] theorem State.remoteStore8_iop (s : State) (a : Nat) (v : Byte) :
    (s.remoteStore8 a v).iop = s.iop.noteStore true a (s.remote.get a) := rfl
@[simp] theorem State.remoteStore8_mem (s : State) (a : Nat) (v : Byte) : (s.remoteStore8 a v).mem = s.mem := rfl
@[simp] theorem State.remoteStore8_iomem (s : State) (a : Nat) (v : Byte) :
    (s.remoteStore8 a v).iomem = s.iomem := rfl
@[simp] theorem State.remoteStore8_remote (s : State) (a : Nat) (v : Byte) :
    (s.remoteStore8 a v).remote = s.remote.put a v := rfl
@[simp] theorem State.remoteStore8_vt37 (s : State) (a : Nat) (v : Byte) : (s.remoteStore8 a v).vt37 = s.vt37 := rfl
@[simp] theorem State.remoteStore8_cascaded (s : State) (a : Nat) (v : Byte) :
    (s.remoteStore8 a v).cascaded = s.cascaded := rfl
@[simp] theorem State.remoteStore8_vi54 (s : State) (a : Nat) (v : Byte) : (s.remoteStore8 a v).vi54 = s.vi54 := rfl
@[simp] theorem State.remoteStore8_vg72 (s : State) (a : Nat) (v : Byte) : (s.remoteStore8 a v).vg72 = s.vg72 := rfl
@[simp] theorem State.remoteStore8_ru55 (s : State) (a : Nat) (v : Byte) : (s.remoteStore8 a v).ru55 = s.ru55 := rfl
@[simp] theorem State.remoteStore8_rf55 (s : State) (a : Nat) (v : Byte) : (s.remoteStore8 a v).rf55 = s.rf55 := rfl
@[simp] theorem State.remoteStore8_env (s : State) (a : Nat) (v : Byte) : (s.remoteStore8 a v).env = s.env := rfl
@[simp] theorem State.remoteStore8_plat (s : State) (a : Nat) (v : Byte) : (s.remoteStore8 a v).plat = s.plat := rfl
@[simp] theorem State.remoteStore8_free (s : State) (a : Nat) (v : Byte) : (s.remoteStore8 a v).free = s.free := rfl

/-! ### ioStore8 -/

@[simp] theorem State.ioStore8_cpu (s : State) (a : Nat) (v : Byte) : (s.ioStore8 a v).cpu = s.cpu := rfl
@[simp] theorem State.ioStore8_fpu (s : State) (a : Nat) (v : Byte) : (s.ioStore8 a v).fpu = s.fpu := rfl
@[simp] theorem State.ioStore8_run (s : State) (a : Nat) (v : Byte) : (s.ioStore8 a v).run = s.run := rfl
@[simp] theorem State.ioStore8_iop (s : State) (a : Nat) (v : Byte) :
    (s.ioStore8 a v).iop = if s.plat.iopRemote then s.iop else s.iop.noteStore true a (s.iomem.get a) := rfl
@[simp] theorem State.ioStore8_mem (s : State) (a : Nat) (v : Byte) : (s.ioStore8 a v).mem = s.mem := rfl
@[simp] theorem State.ioStore8_iomem (s : State) (a : Nat) (v : Byte) :
    (s.ioStore8 a v).iomem = s.iomem.put a v := rfl
@[simp] theorem State.ioStore8_remote (s : State) (a : Nat) (v : Byte) : (s.ioStore8 a v).remote = s.remote := rfl
@[simp] theorem State.ioStore8_vt37 (s : State) (a : Nat) (v : Byte) : (s.ioStore8 a v).vt37 = s.vt37 := rfl
@[simp] theorem State.ioStore8_cascaded (s : State) (a : Nat) (v : Byte) :
    (s.ioStore8 a v).cascaded = s.cascaded := rfl
@[simp] theorem State.ioStore8_vi54 (s : State) (a : Nat) (v : Byte) : (s.ioStore8 a v).vi54 = s.vi54 := rfl
@[simp] theorem State.ioStore8_vg72 (s : State) (a : Nat) (v : Byte) : (s.ioStore8 a v).vg72 = s.vg72 := rfl
@[simp] theorem State.ioStore8_ru55 (s : State) (a : Nat) (v : Byte) : (s.ioStore8 a v).ru55 = s.ru55 := rfl
@[simp] theorem State.ioStore8_rf55 (s : State) (a : Nat) (v : Byte) : (s.ioStore8 a v).rf55 = s.rf55 := rfl
@[simp] theorem State.ioStore8_env (s : State) (a : Nat) (v : Byte) : (s.ioStore8 a v).env = s.env := rfl
@[simp] theorem State.ioStore8_plat (s : State) (a : Nat) (v : Byte) : (s.ioStore8 a v).plat = s.plat := rfl
@[simp] theorem State.ioStore8_free (s : State) (a : Nat) (v : Byte) : (s.ioStore8 a v).free = s.free := rfl

/-! ### fpuInit -/

@[simp] theorem State.fpuInit_cpu (s : State) : (s.fpuInit).cpu = s.cpu := rfl
@[simp] theorem State.fpuInit_fpu (s : State) : (s.fpuInit).fpu = Fpu.init s.free := rfl
@[simp] theorem State.fpuInit_run (s : State) : (s.fpuInit).run = s.run := rfl
@[simp] theorem State.fpuInit_iop (s : State) : (s.fpuInit).iop = s.iop := rfl
@[simp] theorem State.fpuInit_mem (s : State) : (s.fpuInit).mem = s.mem := rfl
@[simp] theorem State.fpuInit_iomem (s : State) : (s.fpuInit).iomem = s.iomem := rfl
@[simp] theorem State.fpuInit_remote (s : State) : (s.fpuInit).remote = s.remote := rfl
@[simp] theorem State.fpuInit_vt37 (s : State) : (s.fpuInit).vt37 = s.vt37 := rfl
@[simp] theorem State.fpuInit_cascaded (s : State) : (s.fpuInit).cascaded = s.cascaded := rfl
@[simp] theorem State.fpuInit_vi54 (s : State) : (s.fpuInit).vi54 = s.vi54 := rfl
@[simp] theorem State.fpuInit_vg72 (s : State) : (s.fpuInit).vg72 = s.vg72 := rfl
@[simp] theorem State.fpuInit_ru55 (s : State) : (s.fpuInit).ru55 = s.ru55 := rfl
@[simp] theorem State.fpuInit_rf55 (s : State) : (s.fpuInit).rf55 = s.rf55 := rfl
@[simp] theorem State.fpuInit_env (s : State) : (s.fpuInit).env = s.env := rfl
@[simp] theorem State.fpuInit_plat (s : State) : (s.fpuInit).plat = s.plat := rfl
@[simp] theorem State.fpuInit_free (s : State) : (s.fpuInit).free = s.free + 8 := rfl

/-! ### endGrant -/

@[simp] theorem State.endGrant_cpu (s : State) : (s.endGrant).cpu = s.cpu := rfl
@[simp] theorem State.endGrant_fpu (s : State) : (s.endGrant).fpu = s.fpu := rfl
@[simp] theorem State.endGrant_run (s : State) : (s.endGrant).run = s.run := rfl
@[simp] theorem State.endGrant_iop (s : State) : (s.endGrant).iop = s.iop := rfl
@[simp] theorem State.endGrant_mem (s : State) : (s.endGrant).mem = s.mem := rfl
@[simp] theorem State.endGrant_iomem (s : State) : (s.endGrant).iomem = s.iomem := rfl
@[simp] theorem State.endGrant_remote (s : State) : (s.endGrant).remote = s.remote := rfl
@[simp] theorem State.endGrant_vt37 (s : State) : (s.endGrant).vt37 = s.vt37.endGrant := rfl
@[simp] theorem State.endGrant_cascaded (s : State) : (s.endGrant).cascaded = s.cascaded.map Vt37.endGrant := rfl
@[simp] theorem State.endGrant_vi54 (s : State) : (s.endGrant).vi54 = s.vi54 := rfl
@[simp] theorem State.endGrant_vg72 (s : State) : (s.endGrant).vg72 = s.vg72 := rfl
@[simp] theorem State.endGrant_ru55 (s : State) : (s.endGrant).ru55 = s.ru55 := rfl
@[simp] theorem State.endGrant_rf55 (s : State) : (s.endGrant).rf55 = s.rf55 := rfl
@[simp] theorem State.endGrant_env (s : State) : (s.endGrant).env = s.env := rfl
@[simp] theorem State.endGrant_plat (s : State) : (s.endGrant).plat = s.plat := rfl
@[simp] theorem State.endGrant_free (s : State) : (s.endGrant).free = s.free := rfl

/-! ### settle -/

@[simp] theorem Vt37.settle_chosen (d : Vt37) : d.settle.chosen = d.resolve := rfl
@[simp] theorem Vt37.settle_ch (d : Vt37) : d.settle.ch = d.ch := rfl
@[simp] theorem Vt37.settle_cr (d : Vt37) : d.settle.cr = d.cr := rfl
@[simp] theorem Vt37.settle_tc (d : Vt37) : d.settle.tc = d.tc := rfl
@[simp] theorem Vt37.settle_rr (d : Vt37) : d.settle.rr = d.rr := rfl
@[simp] theorem Vt37.settle_mask (d : Vt37) : d.settle.mask = d.mask := rfl
@[simp] theorem Vt37.settle_tr (d : Vt37) : d.settle.tr = d.tr := rfl
@[simp] theorem Vt37.settle_ff (d : Vt37) : d.settle.ff = d.ff := rfl
@[simp] theorem Vt37.settle_lastServed (d : Vt37) : d.settle.lastServed = d.lastServed := rfl
@[simp] theorem Vt37.settle_dreq (d : Vt37) : d.settle.dreq = d.dreq := rfl
@[simp] theorem Vt37.settle_dack (d : Vt37) : d.settle.dack = d.dack := rfl
@[simp] theorem Vt37.settle_dackZero (d : Vt37) : d.settle.dackZero = d.dackZero := rfl
@[simp] theorem Vt37.settle_eop (d : Vt37) : d.settle.eop = d.eop := rfl
@[simp] theorem Vt37.settle_given (d : Vt37) : d.settle.given = d.given := rfl
@[simp] theorem Vt37.settle_yield (d : Vt37) : d.settle.yield = d.yield := rfl

/-! ### settleDma -/

@[simp] theorem State.settleDma_cpu (s : State) : (s.settleDma).cpu = s.cpu := rfl
@[simp] theorem State.settleDma_fpu (s : State) : (s.settleDma).fpu = s.fpu := rfl
@[simp] theorem State.settleDma_run (s : State) : (s.settleDma).run = s.run := rfl
@[simp] theorem State.settleDma_iop (s : State) : (s.settleDma).iop = s.iop := rfl
@[simp] theorem State.settleDma_mem (s : State) : (s.settleDma).mem = s.mem := rfl
@[simp] theorem State.settleDma_iomem (s : State) : (s.settleDma).iomem = s.iomem := rfl
@[simp] theorem State.settleDma_remote (s : State) : (s.settleDma).remote = s.remote := rfl
@[simp] theorem State.settleDma_vi54 (s : State) : (s.settleDma).vi54 = s.vi54 := rfl
@[simp] theorem State.settleDma_vg72 (s : State) : (s.settleDma).vg72 = s.vg72 := rfl
@[simp] theorem State.settleDma_ru55 (s : State) : (s.settleDma).ru55 = s.ru55 := rfl
@[simp] theorem State.settleDma_rf55 (s : State) : (s.settleDma).rf55 = s.rf55 := rfl
@[simp] theorem State.settleDma_env (s : State) : (s.settleDma).env = s.env := rfl
@[simp] theorem State.settleDma_plat (s : State) : (s.settleDma).plat = s.plat := rfl
@[simp] theorem State.settleDma_free (s : State) : (s.settleDma).free = s.free := rfl

/-! ### fpuLeave -/

@[simp] theorem State.fpuLeave_cpu (s : State) (c : Cpu) : (s.fpuLeave c).cpu = c := rfl
@[simp] theorem State.fpuLeave_fpu (s : State) (c : Cpu) : (s.fpuLeave c).fpu = s.fpu := rfl
@[simp] theorem State.fpuLeave_run (s : State) (c : Cpu) : (s.fpuLeave c).run = { s.run with feed := none } := rfl
@[simp] theorem State.fpuLeave_iop (s : State) (c : Cpu) : (s.fpuLeave c).iop = s.iop := rfl
@[simp] theorem State.fpuLeave_mem (s : State) (c : Cpu) : (s.fpuLeave c).mem = s.mem := rfl
@[simp] theorem State.fpuLeave_iomem (s : State) (c : Cpu) : (s.fpuLeave c).iomem = s.iomem := rfl
@[simp] theorem State.fpuLeave_remote (s : State) (c : Cpu) : (s.fpuLeave c).remote = s.remote := rfl
@[simp] theorem State.fpuLeave_vt37 (s : State) (c : Cpu) : (s.fpuLeave c).vt37 = s.vt37 := rfl
@[simp] theorem State.fpuLeave_cascaded (s : State) (c : Cpu) : (s.fpuLeave c).cascaded = s.cascaded := rfl
@[simp] theorem State.fpuLeave_vi54 (s : State) (c : Cpu) : (s.fpuLeave c).vi54 = s.vi54 := rfl
@[simp] theorem State.fpuLeave_vg72 (s : State) (c : Cpu) : (s.fpuLeave c).vg72 = s.vg72 := rfl
@[simp] theorem State.fpuLeave_ru55 (s : State) (c : Cpu) : (s.fpuLeave c).ru55 = s.ru55 := rfl
@[simp] theorem State.fpuLeave_rf55 (s : State) (c : Cpu) : (s.fpuLeave c).rf55 = s.rf55 := rfl
@[simp] theorem State.fpuLeave_env (s : State) (c : Cpu) : (s.fpuLeave c).env = s.env := rfl
@[simp] theorem State.fpuLeave_plat (s : State) (c : Cpu) : (s.fpuLeave c).plat = s.plat := rfl
@[simp] theorem State.fpuLeave_free (s : State) (c : Cpu) : (s.fpuLeave c).free = s.free := rfl

/-! ### leave -/

@[simp] theorem State.leave_cpu (s : State) (ip : Word) :
    (s.leave ip).cpu = { s.cpu with ip := ip, phase := .complete, lead := Leading.none, shadow := false } := rfl
@[simp] theorem State.leave_fpu (s : State) (ip : Word) : (s.leave ip).fpu = s.fpu := rfl
@[simp] theorem State.leave_run (s : State) (ip : Word) : (s.leave ip).run = s.run := rfl
@[simp] theorem State.leave_iop (s : State) (ip : Word) : (s.leave ip).iop = s.iop := rfl
@[simp] theorem State.leave_mem (s : State) (ip : Word) : (s.leave ip).mem = s.mem := rfl
@[simp] theorem State.leave_iomem (s : State) (ip : Word) : (s.leave ip).iomem = s.iomem := rfl
@[simp] theorem State.leave_remote (s : State) (ip : Word) : (s.leave ip).remote = s.remote := rfl
@[simp] theorem State.leave_vt37 (s : State) (ip : Word) : (s.leave ip).vt37 = s.vt37 := rfl
@[simp] theorem State.leave_cascaded (s : State) (ip : Word) : (s.leave ip).cascaded = s.cascaded := rfl
@[simp] theorem State.leave_vi54 (s : State) (ip : Word) : (s.leave ip).vi54 = s.vi54 := rfl
@[simp] theorem State.leave_vg72 (s : State) (ip : Word) : (s.leave ip).vg72 = s.vg72 := rfl
@[simp] theorem State.leave_ru55 (s : State) (ip : Word) : (s.leave ip).ru55 = s.ru55 := rfl
@[simp] theorem State.leave_rf55 (s : State) (ip : Word) : (s.leave ip).rf55 = s.rf55 := rfl
@[simp] theorem State.leave_env (s : State) (ip : Word) : (s.leave ip).env = s.env := rfl
@[simp] theorem State.leave_plat (s : State) (ip : Word) : (s.leave ip).plat = s.plat := rfl
@[simp] theorem State.leave_free (s : State) (ip : Word) : (s.leave ip).free = s.free := rfl

/-! ### setDmac -/

@[simp] theorem State.setDmac_cpu (s : State) (u : Nat) (d : Vt37) : (s.setDmac u d).cpu = s.cpu := by cases u <;> rfl
@[simp] theorem State.setDmac_fpu (s : State) (u : Nat) (d : Vt37) : (s.setDmac u d).fpu = s.fpu := by cases u <;> rfl
@[simp] theorem State.setDmac_run (s : State) (u : Nat) (d : Vt37) : (s.setDmac u d).run = s.run := by cases u <;> rfl
@[simp] theorem State.setDmac_iop (s : State) (u : Nat) (d : Vt37) : (s.setDmac u d).iop = s.iop := by cases u <;> rfl
@[simp] theorem State.setDmac_mem (s : State) (u : Nat) (d : Vt37) : (s.setDmac u d).mem = s.mem := by cases u <;> rfl
@[simp] theorem State.setDmac_iomem (s : State) (u : Nat) (d : Vt37) :
    (s.setDmac u d).iomem = s.iomem := by
  cases u <;> rfl
@[simp] theorem State.setDmac_remote (s : State) (u : Nat) (d : Vt37) :
    (s.setDmac u d).remote = s.remote := by
  cases u <;> rfl
@[simp] theorem State.setDmac_vt37 (s : State) (u : Nat) (d : Vt37) :
    (s.setDmac u d).vt37 = if u = 0 then d else s.vt37 := by
  cases u <;> rfl
@[simp] theorem State.setDmac_cascaded (s : State) (u : Nat) (d : Vt37) :
    (s.setDmac u d).cascaded = if u = 0 then s.cascaded else s.cascaded.set (u - 1) d := by
  cases u <;> rfl
@[simp] theorem State.setDmac_vi54 (s : State) (u : Nat) (d : Vt37) :
    (s.setDmac u d).vi54 = s.vi54 := by
  cases u <;> rfl
@[simp] theorem State.setDmac_vg72 (s : State) (u : Nat) (d : Vt37) :
    (s.setDmac u d).vg72 = s.vg72 := by
  cases u <;> rfl
@[simp] theorem State.setDmac_ru55 (s : State) (u : Nat) (d : Vt37) :
    (s.setDmac u d).ru55 = s.ru55 := by
  cases u <;> rfl
@[simp] theorem State.setDmac_rf55 (s : State) (u : Nat) (d : Vt37) :
    (s.setDmac u d).rf55 = s.rf55 := by
  cases u <;> rfl
@[simp] theorem State.setDmac_env (s : State) (u : Nat) (d : Vt37) : (s.setDmac u d).env = s.env := by cases u <;> rfl
@[simp] theorem State.setDmac_plat (s : State) (u : Nat) (d : Vt37) :
    (s.setDmac u d).plat = s.plat := by
  cases u <;> rfl
@[simp] theorem State.setDmac_free (s : State) (u : Nat) (d : Vt37) :
    (s.setDmac u d).free = s.free := by
  cases u <;> rfl

/-- A controller read after a write of it, where it is there; the others stay. -/
@[simp] theorem State.dmac_setDmac (s : State) (u v : Nat) (d : Vt37) (h : u ≤ s.cascaded.length) :
    (s.setDmac u d).dmac v = if v = u then d else s.dmac v := by
  cases u <;> cases v <;> simp [State.setDmac, State.dmac, List.getElem?_set]
  split <;> simp_all [Nat.lt_of_succ_le h, eq_comm]

@[simp] theorem State.takeBit_fst (s : State) : s.takeBit.1 = Config.freeBit s.free := rfl
@[simp] theorem State.takeBit_snd (s : State) : s.takeBit.2 = s.bump := rfl
@[simp] theorem State.takeByte_fst (s : State) : s.takeByte.1 = Config.freeByte s.free := rfl
@[simp] theorem State.takeByte_snd (s : State) : s.takeByte.2 = s.bump := rfl
@[simp] theorem State.takeWord_fst (s : State) : s.takeWord.1 = Config.freeWord s.free := rfl
@[simp] theorem State.takeWord_snd (s : State) : s.takeWord.2 = s.bump := rfl
@[simp] theorem State.takeNat_fst (s : State) : s.takeNat.1 = Config.freeNat s.free := rfl
@[simp] theorem State.takeNat_snd (s : State) : s.takeNat.2 = s.bump := rfl
@[simp] theorem State.takeExt_fst (s : State) : s.takeExt.1 = Config.freeExt s.free := rfl
@[simp] theorem State.takeExt_snd (s : State) : s.takeExt.2 = s.bump := rfl

/-! ### The CPU's registers -/

/-- A register read after a write of the same register (10_state.md R20). -/
@[simp] theorem Cpu.reg16_setReg16 (c : Cpu) (r q : GReg) (v : Word) :
    (c.setReg16 r v).reg16 q = if q = r then v else c.reg16 q := by
  cases r <;> cases q <;> rfl

@[simp] theorem Cpu.setReg_es (c : Cpu) (w : Width) (r : GReg) (v : Word) : (c.setReg w r v).es = c.es := by
  cases w <;> cases r <;> rfl
@[simp] theorem Cpu.setReg_cs (c : Cpu) (w : Width) (r : GReg) (v : Word) : (c.setReg w r v).cs = c.cs := by
  cases w <;> cases r <;> rfl
@[simp] theorem Cpu.setReg_ss (c : Cpu) (w : Width) (r : GReg) (v : Word) : (c.setReg w r v).ss = c.ss := by
  cases w <;> cases r <;> rfl
@[simp] theorem Cpu.setReg_ds (c : Cpu) (w : Width) (r : GReg) (v : Word) : (c.setReg w r v).ds = c.ds := by
  cases w <;> cases r <;> rfl
@[simp] theorem Cpu.setReg_ip (c : Cpu) (w : Width) (r : GReg) (v : Word) : (c.setReg w r v).ip = c.ip := by
  cases w <;> cases r <;> rfl
@[simp] theorem Cpu.setReg_f (c : Cpu) (w : Width) (r : GReg) (v : Word) : (c.setReg w r v).f = c.f := by
  cases w <;> cases r <;> rfl
@[simp] theorem Cpu.setReg_nmiPending (c : Cpu) (w : Width) (r : GReg) (v : Word) : (c.setReg w r v).nmiPending = c.nmiPending := by
  cases w <;> cases r <;> rfl
@[simp] theorem Cpu.setReg_inhibit (c : Cpu) (w : Width) (r : GReg) (v : Word) : (c.setReg w r v).inhibit = c.inhibit := by
  cases w <;> cases r <;> rfl
@[simp] theorem Cpu.setReg_shadow (c : Cpu) (w : Width) (r : GReg) (v : Word) : (c.setReg w r v).shadow = c.shadow := by
  cases w <;> cases r <;> rfl
@[simp] theorem Cpu.setReg_stepPending (c : Cpu) (w : Width) (r : GReg) (v : Word) : (c.setReg w r v).stepPending = c.stepPending := by
  cases w <;> cases r <;> rfl
@[simp] theorem Cpu.setReg_lead (c : Cpu) (w : Width) (r : GReg) (v : Word) : (c.setReg w r v).lead = c.lead := by
  cases w <;> cases r <;> rfl
@[simp] theorem Cpu.setReg_phase (c : Cpu) (w : Width) (r : GReg) (v : Word) : (c.setReg w r v).phase = c.phase := by
  cases w <;> cases r <;> rfl
@[simp] theorem Cpu.setReg_halted (c : Cpu) (w : Width) (r : GReg) (v : Word) : (c.setReg w r v).halted = c.halted := by
  cases w <;> cases r <;> rfl
@[simp] theorem Cpu.setReg_stale (c : Cpu) (w : Width) (r : GReg) (v : Word) : (c.setReg w r v).stale = c.stale := by
  cases w <;> cases r <;> rfl
@[simp] theorem Cpu.setReg_ahead (c : Cpu) (w : Width) (r : GReg) (v : Word) : (c.setReg w r v).ahead = c.ahead := by
  cases w <;> cases r <;> rfl
@[simp] theorem Cpu.setReg_instrAddr (c : Cpu) (w : Width) (r : GReg) (v : Word) : (c.setReg w r v).instrAddr = c.instrAddr := by
  cases w <;> cases r <;> rfl
@[simp] theorem Cpu.setSreg_ax (c : Cpu) (r : SReg) (v : Word) : (c.setSreg r v).ax = c.ax := by
  cases r <;> rfl
@[simp] theorem Cpu.setSreg_cx (c : Cpu) (r : SReg) (v : Word) : (c.setSreg r v).cx = c.cx := by
  cases r <;> rfl
@[simp] theorem Cpu.setSreg_dx (c : Cpu) (r : SReg) (v : Word) : (c.setSreg r v).dx = c.dx := by
  cases r <;> rfl
@[simp] theorem Cpu.setSreg_bx (c : Cpu) (r : SReg) (v : Word) : (c.setSreg r v).bx = c.bx := by
  cases r <;> rfl
@[simp] theorem Cpu.setSreg_sp (c : Cpu) (r : SReg) (v : Word) : (c.setSreg r v).sp = c.sp := by
  cases r <;> rfl
@[simp] theorem Cpu.setSreg_bp (c : Cpu) (r : SReg) (v : Word) : (c.setSreg r v).bp = c.bp := by
  cases r <;> rfl
@[simp] theorem Cpu.setSreg_si (c : Cpu) (r : SReg) (v : Word) : (c.setSreg r v).si = c.si := by
  cases r <;> rfl
@[simp] theorem Cpu.setSreg_di (c : Cpu) (r : SReg) (v : Word) : (c.setSreg r v).di = c.di := by
  cases r <;> rfl
@[simp] theorem Cpu.setSreg_ip (c : Cpu) (r : SReg) (v : Word) : (c.setSreg r v).ip = c.ip := by
  cases r <;> rfl
@[simp] theorem Cpu.setSreg_f (c : Cpu) (r : SReg) (v : Word) : (c.setSreg r v).f = c.f := by
  cases r <;> rfl
@[simp] theorem Cpu.setSreg_nmiPending (c : Cpu) (r : SReg) (v : Word) : (c.setSreg r v).nmiPending = c.nmiPending := by
  cases r <;> rfl
@[simp] theorem Cpu.setSreg_inhibit (c : Cpu) (r : SReg) (v : Word) : (c.setSreg r v).inhibit = c.inhibit := by
  cases r <;> rfl
@[simp] theorem Cpu.setSreg_shadow (c : Cpu) (r : SReg) (v : Word) : (c.setSreg r v).shadow = c.shadow := by
  cases r <;> rfl
@[simp] theorem Cpu.setSreg_stepPending (c : Cpu) (r : SReg) (v : Word) : (c.setSreg r v).stepPending = c.stepPending := by
  cases r <;> rfl
@[simp] theorem Cpu.setSreg_lead (c : Cpu) (r : SReg) (v : Word) : (c.setSreg r v).lead = c.lead := by
  cases r <;> rfl
@[simp] theorem Cpu.setSreg_phase (c : Cpu) (r : SReg) (v : Word) : (c.setSreg r v).phase = c.phase := by
  cases r <;> rfl
@[simp] theorem Cpu.setSreg_halted (c : Cpu) (r : SReg) (v : Word) : (c.setSreg r v).halted = c.halted := by
  cases r <;> rfl
@[simp] theorem Cpu.setSreg_stale (c : Cpu) (r : SReg) (v : Word) : (c.setSreg r v).stale = c.stale := by
  cases r <;> rfl
@[simp] theorem Cpu.setSreg_ahead (c : Cpu) (r : SReg) (v : Word) : (c.setSreg r v).ahead = c.ahead := by
  cases r <;> rfl
@[simp] theorem Cpu.setSreg_instrAddr (c : Cpu) (r : SReg) (v : Word) : (c.setSreg r v).instrAddr = c.instrAddr := by
  cases r <;> rfl

end Sys2Proof.Machine
end

