-- ==== Sys2Proof/Laws/Bus.lean ====
section
/-! SUPPORT. What one bus cycle, a word access, a stack access or a port access can do: each lemma says it once, and the
proofs about instructions cite it instead of unfolding the operation. -/

namespace Sys2Proof.Machine

/-! ### Relations between the states before and after -/

theorem State.SameDevices.refl (s : State) : s.SameDevices s := ⟨rfl, rfl, rfl, rfl, rfl, rfl⟩

theorem State.SameDevices.trans {s t u : State} (h : s.SameDevices t) (g : t.SameDevices u) : s.SameDevices u := by
  obtain ⟨h1, h2, h3, h4, h5, h6⟩ := h
  obtain ⟨g1, g2, g3, g4, g5, g6⟩ := g
  exact ⟨g1.trans h1, g2.trans h2, g3.trans h3, g4.trans h4, g5.trans h5, g6.trans h6⟩

theorem State.SameBeyondBus.refl (s : State) : s.SameBeyondBus s :=
  ⟨⟨rfl, rfl⟩, rfl, ⟨rfl, rfl⟩, rfl, rfl, fun _ => .refl s⟩

theorem State.NoDevices.congr {s t : State} (h : t.plat = s.plat) (n : s.NoDevices) : t.NoDevices := by
  unfold State.NoDevices at *; rw [h]; exact n

theorem State.SameBeyondBus.trans {s t u : State} (h : s.SameBeyondBus t) (g : t.SameBeyondBus u) :
    s.SameBeyondBus u := by
  obtain ⟨a1, a2, a3, a4, a5, a6⟩ := h
  obtain ⟨b1, b2, b3, b4, b5, b6⟩ := g
  exact ⟨⟨b1.1.trans a1.1, b1.2.trans a1.2⟩, b2.trans a2, ⟨b3.1.trans a3.1, b3.2.trans a3.2⟩, b4.trans a4,
    b5.trans a5, fun n => (a6 n).trans (b6 (n.congr a5))⟩

/-- A read of the bus: the CPU and the memory are as before. -/
def State.Quiet (s t : State) : Prop := t.cpu = s.cpu ∧ t.mem = s.mem ∧ s.SameBeyondBus t

theorem State.Quiet.refl (s : State) : s.Quiet s := ⟨rfl, rfl, .refl s⟩

theorem State.Quiet.trans {s t u : State} (h : s.Quiet t) (g : t.Quiet u) : s.Quiet u :=
  ⟨g.1.trans h.1, g.2.1.trans h.2.1, h.2.2.trans g.2.2⟩

/-- Any access of the bus: the CPU is as before but for its queue. -/
def State.Busy (s t : State) : Prop := t.cpu.core = s.cpu.core ∧ s.SameBeyondBus t

theorem State.Busy.refl (s : State) : s.Busy s := ⟨rfl, .refl s⟩

theorem State.Busy.trans {s t u : State} (h : s.Busy t) (g : t.Busy u) : s.Busy u :=
  ⟨g.1.trans h.1, h.2.trans g.2⟩

theorem State.Quiet.busy {s t : State} (h : s.Quiet t) : s.Busy t := ⟨by rw [h.1], h.2.2⟩

theorem State.Quiet.bytes {s t : State} (h : s.Quiet t) : s.SameBytes t := fun a => by
  unfold State.byteAt; rw [h.2.1]

theorem State.isRam_congr {s t : State} (h : t.plat = s.plat) (a : Nat) : t.isRam a = s.isRam a := by
  unfold State.isRam; rw [h]

theorem State.isRom_congr {s t : State} (h : t.plat = s.plat) (a : Nat) : t.isRom a = s.isRom a := by
  unfold State.isRom; rw [h]

theorem State.isMemory_congr {s t : State} (h : t.plat = s.plat) (a : Nat) : t.isMemory a = s.isMemory a := by
  unfold State.isMemory; rw [State.isRam_congr h, State.isRom_congr h]

/-! ### The registers under `Cpu.core` -/

theorem Cpu.core_noteStore (c : Cpu) (n a : Nat) (b : Byte) : (c.noteStore n a b).core = c.core := by
  unfold Cpu.noteStore; split <;> rfl

theorem IopChan.core_noteStore (c : IopChan) (io : Bool) (a : Nat) (b : Byte) : (c.noteStore io a b).core = c.core := by
  unfold IopChan.noteStore; split <;> split <;> rfl

theorem Iop.core_noteStore (p : Iop) (io : Bool) (a : Nat) (b : Byte) : (p.noteStore io a b).core = p.core := by
  unfold Iop.noteStore Iop.core; simp [IopChan.core_noteStore]

theorem Iop.core_attention (p : Iop) (sel : Bool) : (p.attention sel).core = p.core := by
  unfold Iop.attention
  split
  · cases sel <;> rfl
  · split <;> rfl

theorem Cpu.core_eq {c d : Cpu} (h : c.core = d.core) : c = { d with stale := c.stale, ahead := c.ahead } := by
  obtain ⟨_⟩ := c; obtain ⟨_⟩ := d; simp [Cpu.core] at h ⊢; simp [h]

/-! ### Cycles delivered to devices -/

/-- What a cycle delivered to a device leaves: the CPU, the memories, the VM87, the VM89's registers, the environment and
the platform. -/
def State.Delivered (s t : State) : Prop :=
  t.cpu = s.cpu ∧ t.mem = s.mem ∧ s.SameFpu t ∧ t.iop.core = s.iop.core ∧ s.SameIo t ∧ t.env = s.env ∧ t.plat = s.plat

theorem State.Delivered.quiet {s t : State} (h : s.Delivered t) (n : ¬s.NoDevices) : s.Quiet t :=
  ⟨h.1, h.2.1, h.2.2.1, h.2.2.2.1, h.2.2.2.2.1, h.2.2.2.2.2.1, h.2.2.2.2.2.2, fun d => absurd d n⟩

/-- A register read. -/
theorem State.devRead_spec (s : State) (d : Dev) (r : Nat) : s.Delivered (s.devRead d r).2 := by
  cases d <;> simp [State.Delivered, State.SameFpu, State.SameIo, State.devRead, Iop.core_attention]

/-- A register write. -/
theorem State.devWrite_spec (s : State) (d : Dev) (r : Nat) (v : Byte) : s.Delivered (s.devWrite d r v) := by
  cases d <;> simp [State.Delivered, State.SameFpu, State.SameIo, State.devWrite, Iop.core_attention]

/-! ### One byte -/

theorem State.bump_quiet (s : State) : s.Quiet s.bump :=
  ⟨rfl, rfl, ⟨rfl, rfl⟩, rfl, ⟨rfl, rfl⟩, rfl, rfl, fun _ => ⟨rfl, rfl, rfl, rfl, rfl, rfl⟩⟩

theorem State.read8_quiet (s : State) (a : Nat) : s.Quiet (s.read8 a).2 := by
  unfold State.read8
  split
  · exact .refl s
  · exact .refl s
  · exact s.bump_quiet
  · rename_i d k off h
    exact (s.devRead_spec d (off / 2 ^ k)).quiet fun n => n.1 a d k (by rw [h])

/-- Where a memory answers, a read gives the byte that stands there and changes nothing (20_memory.md R103). -/
theorem State.read8_memory (s : State) {a : Nat} (h : s.isMemory a = true) : s.read8 a = (s.byteAt a, s) := by
  unfold State.read8 State.byteAt
  simp only [State.isMemory, State.isRam, State.isRom, Bool.or_eq_true, beq_iff_eq] at h
  split
  · rfl
  · rfl
  · rename_i k e; rw [e] at h; simp at h
  · rename_i d k off e; rw [e] at h; simp at h

theorem State.store8_spec (s : State) (a : Nat) (v : Byte) :
    s.Busy (s.store8 a v) ∧ (s.store8 a v).mem = s.mem.put a v :=
  ⟨⟨by simp [Cpu.core_noteStore], ⟨rfl, rfl⟩, by simp [Iop.core_noteStore], ⟨rfl, rfl⟩, rfl, rfl,
    fun _ => ⟨rfl, rfl, rfl, rfl, rfl, rfl⟩⟩, rfl⟩

/-- A byte write: RAM takes it, anything else leaves every byte of memory (20_memory.md R104, R119). -/
theorem State.write8_spec (s : State) (a : Nat) (v : Byte) :
    s.Busy (s.write8 a v) ∧ (s.write8 a v).mem = if s.isRam a = true then s.mem.put a v else s.mem := by
  unfold State.write8 State.isRam
  split
  · rename_i e; rw [e]; simpa using s.store8_spec a v
  · rename_i e; rw [e]; exact ⟨.refl s, by simp⟩
  · rename_i e; rw [e]; exact ⟨.refl s, by simp⟩
  · rename_i d k off e; rw [e]
    have h := s.devWrite_spec d (off / 2 ^ k) v
    exact ⟨(h.quiet fun n => n.1 a d k (by rw [e])).busy, by simpa using h.2.1⟩

/-! ### Words -/

theorem State.read16p_quiet (s : State) (lo hi : Nat) : s.Quiet (s.read16p lo hi).2 := by
  refine (s.read8_quiet lo).trans ?_
  unfold State.read16p
  dsimp only
  split
  · exact State.bump_quiet _
  · exact State.read8_quiet _ hi

/-- Only the CA decoder makes one cycle of a word do one thing (10_state.md R83). -/
theorem State.oneCa_kind {s : State} {dflt : RegionKind} {map : List Region} {lo hi : Nat}
    (h : s.oneCa dflt map lo hi = true) :
    isCa (findRegion dflt lo map).1 = true ∧ isCa (findRegion dflt hi map).1 = true := by
  simp only [State.oneCa, Bool.and_eq_true] at h
  exact ⟨h.1.2, h.2⟩

theorem State.oneCa_memory {s : State} {lo : Nat} (hi : Nat) (h : s.isMemory lo = true) :
    s.oneCa .ram s.plat.memoryMap lo hi = false := by
  refine Bool.eq_false_iff.mpr fun e => ?_
  have k := (State.oneCa_kind e).1
  simp only [State.isMemory, State.isRam, State.isRom, Bool.or_eq_true, beq_iff_eq] at h
  rcases h with h | h <;> rw [h] at k <;> exact absurd k (by decide)

theorem State.read16p_memory (s : State) {lo hi : Nat} (h : s.isMemory lo = true) (g : s.isMemory hi = true) :
    s.read16p lo hi = (wordOf (s.byteAt lo) (s.byteAt hi), s) := by
  simp [State.read16p, s.read8_memory h, s.read8_memory g, State.oneCa_memory hi h]

theorem State.read16_quiet (s : State) (seg off : Word) : s.Quiet (s.read16 seg off).2 := s.read16p_quiet _ _

theorem State.readMem_quiet (s : State) (w : Width) (seg off : Word) : s.Quiet (s.readMem w seg off).2 := by
  cases w
  · exact s.read8_quiet _
  · exact s.read16_quiet _ _

theorem State.readOp_quiet (s : State) (w : Width) (m : MemOp) : s.Quiet (s.readOp w m).2 := s.readMem_quiet _ _ _

theorem State.readRm_quiet (s : State) (w : Width) (rm : RM) : s.Quiet (s.readRm w rm).2 := by
  cases rm
  · exact .refl s
  · exact s.readOp_quiet _ _

theorem State.readFar_quiet (s : State) (m : MemOp) : s.Quiet (s.readFar m).2 :=
  (s.read16_quiet _ _).trans (State.read16_quiet _ _ _)

theorem State.pop16_spec (s : State) :
    (s.pop16).2.cpu = { s.cpu with sp := s.cpu.sp + 2#16 } ∧ (s.pop16).2.mem = s.mem ∧ s.SameBeyondBus (s.pop16).2 := by
  have h := s.read16_quiet s.cpu.ss s.cpu.sp
  unfold State.pop16
  exact ⟨by simp [h.1], h.2.1, h.2.2⟩

/-! ### Ports -/

@[simp] theorem State.portPlace_indirect (s : State) (p : Word) :
    s.portPlace false p = findRegion .absent p.toNat s.plat.ioMap := rfl

/-- What answers a port cycle is absent, what the map has at the port, or what it has at the address with the copy, and
then the RU55. -/
theorem State.portPlace_cases (s : State) (direct : Bool) (p : Word) :
    (s.portPlace direct p).1 = .absent ∨ s.portPlace direct p = findRegion .absent p.toNat s.plat.ioMap ∨
      s.portPlace direct p = findRegion .absent (copiedPort p).toNat s.plat.ioMap ∧ isRu55 (s.portPlace direct p).1 = true := by
  unfold State.portPlace
  dsimp only
  split
  · split
    · rename_i h; exact .inr (.inr ⟨rfl, h⟩)
    · split
      · exact .inl rfl
      · exact .inr (.inl rfl)
  · exact .inr (.inl rfl)

/-- Memory answers a port cycle at the port alone. -/
theorem State.portPlace_ram {s : State} {direct : Bool} {p : Word} (h : (s.portPlace direct p).1 = .ram) :
    (findRegion .absent p.toNat s.plat.ioMap).1 = .ram := by
  obtain c | c | ⟨-, c⟩ := s.portPlace_cases direct p
  · rw [c] at h; cases h
  · rw [← c, h]
  · rw [h] at c; cases c

theorem State.portPlace_noDevice {s : State} {direct : Bool} {p : Word} {d : Dev} {k off : Nat} (n : s.NoDevices) :
    s.portPlace direct p ≠ (.device d k, off) := by
  intro h
  obtain c | c | ⟨c, -⟩ := s.portPlace_cases direct p
  · rw [h] at c; cases c
  · exact n.2.1 _ d k (by rw [← c, h])
  · exact n.2.1 _ d k (by rw [← c, h])

theorem State.in8_quiet (s : State) (k : Bool) (p : Word) : s.Quiet (s.in8 k p).2 := by
  unfold State.in8
  split
  · rename_i d j off h
    exact (s.devRead_spec d (off / 2 ^ j)).quiet fun n => absurd h (s.portPlace_noDevice n)
  · exact .refl s
  · exact .refl s
  · exact s.bump_quiet

/-- A write of the I/O space: everything but devices and that memory is as before. -/
def State.Ported (s t : State) : Prop := t.cpu = s.cpu ∧ t.mem = s.mem ∧ s.SameBeyondBus { t with iomem := s.iomem }

theorem State.Quiet.ported {s t : State} (h : s.Quiet t) : s.Ported t := by
  obtain ⟨a, b, c, d, e, f⟩ := h
  exact ⟨a, b, c, d, ⟨rfl, e.2⟩, f⟩

theorem State.Ported.trans {s t u : State} (h : s.Ported t) (g : t.Ported u) : s.Ported u := by
  obtain ⟨a1, a2, a3⟩ := h
  obtain ⟨b1, b2, b3⟩ := g
  refine ⟨b1.trans a1, b2.trans a2, a3.trans ?_⟩
  obtain ⟨c1, c2, c3, c4, c5, c6⟩ := b3
  exact ⟨c1, c2, ⟨rfl, c3.2⟩, c4, c5, fun n => c6 n⟩

/-- A byte written to a port: memory that stands there takes it. -/
theorem State.out8_spec (s : State) (k : Bool) (p : Word) (v : Byte) :
    s.Ported (s.out8 k p v) ∧ (s.out8 k p v).iomem =
      if (s.portPlace k p).1 = .ram then s.iomem.put p.toNat v else s.iomem := by
  unfold State.out8
  split
  · rename_i d j off h
    have q := (s.devWrite_spec d (off / 2 ^ j) v).quiet fun n => absurd h (s.portPlace_noDevice n)
    exact ⟨q.ported, by rw [q.2.2.2.2.1.1, h]; simp⟩
  · rename_i h
    refine ⟨⟨rfl, rfl, ⟨rfl, rfl⟩, ?_, ⟨rfl, rfl⟩, rfl, rfl, fun _ => ⟨rfl, rfl, rfl, rfl, rfl, rfl⟩⟩, by rw [h]; simp⟩
    simp only [State.ioStore8_iop]
    split <;> simp [Iop.core_noteStore]
  · rename_i h
    exact ⟨(State.Quiet.refl s).ported, by rw [h]; simp⟩
  · rename_i h
    exact ⟨(State.Quiet.refl s).ported, by rw [h]; simp⟩

theorem State.ioRead_quiet (s : State) (k : Bool) (w : Width) (p : Word) : s.Quiet (s.ioRead k w p).2 := by
  cases w
  · exact s.in8_quiet k p
  · refine (s.in8_quiet k p).trans ?_
    unfold State.ioRead
    dsimp only
    split
    · exact State.bump_quiet _
    · exact State.in8_quiet _ _ _

theorem State.out8_same (s : State) (k : Bool) (p : Word) (v : Byte) {x : Nat} (h : x ≠ p.toNat) :
    (s.out8 k p v).iomem.get x = s.iomem.get x := by
  rw [(s.out8_spec k p v).2]
  split
  · exact Memory.get_put_ne _ _ h
  · rfl

/-- A byte or word written to a port: the memory of the I/O space changes at that port, and the next of a word, alone. -/
theorem State.ioWrite_spec (s : State) (k : Bool) (w : Width) (p v : Word) :
    s.Ported (s.ioWrite k w p v) ∧
      ∀ x, ¬(x = p.toNat ∨ w = .word ∧ x = (p + 1#16).toNat) → (s.ioWrite k w p v).iomem.get x = s.iomem.get x := by
  cases w
  · exact ⟨(s.out8_spec k p _).1, fun x h => s.out8_same k p _ fun e => h (.inl e)⟩
  · have a := (s.out8_spec k p (lowByte v)).1
    unfold State.ioWrite
    dsimp only
    split
    · exact ⟨a, fun x h => s.out8_same k p _ fun e => h (.inl e)⟩
    · refine ⟨a.trans (State.out8_spec _ _ _ _).1, fun x h => ?_⟩
      rw [State.out8_same _ _ _ _ fun e => h (.inr ⟨rfl, e⟩), State.out8_same _ _ _ _ fun e => h (.inl e)]

/-! ### Stored bytes -/

theorem State.StoredAt.of_mem {s t : State} {a : Nat} {v : Byte}
    (h : t.mem = if s.isRam a = true then s.mem.put a v else s.mem) :
    s.StoredAt t 1 (fun _ => a) v.toNat := by
  unfold State.StoredAt State.byteAt
  rw [h]
  refine ⟨fun b hb => ?_, fun k hk hr => ?_, fun k _ hr => ?_⟩
  · have : b ≠ a := hb 0 (by norm_num)
    split
    · exact Memory.get_put_ne _ _ this
    · rfl
  · obtain rfl : k = 0 := by omega
    simp [hr]
  · simp [hr]

theorem lowByte_eq (v : Word) : lowByte v = BitVec.ofNat 8 v.toNat := by
  unfold lowByte; apply BitVec.eq_of_toNat_eq; simp

theorem highByte_eq (v : Word) : highByte v = BitVec.ofNat 8 (v.toNat / 256) := rfl

/-- A word written at two different addresses. -/
theorem State.write16p_spec (s : State) {lo hi : Nat} (v : Word) (hne : lo ≠ hi) :
    s.Busy (s.write16p lo hi v) ∧ s.StoredAt (s.write16p lo hi v) 2 (fun k => if k = 0 then lo else hi) v.toNat := by
  obtain ⟨b1, m1⟩ := s.write8_spec lo (lowByte v)
  by_cases ca : s.oneCa .ram s.plat.memoryMap lo hi = true
  · have e : s.write16p lo hi v = s.write8 lo (lowByte v) := by simp [State.write16p, ca]
    have off : ∀ x, isCa (findRegion .ram x s.plat.memoryMap).1 = true → s.isRam x = false := fun x h => by
      unfold State.isRam
      generalize (findRegion .ram x s.plat.memoryMap).1 = k at h
      cases k <;> simp_all [isCa]
    obtain ⟨r1, r2⟩ := State.oneCa_kind ca
    rw [off lo r1, if_neg (by simp)] at m1
    have no : ∀ k, s.isRam (if k = 0 then lo else hi) = false := fun k => by
      by_cases hk : k = 0
      · simp [hk, off lo r1]
      · simp [hk, off hi r2]
    have same : ∀ a, (s.write8 lo (lowByte v)).byteAt a = s.byteAt a := fun a => by unfold State.byteAt; rw [m1]
    rw [e]
    exact ⟨b1, fun a _ => same a, fun k _ h => absurd ((no k).symm.trans h) (by simp), fun k _ _ => same _⟩
  have e : s.write16p lo hi v = (s.write8 lo (lowByte v)).write8 hi (highByte v) := by simp [State.write16p, ca]
  rw [e]
  obtain ⟨b2, m2⟩ := (s.write8 lo (lowByte v)).write8_spec hi (highByte v)
  have hp : (s.write8 lo (lowByte v)).plat = s.plat := b1.2.2.2.2.2.1
  rw [State.isRam_congr hp, m1] at m2
  refine ⟨b1.trans b2, fun a ha => ?_, fun k hk hr => ?_, fun k hk hr => ?_⟩
  · have h0 := ha 0 (by norm_num)
    have h1 := ha 1 (by norm_num)
    simp only [if_pos] at h0
    simp only [if_neg (one_ne_zero)] at h1
    unfold State.byteAt
    rw [m2]
    split <;> split <;> simp [Memory.get_put, h0, h1]
  · unfold State.byteAt
    rw [m2]
    obtain rfl | rfl : k = 0 ∨ k = 1 := by omega
    · simp only [if_true] at hr ⊢
      rw [if_pos hr]
      split <;> simp [Memory.get_put, hne, lowByte_eq]
    · simp only [if_neg one_ne_zero] at hr ⊢
      rw [if_pos hr, Memory.get_put_same, highByte_eq, pow_one]
  · unfold State.byteAt
    rw [m2]
    obtain rfl | rfl : k = 0 ∨ k = 1 := by omega
    · simp only [if_true] at hr ⊢
      simp only [hr, Bool.false_eq_true, if_false]
      split
      · rw [Memory.get_put_ne _ _ hne]
      · rfl
    · simp only [if_neg one_ne_zero] at hr ⊢
      simp only [hr, Bool.false_eq_true, if_false]
      split
      · rw [Memory.get_put_ne _ _ (Ne.symm hne)]
      · rfl

theorem State.StoredAt.congr_addr {s t : State} {n : Nat} {f g : Nat → Nat} {v : Nat} (h : s.StoredAt t n f v)
    (e : ∀ k, k < n → f k = g k) : s.StoredAt t n g v := by
  obtain ⟨h1, h2, h3⟩ := h
  refine ⟨fun a ha => h1 a fun k hk => by rw [e k hk]; exact ha k hk, fun k hk hr => ?_, fun k hk hr => ?_⟩
  · rw [← e k hk] at hr ⊢; exact h2 k hk hr
  · rw [← e k hk] at hr ⊢; exact h3 k hk hr

theorem add_one_ne (off : Word) : off ≠ off + 1#16 := by
  intro h
  have := congrArg BitVec.toNat h
  simp [BitVec.toNat_add] at this
  have := off.isLt
  omega

/-- A byte or word written in a segment (20_memory.md R104): the bytes at the offset and, modulo 2^16, the next one. -/
theorem State.writeMem_spec (s : State) (w : Width) (seg off v : Word) :
    s.Busy (s.writeMem w seg off v) ∧
      s.StoredAt (s.writeMem w seg off v) (widthBytes w) (fun k => phys seg (off + BitVec.ofNat 16 k)) v.toNat := by
  cases w with
  | byte =>
    obtain ⟨b, m⟩ := s.write8_spec (phys seg off) (lowByte v)
    refine ⟨b, ?_⟩
    obtain ⟨h1, h2, h3⟩ := (State.StoredAt.of_mem m).congr_addr (g := fun k => phys seg (off + BitVec.ofNat 16 k))
      (fun k hk => by obtain rfl : k = 0 := by omega
                      simp)
    refine ⟨h1, fun k hk hr => ?_, h3⟩
    obtain rfl : k = 0 := by simpa [widthBytes] using hk
    refine (h2 0 hk hr).trans ?_
    rw [lowByte_eq]; apply BitVec.eq_of_toNat_eq; simp
  | word =>
    have hne : phys seg off ≠ phys seg (off + 1#16) := fun h => add_one_ne off (phys_inj h)
    obtain ⟨b, m⟩ := s.write16p_spec v hne
    refine ⟨b, m.congr_addr fun k hk => ?_⟩
    obtain rfl | rfl : k = 0 ∨ k = 1 := by have : k < 2 := hk; omega
    · simp
    · simp

theorem State.Quiet.stored {s t u : State} (h : s.Quiet t) {n : Nat} {f : Nat → Nat} {v : Nat} (g : t.StoredAt u n f v) :
    s.StoredAt u n f v := by
  have hp : t.plat = s.plat := h.2.2.2.2.2.2.1
  refine ⟨fun a ha => (g.1 a ha).trans (h.bytes a), fun k hk hr => ?_, fun k hk hr => ?_⟩
  · rw [← State.isRam_congr hp] at hr; exact g.2.1 k hk hr
  · rw [← State.isRam_congr hp] at hr; exact (g.2.2 k hk hr).trans (h.bytes _)

end Sys2Proof.Machine
end

