-- ==== Sys2Proof/Laws/Operands.lean ====
section
/-! SUPPORT. What reading an operand, a far pointer or the stack gives, and what delivering a result, pushing and entering
an interrupt do. -/

namespace Sys2Proof.Machine

/-! ### Bytes and words -/

@[simp] theorem lowByte_wordOf (l h : Byte) : lowByte (wordOf l h) = l := by
  apply BitVec.eq_of_toNat_eq
  have := l.isLt
  have := h.isLt
  simp [lowByte, wordOf]
  omega

@[simp] theorem highByte_wordOf (l h : Byte) : highByte (wordOf l h) = h := by
  apply BitVec.eq_of_toNat_eq
  have := l.isLt
  have := h.isLt
  simp [highByte, wordOf]
  omega

@[simp] theorem wordOf_bytes (v : Word) : wordOf (lowByte v) (highByte v) = v := by
  apply BitVec.eq_of_toNat_eq
  have := v.isLt
  simp [lowByte, highByte, wordOf]
  omega

theorem zext_lt (b : Byte) : (zext b).toNat < 256 := by
  have := b.isLt
  simp [zext, wordOf]
  omega

@[simp] theorem lowByte_zext (b : Byte) : lowByte (zext b) = b := lowByte_wordOf b 0#8

theorem reg_byte_lt (c : Cpu) (r : GReg) : (c.reg .byte r).toNat < 256 := zext_lt _

theorem bit_wordOf_low (l h : Byte) : bit (wordOf l h) 0 = bit l 0 ∧ bit (wordOf l h) 2 = bit l 2 ∧
    bit (wordOf l h) 4 = bit l 4 ∧ bit (wordOf l h) 6 = bit l 6 ∧ bit (wordOf l h) 7 = bit l 7 := by
  have := l.isLt
  have := h.isLt
  simp only [bit, wordOf, BitVec.getLsbD, BitVec.toNat_ofNat, Nat.testBit_eq_decide_div_mod_eq, decide_eq_decide]
  omega

theorem bit_wordOf_high (l h : Byte) : bit (wordOf l h) 8 = bit h 0 ∧ bit (wordOf l h) 9 = bit h 1 ∧
    bit (wordOf l h) 10 = bit h 2 ∧ bit (wordOf l h) 11 = bit h 3 := by
  have := l.isLt
  have := h.isLt
  simp only [bit, wordOf, BitVec.getLsbD, BitVec.toNat_ofNat, Nat.testBit_eq_decide_div_mod_eq, decide_eq_decide]
  omega

theorem bit_byteBits : ∀ b7 b6 b5 b4 b3 b2 b1 b0 : Bool,
    bit (byteBits b7 b6 b5 b4 b3 b2 b1 b0) 7 = b7 ∧ bit (byteBits b7 b6 b5 b4 b3 b2 b1 b0) 6 = b6 ∧
    bit (byteBits b7 b6 b5 b4 b3 b2 b1 b0) 4 = b4 ∧ bit (byteBits b7 b6 b5 b4 b3 b2 b1 b0) 3 = b3 ∧
    bit (byteBits b7 b6 b5 b4 b3 b2 b1 b0) 2 = b2 ∧ bit (byteBits b7 b6 b5 b4 b3 b2 b1 b0) 1 = b1 ∧
    bit (byteBits b7 b6 b5 b4 b3 b2 b1 b0) 0 = b0 := by
  decide

/-- The nine flags stand in their places in the pushed word, whatever the other bits are (10_state.md R26, R27). -/
theorem Flags.ofWord_toWord (f : Flags) (u : Word) : Flags.ofWord (f.toWord u) = f := by
  obtain ⟨cf, pf, af, zf, sf, tf, ifl, df, ofl⟩ := f
  have h1 := bit_wordOf_low (byteBits sf zf (bit u 5) af (bit u 3) pf (bit u 1) cf)
    (byteBits (bit u 15) (bit u 14) (bit u 13) (bit u 12) ofl df ifl tf)
  have h2 := bit_wordOf_high (byteBits sf zf (bit u 5) af (bit u 3) pf (bit u 1) cf)
    (byteBits (bit u 15) (bit u 14) (bit u 13) (bit u 12) ofl df ifl tf)
  obtain ⟨a7, a6, a4, _, a2, _, a0⟩ := bit_byteBits sf zf (bit u 5) af (bit u 3) pf (bit u 1) cf
  obtain ⟨_, _, _, c3, c2, c1, c0⟩ := bit_byteBits (bit u 15) (bit u 14) (bit u 13) (bit u 12) ofl df ifl tf
  simp only [Flags.ofWord, Flags.toWord, h1, h2, a7, a6, a4, a2, a0, c3, c2, c1, c0]

/-! ### Reading -/

theorem State.read8_value (s : State) (a : Nat) :
    s.BytesAre .byte (fun _ => a) (zext (s.read8 a).1) :=
  ⟨zext_lt _, fun h => by rw [s.read8_memory h]⟩

theorem State.read16p_value (s : State) (addr : Nat → Nat) :
    s.BytesAre .word addr (s.read16p (addr 0) (addr 1)).1 := fun h g => by rw [s.read16p_memory h g]

/-- A byte or word read in a segment (20_memory.md R103). -/
theorem State.readMem_value (s : State) (w : Width) (seg off : Word) :
    s.BytesAre w (fun k => phys seg (off + BitVec.ofNat 16 k)) (s.readMem w seg off).1 := by
  cases w with
  | byte =>
    refine ⟨zext_lt _, fun h => ?_⟩
    have e : off + BitVec.ofNat 16 0 = off := by simp
    simp only [e] at h ⊢
    simp only [State.readMem, s.read8_memory h]
  | word =>
    intro h g
    have e : off + BitVec.ofNat 16 0 = off := by simp
    simp only [e] at h g ⊢
    exact congrArg Prod.fst (s.read16p_memory h g)

theorem State.readOp_value (s : State) (w : Width) (m : MemOp) : s.BytesAre w (s.cpu.memAddr m) (s.readOp w m).1 :=
  s.readMem_value w _ _

theorem State.readRm_value (s : State) (w : Width) (rm : RM) : s.OperandIs w rm (s.readRm w rm).1 := by
  cases rm
  · rfl
  · exact s.readOp_value w _

/-- Reading in a state that differs by reads alone. -/
theorem State.BytesAre.quiet {s t : State} (h : s.Quiet t) {w : Width} {f : Nat → Nat} {v : Word}
    (g : t.BytesAre w f v) : s.BytesAre w f v := by
  have hp : t.plat = s.plat := h.2.2.2.2.2.2.1
  cases w with
  | byte =>
    obtain ⟨g1, g2⟩ := g
    refine ⟨g1, fun m => ?_⟩
    rw [g2 (by rw [State.isMemory_congr hp]; exact m), h.bytes]
  | word =>
    intro m n
    rw [← State.isMemory_congr hp] at m n
    rw [g m n, h.bytes, h.bytes]

theorem State.BytesAre.congr {s : State} {w : Width} {f g : Nat → Nat} {v : Word} (h : s.BytesAre w f v)
    (e : ∀ k, f k = g k) : s.BytesAre w g v := by
  obtain rfl : f = g := funext e
  exact h

theorem State.readFar_value (s : State) (m : MemOp) : s.FarIs m (s.readFar m).1.1 (s.readFar m).1.2 := by
  refine ⟨s.readMem_value .word _ _, ?_⟩
  refine State.BytesAre.congr (State.BytesAre.quiet (s.read16_quiet _ _) (State.readMem_value _ .word _ _)) fun k => ?_
  unfold Cpu.memAddr
  congr 1
  rw [BitVec.add_assoc, BitVec.ofNat_add]

theorem State.pop16_value (s : State) : s.StackIs 0 (s.pop16).1 := by
  refine State.BytesAre.congr (s.readMem_value .word s.cpu.ss s.cpu.sp) fun k => ?_
  unfold stackAddr; simp

/-! ### Delivering -/

theorem Cpu.core_setReg {c d : Cpu} (h : c.core = d.core) (w : Width) (r : GReg) (v : Word) :
    (c.setReg w r v).core = (d.setReg w r v).core := by
  rw [Cpu.core_eq h]; cases w <;> cases r <;> rfl

/-- A result written to an operand, from a state that differs by reads and by flags. -/
theorem State.writeRm_spec {s t : State} {f : Flags} (hc : t.cpu = { s.cpu with f := f }) (hm : t.mem = s.mem)
    (hb : s.SameBeyondBus t) (w : Width) (rm : RM) (v : Word) : s.Delivers (t.writeRm s.cpu w rm v) w rm v f := by
  cases rm with
  | reg r =>
    refine ⟨?_, fun a => ?_, hb⟩
    · simp only [State.writeRm, State.setReg_cpu, hc]; cases w <;> cases r <;> rfl
    · simp only [State.writeRm, State.byteAt, State.setReg_mem, hm]
  | mem m =>
    obtain ⟨b, st⟩ := t.writeMem_spec w (s.cpu.memSeg m) (s.cpu.ea m) v
    have hp : t.plat = s.plat := hb.2.2.2.2.1
    refine ⟨?_, ?_, hb.trans b.2⟩
    · exact b.1.trans (by rw [hc])
    · refine ⟨fun a ha => ?_, fun k hk hr => ?_, fun k hk hr => ?_⟩
      · exact (st.1 a ha).trans (by unfold State.byteAt; rw [hm])
      · exact st.2.1 k hk (by rw [State.isRam_congr hp]; exact hr)
      · exact (st.2.2 k hk (by rw [State.isRam_congr hp]; exact hr)).trans (by unfold State.byteAt; rw [hm]; rfl)

theorem State.Quiet.setReg {s t : State} (h : s.Quiet t) {f : Flags} (w : Width) (r : GReg) (v : Word)
    (hf : f = s.cpu.f) : s.Delivers (t.setReg w r v) w (.reg r) v f := by
  subst hf
  refine ⟨?_, fun a => ?_, h.2.2⟩
  · rw [State.setReg_cpu, h.1]; cases w <;> cases r <;> rfl
  · simp only [State.byteAt, State.setReg_mem, h.2.1]

/-- A word pushed (20_memory.md R108). -/
theorem State.push16_spec (s : State) (v : Word) :
    s.Stores (s.push16 v) { s.cpu with sp := s.cpu.sp - 2#16 } 2 (stackAddr s.cpu.ss (s.cpu.sp - 2#16)) v.toNat := by
  obtain ⟨b, st⟩ := State.writeMem_spec { s with cpu := { s.cpu with sp := s.cpu.sp - 2#16 } } .word s.cpu.ss
    (s.cpu.sp - 2#16) v
  exact ⟨b.1, st, b.2⟩

theorem State.push16_busy (s : State) (v : Word) : (s.push16 v).plat = s.plat := (s.push16_spec v).2.2.2.2.2.2.1

end Sys2Proof.Machine
end

