-- ==== Sys2Proof/Laws/Canonical.lean ====
section
/-! SUPPORT. Every memory operation keeps the memories in canonical form: the one byte cycle of each space, and what is
built of it. -/

namespace Sys2Proof.Machine

theorem State.reset_memoryWf : State.reset.MemoryWf := ⟨rfl, rfl, rfl, rfl⟩

theorem State.MemoryWf.congr {s t : State} (h : s.MemoryWf) (hm : t.mem = s.mem) (hi : s.SameIo t)
    (hr : t.ru55.ram = s.ru55.ram) : t.MemoryWf := by
  unfold State.MemoryWf; rw [hm, hi.1, hi.2, hr]; exact h

theorem State.MemoryWf.stored {s t : State} {a : Nat} {v : Byte} (h : s.MemoryWf) (ha : a < 2 ^ 20)
    (hm : t.mem = s.mem.put a v) (hi : s.SameIo t) (hr : t.ru55.ram = s.ru55.ram) : t.MemoryWf := by
  unfold State.MemoryWf; rw [hm, hi.1, hi.2, hr]; exact ⟨Memory.wf_put v h.1 ha, h.2⟩

/-! ### One byte -/

theorem State.bump_wf {s : State} (h : s.MemoryWf) : s.bump.MemoryWf := h

theorem Ru55.read_ram (d : Ru55) (r : Nat) (f : Word) : (d.read r f).2.ram = d.ram := by
  unfold Ru55.read; split <;> rfl

theorem Ru55.timerCommand_ram (d : Ru55) (k : Nat) : (d.timerCommand k).ram = d.ram := by
  unfold Ru55.timerCommand; repeat' (first | rfl | split)

theorem Ru55.write_ram (d : Ru55) (r : Nat) (v : Byte) : (d.write r v).ram = d.ram := by
  unfold Ru55.write; repeat' (first | rfl | exact Ru55.timerCommand_ram _ _ | split)

theorem State.devRead_wf {s : State} (d : Dev) (r : Nat) (h : s.MemoryWf) : (s.devRead d r).2.MemoryWf := by
  obtain ⟨_, m, _, _, i, _⟩ := s.devRead_spec d r
  refine h.congr m i ?_
  cases d <;> simp [State.devRead, Ru55.read_ram]

theorem State.devWrite_wf {s : State} (d : Dev) (r : Nat) (v : Byte) (h : s.MemoryWf) : (s.devWrite d r v).MemoryWf := by
  obtain ⟨_, m, _, _, i, _⟩ := s.devWrite_spec d r v
  cases d
  case ru55Ram =>
    exact ⟨h.1, h.2.1, h.2.2.1, Memory.wfFrom_put v h.2.2.2 (Nat.zero_le _) (Nat.mod_lt _ (by norm_num))⟩
  all_goals exact h.congr m i (by simp [State.devWrite, Ru55.write_ram])

theorem State.store8_wf {s : State} {a : Nat} (v : Byte) (h : s.MemoryWf) (ha : a < 2 ^ 20) : (s.store8 a v).MemoryWf :=
  h.stored ha rfl ⟨rfl, rfl⟩ rfl

theorem State.ioStore8_wf {s : State} {a : Nat} (v : Byte) (h : s.MemoryWf) (ha : a < 2 ^ 16) : (s.ioStore8 a v).MemoryWf :=
  ⟨h.1, Memory.wf16_put v h.2.1 ha, h.2.2⟩

theorem State.remoteStore8_wf {s : State} {a : Nat} (v : Byte) (h : s.MemoryWf) (ha : a < 2 ^ 16) :
    (s.remoteStore8 a v).MemoryWf :=
  ⟨h.1, h.2.1, Memory.wf16_put v h.2.2.1 ha, h.2.2.2⟩

theorem State.read8_wf {s : State} (a : Nat) (h : s.MemoryWf) : (s.read8 a).2.MemoryWf := by
  unfold State.read8
  split
  · exact h
  · exact h
  · exact State.bump_wf h
  · exact State.devRead_wf _ _ h

theorem State.write8_wf {s : State} {a : Nat} (v : Byte) (h : s.MemoryWf) (ha : a < 2 ^ 20) : (s.write8 a v).MemoryWf := by
  unfold State.write8
  split
  · exact State.store8_wf v h ha
  · exact h
  · exact h
  · exact State.devWrite_wf _ _ v h

theorem State.in8_wf {s : State} (k : Bool) (p : Word) (h : s.MemoryWf) : (s.in8 k p).2.MemoryWf := by
  unfold State.in8
  split
  · exact State.devRead_wf _ _ h
  · exact h
  · exact h
  · exact State.bump_wf h

theorem State.out8_wf {s : State} (k : Bool) (p : Word) (v : Byte) (h : s.MemoryWf) : (s.out8 k p v).MemoryWf := by
  unfold State.out8
  split
  · exact State.devWrite_wf _ _ v h
  · exact State.ioStore8_wf v h p.isLt
  · exact h
  · exact h

/-! ### The CPU's accesses -/

theorem State.read16p_wf {s : State} (lo hi : Nat) (h : s.MemoryWf) : (s.read16p lo hi).2.MemoryWf := by
  unfold State.read16p
  dsimp only
  split
  · exact State.bump_wf (State.read8_wf lo h)
  · exact State.read8_wf hi (State.read8_wf lo h)

theorem State.write16p_wf {s : State} {lo hi : Nat} (v : Word) (h : s.MemoryWf) (hl : lo < 2 ^ 20) (hh : hi < 2 ^ 20) :
    (s.write16p lo hi v).MemoryWf := by
  unfold State.write16p
  dsimp only
  split
  · exact State.write8_wf _ h hl
  · exact State.write8_wf _ (State.write8_wf _ h hl) hh

theorem State.readMem_wf {s : State} (w : Width) (seg off : Word) (h : s.MemoryWf) : (s.readMem w seg off).2.MemoryWf := by
  cases w
  · exact State.read8_wf _ h
  · exact State.read16p_wf _ _ h

theorem State.readRm_wf {s : State} (w : Width) (rm : RM) (h : s.MemoryWf) : (s.readRm w rm).2.MemoryWf := by
  cases rm
  · exact h
  · exact State.readMem_wf _ _ _ h

theorem State.writeMem_wf {s : State} (w : Width) (seg off v : Word) (h : s.MemoryWf) :
    (s.writeMem w seg off v).MemoryWf := by
  cases w
  · exact State.write8_wf _ h (phys_lt _ _)
  · exact State.write16p_wf v h (phys_lt _ _) (phys_lt _ _)

theorem State.ioRead_wf {s : State} (k : Bool) (w : Width) (p : Word) (h : s.MemoryWf) : (s.ioRead k w p).2.MemoryWf := by
  cases w
  · exact State.in8_wf k p h
  · unfold State.ioRead
    dsimp only
    split
    · exact State.bump_wf (State.in8_wf k p h)
    · exact State.in8_wf _ _ (State.in8_wf k p h)

theorem State.ioWrite_wf {s : State} (k : Bool) (w : Width) (p v : Word) (h : s.MemoryWf) : (s.ioWrite k w p v).MemoryWf := by
  cases w
  · exact State.out8_wf k p _ h
  · unfold State.ioWrite
    dsimp only
    split
    · exact State.out8_wf k p _ h
    · exact State.out8_wf _ _ _ (State.out8_wf k p _ h)

theorem State.writeRm_wf {s : State} (c : Cpu) (w : Width) (rm : RM) (v : Word) (h : s.MemoryWf) :
    (s.writeRm c w rm v).MemoryWf := by
  cases rm
  · exact h
  · exact State.writeMem_wf w _ _ v h

theorem State.push16_wf {s : State} (v : Word) (h : s.MemoryWf) : (s.push16 v).MemoryWf :=
  State.write16p_wf (s := { s with cpu := { s.cpu with sp := s.cpu.sp - 2#16 } }) v h (phys_lt _ _) (phys_lt _ _)

theorem State.pop16_wf {s : State} (h : s.MemoryWf) : (s.pop16).2.MemoryWf := State.read16p_wf _ _ h

theorem State.pushFlags_wf {s : State} (h : s.MemoryWf) : s.pushFlags.MemoryWf :=
  State.push16_wf _ (State.bump_wf h)

theorem State.saveReturn_wf {s : State} (h : s.MemoryWf) : s.saveReturn.MemoryWf := by
  have h1 := State.pushFlags_wf h
  unfold State.saveReturn
  generalize s.pushFlags = t at h1
  exact State.push16_wf _ (State.push16_wf (s := t.setFlags _) _ h1)

theorem State.enterVector_wf {s : State} (n : Byte) (h : s.MemoryWf) : (s.enterVector n).MemoryWf := by
  unfold State.enterVector
  dsimp only
  exact State.read16p_wf _ _ (State.read16p_wf _ _ h)

theorem State.interrupt_wf {s : State} (n : Byte) (h : s.MemoryWf) : (s.interrupt n).MemoryWf :=
  State.enterVector_wf n (State.saveReturn_wf h)

theorem State.takeAll_wf {s : State} (h : s.MemoryWf) : s.takeAll.MemoryWf := by
  have h1 : s.takeNmi.MemoryWf := by
    unfold State.takeNmi
    split
    · exact State.interrupt_wf (s := { s with cpu := { s.cpu with nmiPending := false } }) _ h
    · exact h
  have h2 : s.takeNmi.takeIntr.MemoryWf := by
    unfold State.takeIntr
    split
    · split
      · exact State.interrupt_wf (s := s.takeNmi.acknowledge) _ h1
      · exact h1
    · exact h1
  unfold State.takeAll State.takeStep
  split
  · exact State.interrupt_wf (s := { s.takeNmi.takeIntr with cpu := { s.takeNmi.takeIntr.cpu with stepPending := false } })
      _ h2
  · exact h2

theorem State.boundary_wf {s : State} (h : s.MemoryWf) : s.boundary.MemoryWf := by
  unfold State.boundary
  split
  · exact h
  · dsimp only
    split
    · exact h
    · exact State.takeAll_wf (s := { s with cpu := { s.cpu with lead := Leading.none, shadow := s.cpu.inhibit } }) h
  · split
    · exact State.takeAll_wf (s := s.leave _) h
    · exact h
  · split
    · exact State.takeAll_wf (s := s.leave _) h
    · exact h

/-! ### The coprocessor's and the VM89's accesses -/

theorem State.fpuStoreBytes_wf {s : State} (a v n : Nat) (h : s.MemoryWf) : (s.fpuStoreBytes a v n).MemoryWf := by
  induction n generalizing s a v with
  | zero => exact h
  | succ n ih => exact ih _ _ (State.write8_wf _ h (Nat.mod_lt _ (by norm_num)))

theorem State.fpuWrite_wf {s : State} (a v n : Nat) (h : s.MemoryWf) : (s.fpuWrite a v n).MemoryWf := by
  unfold State.fpuWrite
  split
  · exact h
  · exact State.fpuStoreBytes_wf a v n h

theorem State.iopWrite8_wf {s : State} (io : Bool) (a : Nat) (v : Byte) (h : s.MemoryWf) :
    (s.iopWrite8 io a v).MemoryWf := by
  unfold State.iopWrite8
  split
  · exact State.write8_wf v h (Nat.mod_lt _ (by norm_num))
  · split
    · exact State.out8_wf _ _ v h
    · split
      · exact State.remoteStore8_wf v h (Nat.mod_lt _ (by norm_num))
      · exact h
      · exact h
      · exact State.devWrite_wf _ _ v h

theorem State.iopRead8_wf {s : State} (io : Bool) (a : Nat) (h : s.MemoryWf) : (s.iopRead8 io a).2.MemoryWf := by
  unfold State.iopRead8
  split
  · exact State.read8_wf _ h
  · split
    · exact State.in8_wf _ _ h
    · split
      · exact h
      · exact h
      · exact State.bump_wf h
      · exact State.devRead_wf _ _ h

theorem State.iopRead16_wf {s : State} (io : Bool) (a : Nat) (h : s.MemoryWf) : (s.iopRead16 io a).2.MemoryWf := by
  unfold State.iopRead16
  dsimp only
  split
  · exact State.bump_wf (State.iopRead8_wf io a h)
  · exact State.iopRead8_wf io (a + 1) (State.iopRead8_wf io a h)

theorem State.iopWrite16_wf {s : State} (io : Bool) (a : Nat) (v : Word) (h : s.MemoryWf) :
    (s.iopWrite16 io a v).MemoryWf := by
  unfold State.iopWrite16
  dsimp only
  split
  · exact State.iopWrite8_wf io _ _ h
  · exact State.iopWrite8_wf io _ _ (State.iopWrite8_wf io _ _ h)

theorem State.iopWriteW_wf {s : State} (w : Width) (io : Bool) (a : Nat) (v : Word) (h : s.MemoryWf) :
    (s.iopWriteW w io a v).MemoryWf := by
  cases w
  · exact State.iopWrite8_wf io _ _ h
  · exact State.iopWrite16_wf io _ _ h

theorem State.iopReadW_wf {s : State} (w : Width) (io : Bool) (a : Nat) (h : s.MemoryWf) :
    (s.iopReadW w io a).2.MemoryWf := by
  cases w
  · exact State.iopRead8_wf io _ h
  · exact State.iopRead16_wf io _ h

theorem State.iopSavePtr_wf {s : State} (io : Bool) (a : Nat) (p : Addr20) (tag : Bool) (h : s.MemoryWf) :
    (s.iopSavePtr io a p tag).MemoryWf :=
  State.iopWrite8_wf io _ _ (State.iopWrite16_wf io _ _ h)

theorem State.iopLoad_wf {s : State} (w : Width) (m : IMem) (h : s.MemoryWf) : (s.iopLoad w m).2.MemoryWf :=
  State.iopReadW_wf w _ _ h

theorem State.iopStore_wf {s : State} (w : Width) (m : IMem) (v : Word) (h : s.MemoryWf) : (s.iopStore w m v).MemoryWf :=
  State.iopWriteW_wf w _ _ v h

theorem State.iopModify_wf {s : State} (w : Width) (m : IMem) (g : Word → Word) (h : s.MemoryWf) :
    (s.iopModify w m g).MemoryWf :=
  State.iopWriteW_wf w _ _ _ (State.iopReadW_wf w _ _ h)

/-! ### A word placed for the next step -/

theorem State.placeCode_wf {s : State} (off : Word) (bs : List Byte) (h : s.MemoryWf) : (s.placeCode off bs).MemoryWf := by
  induction bs generalizing s off with
  | nil => exact h
  | cons b r ih => exact ih _ (h.stored (phys_lt _ _) rfl ⟨rfl, rfl⟩ rfl)

theorem State.placeAt_wf {s : State} (a : Nat) (bs : List Byte) (h : s.MemoryWf) : (s.placeAt a bs).MemoryWf := by
  induction bs generalizing s a with
  | nil => exact h
  | cons b r ih => exact ih _ (h.stored (Nat.mod_lt _ (by norm_num)) rfl ⟨rfl, rfl⟩ rfl)

theorem State.withFetchWord_wf {s : State} (nbits w : Nat) (h : s.MemoryWf) : (s.withFetchWord nbits w).MemoryWf := by
  unfold State.withFetchWord State.placeWord
  dsimp only
  split
  · exact State.placeAt_wf _ _ h
  · exact State.placeCode_wf _ _ h

end Sys2Proof.Machine
end

