-- ==== Sys2Proof/Laws/Iop.lean ====
section
/-! SUPPORT. What an access of the VM89 can do: a read changes nothing but devices, a write stores the bytes it names where
RAM answers; and what loading, storing and modifying a memory operand give. -/

namespace Sys2Proof.Machine

/-- What a bus cycle of the VM89 leaves: the CPU but for its queue, the VM87, the VM89's registers, the I/O space that it
does not reach, the environment and the platform; and every device, when no device answers anywhere. -/
def State.Calm (s t : State) : Prop :=
  t.cpu.core = s.cpu.core ∧ s.SameFpu t ∧ t.iop.core = s.iop.core ∧ t.farIo = s.farIo ∧ t.env = s.env ∧ t.plat = s.plat ∧
  (s.NoDevices → s.SameDevices t)

theorem State.Calm.refl (s : State) : s.Calm s :=
  ⟨rfl, ⟨rfl, rfl⟩, rfl, rfl, rfl, rfl, fun _ => .refl s⟩

theorem State.Calm.trans {s t u : State} (h : s.Calm t) (g : t.Calm u) : s.Calm u := by
  obtain ⟨a1, a2, a3, a4, a5, a6, a7⟩ := h
  obtain ⟨b1, b2, b3, b4, b5, b6, b7⟩ := g
  exact ⟨b1.trans a1, ⟨b2.1.trans a2.1, b2.2.trans a2.2⟩, b3.trans a3, b4.trans a4, b5.trans a5, b6.trans a6,
    fun n => (a7 n).trans (b7 (n.congr a6))⟩

/-- Memory cycles leave both I/O spaces. -/
theorem State.Busy.calm {s t : State} (h : s.Busy t) : s.Calm t := by
  obtain ⟨b1, b2, b3, b4, b5, b6, b7⟩ := h
  exact ⟨b1, b2, b3, by unfold State.farIo; rw [b4.1, b4.2, b6], b5, b6, b7⟩

theorem State.Quiet.calm {s t : State} (h : s.Quiet t) : s.Calm t := h.busy.calm

theorem State.SameIo.iopIo {s t : State} (h : s.SameIo t) (p : t.plat = s.plat) : t.iopIo = s.iopIo := by
  unfold State.iopIo; rw [h.1, h.2, p]

theorem State.Quiet.cells {s t : State} (h : s.Quiet t) : s.SameCells t := fun io x => by
  unfold State.cellByte; rw [h.2.1, h.2.2.2.2.1.iopIo h.2.2.2.2.2.2.1]

theorem State.cellKind_congr {s t : State} (h : t.plat = s.plat) (io : Bool) (x : Nat) : t.cellKind io x = s.cellKind io x := by
  unfold State.cellKind; rw [h]

/-! ### One byte -/

theorem State.iopRead8_quiet (s : State) (io : Bool) (a : Nat) : s.Quiet (s.iopRead8 io a).2 := by
  unfold State.iopRead8
  split
  · exact s.read8_quiet _
  · split
    · exact s.in8_quiet _ _
    · split
      · exact .refl s
      · exact .refl s
      · exact s.bump_quiet
      · rename_i d k off h
        exact (s.devRead_spec d (off / 2 ^ k)).quiet fun n => n.2.2 (a % 2 ^ 16) d k (by rw [h])

/-- Where a memory answers, a read gives the byte that stands there and changes nothing. -/
theorem State.iopRead8_memory (s : State) {io : Bool} {a : Nat} (h : s.cellMemory io (iopCell io a)) :
    s.iopRead8 io a = (s.cellByte io (iopCell io a), s) := by
  cases io
  · unfold State.iopRead8
    have e : iopCell false a = a % 2 ^ 20 := rfl
    rw [e] at h ⊢
    have m : s.isMemory (a % 2 ^ 20) = true := by
      simpa [State.isMemory, State.isRam, State.isRom, State.cellMemory, State.cellKind] using h
    simp only [Bool.not_false, if_true]
    rw [s.read8_memory m]; rfl
  · have e : iopCell true a = a % 2 ^ 16 := rfl
    rw [e] at h ⊢
    unfold State.cellMemory State.cellKind at h
    unfold State.iopRead8 State.cellByte
    by_cases r : s.plat.iopRemote = true
    · simp only [r, if_true] at h
      simp only [r, Bool.not_true, Bool.false_eq_true, if_false, if_true]
      have e2 : s.iopIo = s.remote := by simp [State.iopIo, r]
      rw [e2]
      generalize findRegion .ram (a % 2 ^ 16) s.plat.remoteMap = f at h ⊢
      obtain ⟨k, off⟩ := f
      cases k
      · rfl
      · rfl
      · exact absurd h (by simp)
      · exact absurd h (by simp)
    · have e2 : s.iopIo = s.iomem := by simp [State.iopIo, r]
      have e3 : (BitVec.ofNat 16 a).toNat = a % 2 ^ 16 := by simp
      rw [e2]
      simp only [r, Bool.false_eq_true, if_false] at h
      simp only [r, Bool.not_true, Bool.not_false, Bool.false_eq_true, if_false, if_true]
      unfold State.in8
      rw [State.portPlace_indirect, e3]
      generalize findRegion .absent (a % 2 ^ 16) s.plat.ioMap = f at h ⊢
      obtain ⟨k, off⟩ := f
      cases k
      · rfl
      · rfl
      · exact absurd h (by simp)
      · exact absurd h (by simp)

theorem State.CellsStored.of_none {s t : State} {io : Bool} {a v : Nat} (hr : s.cellKind io (iopCell io a) ≠ .ram)
    (h : s.SameCells t) : s.CellsStored t io 1 a v := by
  refine ⟨fun io' x _ => h io' x, fun k hk => ?_⟩
  obtain rfl : k = 0 := by omega
  rw [Nat.add_zero, if_neg hr]; exact h _ _

/-- A byte that RAM of the I/O space takes. -/
theorem State.CellsStored.of_io {s t : State} {a : Nat} {v : Byte} (hr : s.cellKind true (iopCell true a) = .ram)
    (hm : t.mem = s.mem) (hi : t.iopIo = s.iopIo.put (a % 2 ^ 16) v) : s.CellsStored t true 1 a v.toNat := by
  refine ⟨fun io' x hx => ?_, fun k hk => ?_⟩
  · unfold State.cellByte
    cases io'
    · simp [hm]
    · have := hx rfl 0 (by norm_num)
      simp only [if_true]
      rw [hi, Memory.get_put_ne _ _ (by simpa [iopCell] using this)]
  · obtain rfl : k = 0 := by omega
    rw [Nat.add_zero, if_pos hr]
    unfold State.cellByte
    simp [iopCell, hi]

/-- The same in system memory. -/
theorem State.CellsStored.of_mem {s t : State} {a : Nat} {v : Byte} (hr : s.cellKind false (iopCell false a) = .ram)
    (hm : t.mem = s.mem.put (a % 2 ^ 20) v) (hi : t.iopIo = s.iopIo) : s.CellsStored t false 1 a v.toNat := by
  refine ⟨fun io' x hx => ?_, fun k hk => ?_⟩
  · unfold State.cellByte
    cases io'
    · have := hx rfl 0 (by norm_num)
      simp only [Bool.false_eq_true, if_false]
      rw [hm, Memory.get_put_ne _ _ (by simpa [iopCell] using this)]
    · simp [hi]
  · obtain rfl : k = 0 := by omega
    rw [Nat.add_zero, if_pos hr]
    unfold State.cellByte
    simp [iopCell, hm]

theorem State.SameCells.of {s t : State} (hm : t.mem = s.mem) (hi : t.iopIo = s.iopIo) : s.SameCells t := fun io x => by
  unfold State.cellByte; rw [hm, hi]

theorem State.iopWrite8_spec (s : State) (io : Bool) (a : Nat) (v : Byte) :
    s.Calm (s.iopWrite8 io a v) ∧ s.CellsStored (s.iopWrite8 io a v) io 1 a v.toNat := by
  cases io
  · unfold State.iopWrite8
    simp only [Bool.not_false, if_true]
    obtain ⟨b, m⟩ := s.write8_spec (a % 2 ^ 20) v
    have hi : (s.write8 (a % 2 ^ 20) v).iopIo = s.iopIo := b.2.2.2.1.iopIo b.2.2.2.2.2.1
    refine ⟨b.calm, ?_⟩
    by_cases r : s.isRam (a % 2 ^ 20) = true
    · rw [if_pos r] at m
      exact .of_mem (by simpa [State.isRam, State.cellKind, iopCell] using r) m hi
    · rw [if_neg r] at m
      refine .of_none (fun hk => r ?_) (.of m hi)
      simpa [State.isRam, State.cellKind, iopCell] using hk
  · unfold State.iopWrite8
    simp only [Bool.not_true, Bool.false_eq_true, if_false]
    by_cases r : s.plat.iopRemote = true
    · simp only [r, Bool.not_true, Bool.false_eq_true, if_false]
      have kind : s.cellKind true (iopCell true a) = (findRegion .ram (a % 2 ^ 16) s.plat.remoteMap).1 := by
        simp [State.cellKind, iopCell, r]
      split
      · rename_i e
        rw [e] at kind
        refine ⟨⟨rfl, ⟨rfl, rfl⟩, by simp [Iop.core_noteStore], by simp [State.farIo, r], rfl, rfl,
          fun _ => ⟨rfl, rfl, rfl, rfl, rfl, rfl⟩⟩, .of_io kind rfl (by simp [State.iopIo, r])⟩
      · rename_i e
        rw [e] at kind
        exact ⟨.refl s, .of_none (by rw [kind]; simp) fun _ _ => rfl⟩
      · rename_i e
        rw [e] at kind
        exact ⟨.refl s, .of_none (by rw [kind]; simp) fun _ _ => rfl⟩
      · rename_i d k off e
        rw [e] at kind
        have q := (s.devWrite_spec d (off / 2 ^ k) v).quiet fun n => n.2.2 (a % 2 ^ 16) d k (by rw [e])
        exact ⟨q.calm, .of_none (by rw [kind]; simp) q.cells⟩
    · simp only [r, Bool.not_false, if_true]
      have e3 : (BitVec.ofNat 16 a).toNat = a % 2 ^ 16 := by simp
      obtain ⟨⟨p1, p2, p3⟩, m⟩ := s.out8_spec false (BitVec.ofNat 16 a) v
      obtain ⟨b1, b2, b3, b4, b5, b6⟩ := p3
      rw [State.portPlace_indirect, e3] at m
      have hp : (s.out8 false (BitVec.ofNat 16 a) v).plat = s.plat := b5
      have hi : (s.out8 false (BitVec.ofNat 16 a) v).iopIo = (s.out8 false (BitVec.ofNat 16 a) v).iomem := by
        simp [State.iopIo, hp, r]
      have hs : s.iopIo = s.iomem := by simp [State.iopIo, r]
      have kind : s.cellKind true (iopCell true a) = (findRegion .absent (a % 2 ^ 16) s.plat.ioMap).1 := by
        simp [State.cellKind, iopCell, r]
      refine ⟨⟨by rw [p1], b1, b2, ?_, b4, b5, b6⟩, ?_⟩
      · have := b3.2
        simpa [State.farIo, hp, r] using this
      · by_cases c : (findRegion .absent (a % 2 ^ 16) s.plat.ioMap).1 = .ram
        · rw [if_pos c] at m
          exact .of_io (kind.trans c) p2 (by rw [hi, m, hs])
        · rw [if_neg c] at m
          exact .of_none (by rw [kind]; exact c) (.of p2 (by rw [hi, m, hs]))

/-! ### Several bytes -/

theorem iopCell_ne {io : Bool} {a j k : Nat} (hj : j < 2 ^ 16) (hk : k < 2 ^ 16) (h : j ≠ k) :
    iopCell io (a + j) ≠ iopCell io (a + k) := by
  unfold iopCell
  split <;> omega

/-- Two stores one after the other at neighbouring addresses are one store of both values. -/
theorem State.CellsStored.append {s t u : State} {io : Bool} {m n a v w : Nat} (hp : t.plat = s.plat)
    (hmn : m + n ≤ 2 ^ 16) (hv : v < 256 ^ m) (h : s.CellsStored t io m a v) (g : t.CellsStored u io n (a + m) w) :
    s.CellsStored u io (m + n) a (v + 256 ^ m * w) := by
  refine ⟨fun io' x hx => ?_, fun k hk => ?_⟩
  · rw [g.1 io' x fun e k hk => ?_, h.1 io' x fun e k hk => hx e k (by omega)]
    have := hx e (m + k) (by omega)
    rwa [← Nat.add_assoc] at this
  · by_cases c : k < m
    · rw [g.1 io _ fun _ j hj => ?_, h.2 k c]
      · congr 1
        have e : 256 ^ m = 256 ^ k * (256 * 256 ^ (m - k - 1)) := by
          rw [← pow_succ', ← pow_add]; congr 1; omega
        apply BitVec.eq_of_toNat_eq
        simp only [BitVec.toNat_ofNat]
        rw [e, Nat.mul_assoc, Nat.add_mul_div_left _ _ (by positivity), Nat.mul_assoc]
        omega
      · rw [Nat.add_assoc]; exact iopCell_ne (by omega) (by omega) (by omega)
    · obtain ⟨j, rfl⟩ : ∃ j, k = m + j := ⟨k - m, by omega⟩
      have := g.2 j (by omega)
      rw [Nat.add_assoc] at this
      rw [this, State.cellKind_congr hp]
      have e : (v + 256 ^ m * w) / 256 ^ (m + j) = w / 256 ^ j := by
        rw [pow_add, ← Nat.div_div_eq_div_mul, Nat.add_mul_div_left _ _ (by positivity), Nat.div_eq_of_lt hv, Nat.zero_add]
      rw [e, h.1 io _ fun _ i hi => iopCell_ne (by omega) (by omega) (by omega)]

theorem State.iopRead16_quiet (s : State) (io : Bool) (a : Nat) : s.Quiet (s.iopRead16 io a).2 := by
  unfold State.iopRead16
  dsimp only
  split
  · exact (s.iopRead8_quiet io a).trans (State.bump_quiet _)
  · exact (s.iopRead8_quiet io a).trans (State.iopRead8_quiet _ io (a + 1))

/-- One CA of a word cycle stands for no byte of memory. -/
theorem State.iopOneCa_kind {s : State} {io : Bool} {a : Nat} (h : s.iopOneCa io a = true) :
    isCa (s.cellKind io (iopCell io a)) = true ∧ isCa (s.cellKind io (iopCell io (a + 1))) = true := by
  have e : ∀ x, s.iopRegion io x = s.cellKind io (iopCell io x) := fun x => by
    cases io <;> simp [State.iopRegion, State.cellKind, iopCell]
    cases s.plat.iopRemote <;> simp
  simp only [State.iopOneCa, Bool.and_eq_true, e] at h
  exact ⟨h.1.2, h.2⟩

/-- A word cycle on memory is no CA. -/
theorem State.iopOneCa_memory {s : State} {io : Bool} {a : Nat} (h : s.cellMemory io (iopCell io a)) :
    s.iopOneCa io a = false := by
  by_contra c
  have k := (State.iopOneCa_kind (Bool.eq_true_of_not_eq_false c)).1
  obtain e | e := h <;> rw [e] at k <;> cases k

theorem State.iopReadW_quiet (s : State) (w : Width) (io : Bool) (a : Nat) : s.Quiet (s.iopReadW w io a).2 := by
  cases w
  · exact s.iopRead8_quiet io a
  · exact s.iopRead16_quiet io a

theorem State.iopPointer_quiet (s : State) (io : Bool) (a : Nat) : s.Quiet (s.iopPointer io a).2 :=
  (s.iopRead16_quiet io a).trans (State.iopRead16_quiet _ io (a + 2))

theorem State.iopLoadPtr_quiet (s : State) (io : Bool) (a : Nat) : s.Quiet (s.iopLoadPtr io a).2 :=
  (s.iopRead16_quiet io a).trans (State.iopRead8_quiet _ io (a + 2))

theorem lowByte_sext (b : Byte) : lowByte (sext b) = b := by
  revert b; decide

theorem State.iopReadW_value (s : State) (w : Width) (io : Bool) (a : Nat) : s.CellsAre w io a (s.iopReadW w io a).1 := by
  cases w
  · refine ⟨by simp [State.iopReadW, lowByte_sext], fun h => ?_⟩
    simp only [State.iopReadW, s.iopRead8_memory h, lowByte_sext]
  · intro h g
    simp only [State.iopReadW, State.iopRead16, State.iopOneCa_memory h, s.iopRead8_memory h, s.iopRead8_memory g,
      Bool.false_eq_true, if_false]

theorem State.iopWrite16_spec (s : State) (io : Bool) (a : Nat) (v : Word) :
    s.Calm (s.iopWrite16 io a v) ∧ s.CellsStored (s.iopWrite16 io a v) io 2 a v.toNat := by
  obtain ⟨c1, m1⟩ := s.iopWrite8_spec io a (lowByte v)
  have e : (lowByte v).toNat + 256 ^ 1 * (highByte v).toNat = v.toNat := by
    have := v.isLt
    simp [lowByte, highByte]; omega
  rw [← e]
  have p := c1.2.2.2.2.2.1
  unfold State.iopWrite16
  dsimp only
  split
  · rename_i h
    refine ⟨c1, State.CellsStored.append (n := 1) p (by norm_num) (lowByte v).isLt m1 ⟨fun _ _ _ => rfl, fun k hk => ?_⟩⟩
    obtain rfl : k = 0 := by omega
    rw [if_neg fun c => ?_]
    have g := (State.iopOneCa_kind h).2
    rw [State.cellKind_congr p] at c
    rw [Nat.add_zero] at c
    rw [c] at g
    cases g
  · obtain ⟨c2, m2⟩ := (s.iopWrite8 io a (lowByte v)).iopWrite8_spec io (a + 1) (highByte v)
    exact ⟨c1.trans c2, State.CellsStored.append p (by norm_num) (lowByte v).isLt m1 m2⟩

theorem State.iopWriteW_spec (s : State) (w : Width) (io : Bool) (a : Nat) (v : Word) :
    s.Calm (s.iopWriteW w io a v) ∧ s.CellsStored (s.iopWriteW w io a v) io (widthBytes w) a v.toNat := by
  cases w
  · obtain ⟨c, m⟩ := s.iopWrite8_spec io a (lowByte v)
    refine ⟨c, m.1, fun k hk => ?_⟩
    have hk' : k < 1 := hk
    obtain rfl : k = 0 := by omega
    have := m.2 0 (by norm_num)
    simp only [pow_zero, Nat.div_one] at this ⊢
    have e : BitVec.ofNat 8 (lowByte v).toNat = BitVec.ofNat 8 v.toNat := by
      apply BitVec.eq_of_toNat_eq; simp [lowByte]
    rwa [e] at this
  · exact s.iopWrite16_spec io a v

theorem State.iopSavePtr_spec (s : State) (io : Bool) (a : Nat) (p : Addr20) (tag : Bool) :
    s.Calm (s.iopSavePtr io a p tag) ∧
    s.CellsStored (s.iopSavePtr io a p tag) io 3 a
      (p.toNat % 2 ^ 16 + 2 ^ 16 * (p.toNat / 2 ^ 16 * 16 + 8 * tag.toNat)) := by
  obtain ⟨c1, m1⟩ := s.iopWrite16_spec io a (p.truncate 16)
  obtain ⟨c2, m2⟩ := (s.iopWrite16 io a (p.truncate 16)).iopWrite8_spec io (a + 2)
    (BitVec.ofNat 8 (p.toNat / 2 ^ 16 * 16 + bitNat tag * 8))
  refine ⟨c1.trans c2, ?_⟩
  have := State.CellsStored.append c1.2.2.2.2.2.1 (by norm_num) (BitVec.isLt _) m1 m2
  have hp := p.isLt
  have e : (p.truncate 16).toNat + 256 ^ 2 * (BitVec.ofNat 8 (p.toNat / 2 ^ 16 * 16 + bitNat tag * 8)).toNat =
      p.toNat % 2 ^ 16 + 2 ^ 16 * (p.toNat / 2 ^ 16 * 16 + 8 * tag.toNat) := by
    cases tag <;> simp [bitNat] <;> omega
  rwa [e] at this

/-! ### The channel that runs -/

theorem Iop.core_setChan {p q : Iop} (h : p.core = q.core) (n : ChanNo) (c : IopChan) :
    (p.setChan n c).core = (q.setChan n c).core := by
  obtain ⟨p1, p2, _⟩ := p
  obtain ⟨q1, q2, _⟩ := q
  cases n <;> simp_all [Iop.core, Iop.setChan]

/-- The channel of a state reached by bus cycles, but for the CA request and the look-ahead byte. -/
theorem State.Calm.ch {s t : State} (h : s.Calm t) : t.ch.core = s.ch.core := by
  have e := h.2.2.1
  have hc : t.iop.core.cur = s.iop.core.cur := by rw [e]
  have hc : t.iop.cur = s.iop.cur := hc
  unfold State.ch
  rw [hc]
  cases s.iop.cur
  · exact congrArg Iop.ch1 e
  · exact congrArg Iop.ch2 e

/-- Replacing the channel after bus cycles. -/
theorem State.Calm.setCh {s t : State} (h : s.Calm t) {c d : IopChan} (e : d.core = c.core) :
    s.ChannelIs (t.setCh d) c := by
  have hi := h.2.2.1
  have hc : t.iop.core.cur = s.iop.core.cur := by rw [hi]
  have hc : t.iop.cur = s.iop.cur := hc
  refine ⟨?_, h.1, h.2.1, h.2.2.2.1, h.2.2.2.2.1, h.2.2.2.2.2.1, fun n => h.2.2.2.2.2.2 n⟩
  unfold State.setCh
  rw [hc, Iop.core_setChan hi]
  cases s.iop.cur <;> simp [Iop.core, Iop.setChan, e]

theorem State.iopLoad_quiet (s : State) (w : Width) (m : IMem) :
    s.Quiet (s.iopReadW w (s.ch.space m) (s.ch.ea m)).2 := s.iopReadW_quiet _ _ _

theorem State.iopLoad_value (s : State) (w : Width) (m : IMem) : s.IopOperandIs w m (s.iopLoad w m).1 :=
  s.iopReadW_value w _ _

theorem IopChan.core_after {c d : IopChan} (h : c.core = d.core) (m : IMem) (n : Nat) :
    (c.after m n).core = (d.after m n).core := by
  obtain ⟨_⟩ := c
  obtain ⟨_⟩ := d
  cases m <;> simp_all [IopChan.core, IopChan.after]

/-- Storing a memory operand: its bytes, and the step of IX. -/
theorem State.iopStore_spec (s : State) (w : Width) (m : IMem) (v : Word) :
    s.ChannelIs (s.iopStore w m v) (s.ch.after m (widthBytes w)) ∧
    s.CellsStored (s.iopStore w m v) (s.ch.space m) (widthBytes w) (s.ch.ea m) v.toNat := by
  obtain ⟨c, st⟩ := s.iopWriteW_spec w (s.ch.space m) (s.ch.ea m) v
  exact ⟨c.setCh (IopChan.core_after c.ch m _), st⟩

/-- Modifying a memory operand: what it was, its new bytes, and one step of IX. -/
theorem State.iopModify_spec (s : State) (w : Width) (m : IMem) (g : Word → Word) :
    ∃ v, s.IopOperandIs w m v ∧ s.ChannelIs (s.iopModify w m g) (s.ch.after m (widthBytes w)) ∧
      s.CellsStored (s.iopModify w m g) (s.ch.space m) (widthBytes w) (s.ch.ea m) (g v).toNat := by
  have q := s.iopReadW_quiet w (s.ch.space m) (s.ch.ea m)
  have val := s.iopReadW_value w (s.ch.space m) (s.ch.ea m)
  unfold State.iopModify
  dsimp only
  generalize s.iopReadW w (s.ch.space m) (s.ch.ea m) = r at q val
  obtain ⟨c, st⟩ := r.2.iopWriteW_spec w (s.ch.space m) (s.ch.ea m) (g r.1)
  have all := q.calm.trans c
  have hp : r.2.plat = s.plat := q.calm.2.2.2.2.2.1
  refine ⟨r.1, val, all.setCh (IopChan.core_after all.ch m _), fun io x hx => ?_, fun k hk => ?_⟩
  · exact (st.1 io x hx).trans (q.cells io x)
  · refine (st.2 k hk).trans ?_
    rw [State.cellKind_congr hp, q.cells]

end Sys2Proof.Machine
end

