-- ==== Sys2Proof/Laws/Fetch.lean ====
section
/-! SUPPORT. What fetching can do: both queues, the prefetch, and the state in which an instruction starts. -/

namespace Sys2Proof.Machine

/-! ### Queued bytes -/

/-- A queued byte is what memory holds now or one of the values it had (20_memory.md R131), and nothing is changed. -/
theorem State.queuedByte_spec (s : State) (now : Byte) (olds : List Byte) :
    (s.queuedByte now olds).1 ∈ now :: olds ∧ s.Quiet (s.queuedByte now olds).2 := by
  cases olds with
  | nil => exact ⟨by simp [State.queuedByte], .refl s⟩
  | cons b r =>
    refine ⟨?_, s.bump_quiet⟩
    have h : s.takeNat.1 % ((b :: r).length + 1) < (now :: b :: r).length := Nat.mod_lt _ (by simp)
    simp only [State.queuedByte, List.getD_eq_getElem _ _ h]
    exact List.getElem_mem h

theorem State.queuedByte_wf {s : State} (now : Byte) (olds : List Byte) (h : s.MemoryWf) :
    (s.queuedByte now olds).2.MemoryWf := by
  cases olds <;> exact h

/-! ### The CPU's fetch -/

/-- Nothing changes but devices and the bytes of them that the CPU's queue holds. -/
def State.FetchedAhead (s t : State) : Prop :=
  t.cpu = { s.cpu with ahead := t.cpu.ahead } ∧ t.mem = s.mem ∧ s.SameBeyondBus t

theorem State.FetchedAhead.refl (s : State) : s.FetchedAhead s := ⟨rfl, rfl, .refl s⟩

theorem State.FetchedAhead.trans {s t u : State} (h : s.FetchedAhead t) (g : t.FetchedAhead u) : s.FetchedAhead u :=
  ⟨by rw [g.1, h.1], g.2.1.trans h.2.1, h.2.2.trans g.2.2⟩

theorem State.Quiet.ahead {s t : State} (h : s.Quiet t) : s.FetchedAhead t := ⟨by rw [h.1], h.2⟩

/-- The queue holds one more byte of what a bus cycle that reads has left. -/
theorem State.Quiet.hold {s t : State} (h : s.Quiet t) (a : Nat) (b : Byte) :
    s.FetchedAhead { t with cpu := t.cpu.hold a b } :=
  ⟨by rw [Cpu.hold, h.1], h.2.1, h.2.2⟩

theorem State.codeByte_quiet (s : State) (a : Nat) : s.Quiet (s.codeByte a).2 := by
  unfold State.codeByte
  split
  · exact (s.queuedByte_spec _ _).2
  · exact .refl s
  · exact s.bump_quiet
  · rename_i d k off e
    exact (s.devRead_spec d (off / 2 ^ k)).quiet fun n => n.1 a d k (by rw [e])

theorem State.codeByte_wf {s : State} (a : Nat) (h : s.MemoryWf) : (s.codeByte a).2.MemoryWf := by
  unfold State.codeByte
  split
  · exact State.queuedByte_wf _ _ h
  · exact h
  · exact State.bump_wf h
  · exact State.devRead_wf _ _ h

theorem State.takeAhead_spec (s : State) (a : Nat) : s.FetchedAhead (s.takeAhead a) := by
  unfold State.takeAhead
  split
  · rename_i d k off e _
    exact ((s.devRead_spec d (off / 2 ^ k)).quiet fun n => n.1 a d k (by rw [e])).hold a _
  · exact .refl s

theorem State.takeAhead_wf {s : State} (a : Nat) (h : s.MemoryWf) : (s.takeAhead a).MemoryWf := by
  unfold State.takeAhead
  split
  · exact State.devRead_wf _ _ h
  · exact h

theorem State.takeAbove_spec (s : State) (a : Nat) : s.FetchedAhead (s.takeAbove a) := by
  unfold State.takeAbove
  split
  · exact .refl s
  · split
    · exact s.bump_quiet.hold (a + 1) _
    · exact s.takeAhead_spec _

theorem State.takeAbove_wf {s : State} (a : Nat) (h : s.MemoryWf) : (s.takeAbove a).MemoryWf := by
  unfold State.takeAbove
  split
  · exact h
  · split
    · exact State.bump_wf h
    · exact State.takeAhead_wf _ h

/-- A fetch changes nothing but devices and the bytes of them that the queue holds. -/
theorem State.fetchByte_spec (s : State) (a : Nat) : s.FetchedAhead (s.fetchByte a).2 := by
  unfold State.fetchByte
  split
  · exact .refl s
  · exact (s.codeByte_quiet a).ahead.trans (State.takeAbove_spec _ a)

theorem State.fetchByte_wf {s : State} (a : Nat) (h : s.MemoryWf) : (s.fetchByte a).2.MemoryWf := by
  unfold State.fetchByte
  split
  · exact h
  · exact State.takeAbove_wf _ (State.codeByte_wf _ h)

/-- Where memory answers and no store has changed a queued byte, a fetch gives the byte that stands there. -/
theorem State.fetchByte_memory (s : State) {a : Nat} (h : s.isMemory a = true) (q : s.cpu.stale = [])
    (k : s.cpu.held a = none) : (s.fetchByte a).1 = s.byteAt a := by
  unfold State.fetchByte State.codeByte State.byteAt
  simp only [State.isMemory, State.isRam, State.isRom, Bool.or_eq_true, beq_iff_eq] at h
  rw [k]
  dsimp only
  split
  · simp [q, State.queuedByte]
  · rfl
  · rename_i e; rw [e] at h; simp at h
  · rename_i e; rw [e] at h; simp at h

/-- Each state of a fetch is reached by bus cycles that read. -/
theorem State.fetchBytes_spec (s : State) (off : Word) (n : Nat) : ∀ b ∈ s.fetchBytes off n, s.FetchedAhead b.2 := by
  induction n generalizing s off with
  | zero => intro b hb; simp [State.fetchBytes] at hb
  | succ n ih =>
    intro b hb
    simp only [State.fetchBytes, List.mem_cons] at hb
    have q := s.fetchByte_spec (phys s.cpu.cs off)
    rcases hb with rfl | hb
    · exact q
    · exact q.trans (ih _ _ b hb)

theorem State.fetchBytes_wf {s : State} (off : Word) (n : Nat) (h : s.MemoryWf) : ∀ b ∈ s.fetchBytes off n, b.2.MemoryWf := by
  induction n generalizing s off with
  | zero => intro b hb; simp [State.fetchBytes] at hb
  | succ n ih =>
    intro b hb
    simp only [State.fetchBytes, List.mem_cons] at hb
    rcases hb with rfl | hb
    · exact State.fetchByte_wf _ h
    · exact ih _ (State.fetchByte_wf _ h) b hb

theorem State.prefetch_spec (s : State) (off : Word) (n : Nat) : s.FetchedAhead (s.prefetch off n) := by
  induction n generalizing s off with
  | zero => exact .refl s
  | succ n ih =>
    unfold State.prefetch
    dsimp only
    split
    · exact ih s _
    · split
      · exact ((s.bump_quiet.ahead.trans (s.bump.takeAhead_spec _)).trans (State.takeAbove_spec _ _)).trans (ih _ _)
      · exact s.bump_quiet.ahead

theorem State.prefetch_wf {s : State} (off : Word) (n : Nat) (h : s.MemoryWf) : (s.prefetch off n).MemoryWf := by
  induction n generalizing s off with
  | zero => exact h
  | succ n ih =>
    unfold State.prefetch
    dsimp only
    split
    · exact ih _ h
    · split
      · exact ih _ (State.takeAbove_wf _ (State.takeAhead_wf _ (State.bump_wf h)))
      · exact State.bump_wf h

/-- The state in which an instruction starts: IP points past it and TF has been sampled (60_exceptions.md R805); beyond
the CPU nothing changes but devices that the queue has read. -/
theorem State.begun_spec (s : State) (n : Nat) :
    (s.begun n).cpu = { s.cpu with ip := s.cpu.ip + BitVec.ofNat 16 n, instrAddr := s.cpu.ip, stepPending := s.cpu.f.tf,
                                   phase := .complete, ahead := (s.begun n).cpu.ahead } ∧
      (s.begun n).mem = s.mem ∧ s.SameBeyondBus (s.begun n) := by
  have q := ({ s with cpu := s.cpu.dequeue n }).prefetch_spec (s.cpu.ip + BitVec.ofNat 16 n) s.queueLen
  refine ⟨?_, q.2.1, q.2.2⟩
  unfold State.begun
  dsimp only
  rw [q.1]
  rfl

theorem State.begun_wf {s : State} (n : Nat) (h : s.MemoryWf) : (s.begun n).MemoryWf :=
  State.prefetch_wf (s := { s with cpu := s.cpu.dequeue n }) _ _ h

/-- A fetch of the CPU leaves the memory and the CPU as they are, but for the bytes of devices that its queue holds. -/
theorem State.fetch86_spec {s t : State} {i : Instr} {n : Nat} (h : s.fetch86 = .ok (i, n, t)) :
    s.FetchedAhead t ∧ (s.MemoryWf → t.MemoryWf) := by
  unfold State.fetch86 at h
  dsimp only at h
  split at h
  · simp only [Except.ok.injEq, Prod.mk.injEq] at h
    rw [← h.2.2]
    generalize hc : s.fetchBytes s.cpu.ip maxLength = code
    rename_i r _
    by_cases k : maxLength - r.length - 1 < code.length
    · rw [List.getD_eq_getElem _ _ k]
      have m : code[maxLength - r.length - 1] ∈ s.fetchBytes s.cpu.ip maxLength := by rw [hc]; exact List.getElem_mem k
      exact ⟨s.fetchBytes_spec _ _ _ m, fun w => State.fetchBytes_wf _ _ w _ m⟩
    · rw [List.getD_eq_default _ _ (by omega)]
      exact ⟨.refl s, id⟩
  · simp at h

/-! ### The VM89's fetch -/

/-- The byte at TP is read, or one of the values that the queue may hold of it, and nothing changes but devices (R564).
-/
theorem State.iopFirstByte_quiet (s : State) (c : IopChan) : s.Quiet (s.iopFirstByte c).2 := by
  have q := s.iopRead8_quiet c.tagTp c.tp.toNat
  unfold State.iopFirstByte
  dsimp only
  split
  · exact q.trans (State.queuedByte_spec _ _ _).2
  · split
    · exact q.trans (State.queuedByte_spec _ _ _).2
    · exact .refl s

theorem State.iopFirstByte_wf {s : State} (c : IopChan) (h : s.MemoryWf) : (s.iopFirstByte c).2.MemoryWf := by
  have q := State.iopRead8_wf c.tagTp c.tp.toNat h
  unfold State.iopFirstByte
  dsimp only
  split
  · exact State.queuedByte_wf _ _ q
  · split
    · exact State.queuedByte_wf _ _ q
    · exact h

theorem State.iopFetchBytes_quiet (s : State) (c : IopChan) (j n : Nat) : ∀ b ∈ s.iopFetchBytes c j n, s.Quiet b.2 := by
  induction n generalizing s j with
  | zero => intro b hb; simp [State.iopFetchBytes] at hb
  | succ n ih =>
    intro b hb
    simp only [State.iopFetchBytes, List.mem_cons] at hb
    have q : s.Quiet (if j = 0 then s.iopFirstByte c else s.iopRead8 c.tagTp (c.tp.toNat + j)).2 := by
      split
      · exact s.iopFirstByte_quiet c
      · exact s.iopRead8_quiet _ _
    rcases hb with rfl | hb
    · exact q
    · exact q.trans (ih _ _ b hb)

theorem State.iopFetchBytes_wf {s : State} (c : IopChan) (j n : Nat) (h : s.MemoryWf) :
    ∀ b ∈ s.iopFetchBytes c j n, b.2.MemoryWf := by
  induction n generalizing s j with
  | zero => intro b hb; simp [State.iopFetchBytes] at hb
  | succ n ih =>
    intro b hb
    simp only [State.iopFetchBytes, List.mem_cons] at hb
    have q : (if j = 0 then s.iopFirstByte c else s.iopRead8 c.tagTp (c.tp.toNat + j)).2.MemoryWf := by
      split
      · exact State.iopFirstByte_wf c h
      · exact State.iopRead8_wf _ _ h
    rcases hb with rfl | hb
    · exact q
    · exact ih _ q b hb

theorem State.iopKeep_wf {s : State} (n : ChanNo) (h : s.MemoryWf) : (s.iopKeep n).MemoryWf := by
  unfold State.iopKeep
  dsimp only
  split
  · exact State.iopRead8_wf _ _ h
  · exact h

theorem State.fetch89With_spec {s t : State} {c : IopChan} {i : Instr} {n : Nat} (h : s.fetch89With c = .ok (i, n, t)) :
    s.Quiet t ∧ (s.MemoryWf → t.MemoryWf) := by
  unfold State.fetch89With at h
  dsimp only at h
  split at h
  · simp only [Except.ok.injEq, Prod.mk.injEq] at h
    rw [← h.2.2]
    generalize hc : s.iopFetchBytes c 0 maxIopLength = code
    rename_i r _
    by_cases k : maxIopLength - r.length - 1 < code.length
    · rw [List.getD_eq_getElem _ _ k]
      have m : code[maxIopLength - r.length - 1] ∈ s.iopFetchBytes c 0 maxIopLength := by rw [hc]; exact List.getElem_mem k
      exact ⟨s.iopFetchBytes_quiet _ _ _ _ m, fun w => State.iopFetchBytes_wf _ _ _ w _ m⟩
    · rw [List.getD_eq_default _ _ (by omega)]
      exact ⟨.refl s, id⟩
  · simp at h

/-- A fetch of the VM89 leaves the CPU and the memory as they are (48_vm89_iop.md R564). -/
theorem State.fetch89_spec {s t : State} {c : IopChan} {i : Instr} {n : Nat} (h : s.fetch89 c = .ok (i, n, t)) :
    s.Quiet t ∧ (s.MemoryWf → t.MemoryWf) := by
  unfold State.fetch89 at h
  split at h
  · rename_i e
    split at h
    · obtain ⟨q, w⟩ := State.fetch89With_spec h
      exact ⟨(State.bump_quiet s).trans q, fun m => w (State.bump_wf m)⟩
    · simp only [Except.ok.injEq, Prod.mk.injEq] at h
      exact h.2.2 ▸ State.fetch89With_spec e
  · simp at h

end Sys2Proof.Machine
end

