-- ==== Sys2Proof/Laws/Agents.lean ====
section
/-! SUPPORT. What the agents do around the instructions keeps the memories in canonical form: grants of the VT37, events of
the environment, the VM87's own bus cycles, and what the VM89 does on its own. -/

namespace Sys2Proof.Machine

/-! ### The VT37 -/

theorem State.dmaAddr_lt (s : State) (u : Nat) (n : BitVec 2) : s.dmaAddr u n < 2 ^ 20 := by
  have b : ∀ (p : BitVec 4) (c : Word), p.toNat * 65536 + c.toNat < 2 ^ 20 := fun p c => by
    have := p.isLt
    have := c.isLt
    omega
  exact b _ _

theorem State.setDmac_wf {s : State} (u : Nat) (d : Vt37) (h : s.MemoryWf) : (s.setDmac u d).MemoryWf := by
  cases u <;> exact h

theorem State.dmaRead8_wf {s : State} (a : Nat) (h : s.MemoryWf) : (s.dmaRead8 a).2.MemoryWf := by
  unfold State.dmaRead8; split <;> exact h

theorem State.dmaWrite8_wf {s : State} {a : Nat} (v : Byte) (h : s.MemoryWf) (ha : a < 2 ^ 20) :
    (s.dmaWrite8 a v).MemoryWf := by
  unfold State.dmaWrite8
  split
  · exact State.store8_wf v h ha
  · exact h

theorem State.deviceByte_wf {s : State} (data : List Byte) (h : s.MemoryWf) : (s.deviceByte data).2.2.MemoryWf := by
  unfold State.deviceByte; split <;> exact h

theorem State.dmaTake_wf {s : State} (u : Nat) (n : BitVec 2) (data : List Byte) (h : s.MemoryWf) :
    (s.dmaTake u n data).2.2.MemoryWf := by
  unfold State.dmaTake
  split
  · exact h
  · exact State.deviceByte_wf data h

theorem State.dmaGive_wf {s : State} (u : Nat) (n : BitVec 2) (v : Byte) (h : s.MemoryWf) :
    (s.dmaGive u n v).MemoryWf := by
  unfold State.dmaGive
  split
  · exact h
  · exact State.setDmac_wf _ _ h

theorem State.dmaMove_wf {s : State} (u : Nat) (n : BitVec 2) (data : List Byte) (h : s.MemoryWf) :
    (s.dmaMove u n data).2.MemoryWf := by
  unfold State.dmaMove
  split
  · exact State.dmaWrite8_wf _ (State.dmaTake_wf u n data h) (s.dmaAddr_lt u n)
  · exact State.dmaGive_wf _ _ _ (State.dmaRead8_wf _ h)
  · exact h
  · exact h

theorem State.dmaEnd_wf {s : State} (u : Nat) (n : BitVec 2) (pulse : Bool) (h : s.MemoryWf) :
    (s.dmaEnd u n pulse).MemoryWf :=
  State.setDmac_wf u _ h

theorem State.dmaCycle_wf {s : State} (u : Nat) (n : BitVec 2) (data : List Byte) (h : s.MemoryWf) :
    (s.dmaCycle u n data).2.2.MemoryWf := by
  have m := State.setDmac_wf u (((s.dmaMove u n data).2.dmac u).advance n) (State.dmaMove_wf u n data h)
  unfold State.dmaCycle
  dsimp only
  split
  · exact State.dmaEnd_wf u n true m
  · exact m

theorem State.dmaCycles_wf {s : State} (u : Nat) (n : BitVec 2) (eop : Bool) (data : List Byte) (k : Nat)
    (h : s.MemoryWf) : (s.dmaCycles u n eop data k).MemoryWf := by
  induction k generalizing s data with
  | zero =>
    unfold State.dmaCycles
    split
    · exact State.dmaEnd_wf u n false h
    · exact h
  | succ k ih =>
    have c := State.dmaCycle_wf u n data h
    unfold State.dmaCycles
    dsimp only
    split
    · exact h
    · split
      · exact c
      · exact ih _ c

theorem State.dmaByte_wf {s : State} (u : Nat) (h : s.MemoryWf) : (s.dmaByte u).2.MemoryWf := by
  have w : ∀ t : State, t.MemoryWf → ∀ v d, ((t.dmaWrite8 (t.dmaAddr u 1) v).setDmac u d).MemoryWf :=
    fun t ht v d => State.setDmac_wf u d (State.dmaWrite8_wf v ht (t.dmaAddr_lt u 1))
  have m := fun d e => w ((s.dmaRead8 (s.dmaAddr u 0)).2.setDmac u d)
    (State.setDmac_wf u d (State.dmaRead8_wf _ h)) (s.dmaRead8 (s.dmaAddr u 0)).1 e
  unfold State.dmaByte
  dsimp only
  split
  · exact State.dmaEnd_wf u 0 true (State.dmaEnd_wf u 1 true (m _ _))
  · exact m _ _

theorem State.dmaBytes_wf {s : State} (u : Nat) (eop : Bool) (k : Nat) (h : s.MemoryWf) :
    (s.dmaBytes u eop k).MemoryWf := by
  induction k generalizing s with
  | zero =>
    unfold State.dmaBytes
    split
    · exact State.dmaEnd_wf u 0 false (State.dmaEnd_wf u 1 false h)
    · exact h
  | succ k ih =>
    have c := State.dmaByte_wf u h
    unfold State.dmaBytes
    dsimp only
    split
    · exact c
    · exact ih c

theorem State.dmaServe_wf {s : State} (u : Nat) (n : BitVec 2) (h : s.MemoryWf) : (s.dmaServe u n).MemoryWf :=
  State.setDmac_wf u _ h

theorem State.dmaPass_wf {s : State} (u v : Nat) (cs : List Cascade) (h : s.MemoryWf) : (s.dmaPass u v cs).2.MemoryWf := by
  induction cs generalizing s u v with
  | nil => exact h
  | cons c r ih =>
    unfold State.dmaPass
    dsimp only
    split
    · exact ih _ _ (State.dmaServe_wf u c.channel h)
    · exact ih _ _ h

theorem State.dmaRun_wf {s t : State} {u k : Nat} {eop : Bool} {data : List Byte} (h : s.MemoryWf)
    (e : s.dmaRun u k eop data = .next t) : t.MemoryWf := by
  unfold State.dmaRun at e
  dsimp only at e
  split at e
  · cases e; exact h
  · rename_i n _
    have g := State.dmaServe_wf u n h
    split at e
    · cases e; exact State.dmaBytes_wf _ _ _ g
    · split at e
      · cases e; exact g
      · split at e
        · cases e
        · split at e <;> (cases e; exact State.dmaCycles_wf _ _ _ _ _ g)

theorem State.dmaGrant_wf {s t : State} {k : Nat} {eop : Bool} {data : List Byte} (h : s.MemoryWf)
    (e : s.dmaGrant k eop data = .next t) : t.MemoryWf :=
  State.dmaRun_wf (State.dmaPass_wf 0 1 s.plat.cascades h) e

/-! ### Events -/

theorem Ru55.strobeA_ram (d : Ru55) : d.strobeA.ram = d.ram := by
  unfold Ru55.strobeA; repeat' (first | rfl | split)

theorem Ru55.strobeB_ram (d : Ru55) : d.strobeB.ram = d.ram := by
  unfold Ru55.strobeB; repeat' (first | rfl | split)

theorem Ru55.timerTick_ram (d : Ru55) : d.timerTick.ram = d.ram := by
  have e : ∀ c : Ru55, c.timerEnd.ram = c.ram := fun c => by
    unfold Ru55.timerEnd; dsimp only; repeat' (first | rfl | split)
  unfold Ru55.timerTick
  dsimp only
  repeat' (first | rfl | exact e _ | split)

theorem State.event_wf {s t : State} {e : Event} (h : s.MemoryWf) (g : s.event e = .next t) : t.MemoryWf := by
  cases e
  case dmaGrant => exact State.dmaGrant_wf h g
  case dreq => cases g; exact State.setDmac_wf _ _ h
  case ruStrobeA => cases g; exact h.congr rfl ⟨rfl, rfl⟩ (Ru55.strobeA_ram _)
  case ruStrobeB => cases g; exact h.congr rfl ⟨rfl, rfl⟩ (Ru55.strobeB_ram _)
  case ruTick => cases g; exact h.congr rfl ⟨rfl, rfl⟩ (Ru55.timerTick_ram _)
  all_goals
    simp only [State.event] at g
    first
    | (cases g; exact h)
    | (split at g <;> cases g; exact h)

theorem State.nextAgent_wf {s : State} (h : s.MemoryWf) : s.nextAgent.2.MemoryWf := by
  unfold State.nextAgent
  split
  · exact h
  · split
    · dsimp only
      split <;> first | exact h | (split <;> exact h)
    · unfold State.freeAgent State.cpuOrFpu
      split_ifs <;> exact h

theorem State.watchNmi_wf {s t : State} (h : t.MemoryWf) : (s.watchNmi t).MemoryWf := by
  unfold State.watchNmi
  split
  · split <;> exact h
  · exact h

/-- What a controller is after it has looked at its requests: its registers stay, and only the channel for which HRQ stands
and the levels of the wired DREQ pins may change. -/
def Vt37.Looked (d e : Vt37) : Prop := ∃ c q, e = { d with chosen := c, dreq := q }

theorem Vt37.Looked.refl (d : Vt37) : d.Looked d := ⟨d.chosen, d.dreq, rfl⟩

theorem Vt37.Looked.trans {d e f : Vt37} (h : d.Looked e) (g : e.Looked f) : d.Looked f := by
  obtain ⟨_, _, rfl⟩ := h
  obtain ⟨c, q, rfl⟩ := g
  exact ⟨c, q, rfl⟩

theorem Vt37.looked_settle (d : Vt37) : d.Looked d.settle := ⟨d.resolve, d.dreq, rfl⟩

theorem Vt37.looked_dreqTo (d : Vt37) (n : BitVec 2) (l : Bool) : d.Looked (d.dreqTo n l) :=
  ⟨d.chosen, setBit d.dreq n.toNat l, rfl⟩

theorem looked_modify {f : Vt37 → Vt37} (hf : ∀ d : Vt37, d.Looked (f d)) (ds : List Vt37) (k j : Nat) :
    (ds.getD j Vt37.reset).Looked ((ds.modify k f).getD j Vt37.reset) := by
  simp only [List.getD_eq_getElem?_getD, List.getElem?_modify]
  cases ds[j]? with
  | none => exact .refl _
  | some d =>
    by_cases h : k = j
    · simpa [h] using hf d
    · simpa [h] using .refl d

theorem looked_wireHrq (u : Nat) (cs : List Cascade) (ds : List Vt37) (j : Nat) :
    (ds.getD j Vt37.reset).Looked ((wireHrq u cs ds).getD j Vt37.reset) := by
  induction cs generalizing u with
  | nil => exact .refl _
  | cons c r ih => exact (ih (u + 1)).trans (looked_modify (fun d => d.looked_dreqTo _ _) _ _ _)

theorem looked_settleAll (u : Nat) (cs : List Cascade) (ds : List Vt37) (j : Nat) :
    (ds.getD j Vt37.reset).Looked ((settleAll u cs ds).getD j Vt37.reset) := by
  induction cs generalizing u with
  | nil => exact .refl _
  | cons c r ih =>
    exact ((ih (u + 1)).trans (looked_modify Vt37.looked_settle _ _ _)).trans
      (looked_modify (fun d => d.looked_dreqTo _ _) _ _ _)

/-- The end of a turn leaves the registers of every VT37 as they are. -/
theorem State.looked_settleDma (s : State) (u : Nat) : (s.dmac u).Looked (s.settleDma.dmac u) := by
  have h : ((s.vt37 :: s.cascaded).getD u Vt37.reset).Looked
      (((settleAll 1 s.plat.cascades s.dmacs).modify 0 Vt37.settle).getD u Vt37.reset) := by
    refine Vt37.Looked.trans ?_ ((looked_settleAll 1 _ s.dmacs u).trans (looked_modify Vt37.looked_settle _ _ _))
    unfold State.dmacs
    dsimp only
    refine Vt37.Looked.trans ?_ (looked_wireHrq 1 _ _ u)
    split
    · exact looked_modify (fun d => d.looked_dreqTo _ _) _ _ _
    · exact .refl _
  cases u with
  | zero => exact h
  | succ k =>
    simpa [State.dmac, State.settleDma, List.getD_eq_getElem?_getD, Nat.add_comm] using h

theorem State.turnDone_wf {s t : State} (h : t.MemoryWf) : (s.turnDone t).MemoryWf :=
  State.MemoryWf.congr (State.watchNmi_wf h) rfl ⟨rfl, rfl⟩ rfl

theorem State.haltedStep_wf {s : State} (h : s.MemoryWf) : s.haltedStep.MemoryWf := by
  unfold State.haltedStep
  split
  · exact State.takeAll_wf h
  · exact h

/-! ### The VM87 beside the CPU -/

/-- Taking an ESC (47_vm87_instructions.md R462) reads a memory operand and adds the instruction to those of the VM87,
with the CPU as it stands; the CPU and the memory stay. -/
theorem State.fpuIssue_spec {s t : State} {i : Instr} {x second : Nat} {rm : RM}
    (e : s.fpuIssue i x second rm = .next t) :
    s.Quiet { t with run := s.run } ∧
      ∃ drop got, t.run = s.run.add drop { instr := i, cpu := s.cpu, got := got } := by
  unfold State.fpuIssue at e
  split at e
  · cases e
  · split at e
    · cases e; exact ⟨.refl s, _, _, rfl⟩
    · cases e
      rename_i m _
      have q := s.readOp_quiet .word m
      have u : (s.readOp .word m).2.run = s.run := q.2.2.1.2
      refine ⟨?_, _, _, by rw [u]⟩
      simpa only [← u] using q

/-- A read cycle of the VM87 adds bytes to the operand of its instruction; the CPU and the memory stay. -/
theorem State.fpuReadOn_spec (s : State) (j : FpuJob) (rest : List FpuJob) (m : MemOp) (need : Nat) :
    s.Quiet { s.fpuReadOn j rest m need with run := s.run } ∧
      ∃ more, (s.fpuReadOn j rest m need).run = { s.run with jobs := { j with got := j.got ++ more } :: rest } := by
  have q := s.read8_quiet ((phys (j.cpu.memSeg m) (j.cpu.ea m) + j.got.length) % 2 ^ 20)
  unfold State.fpuReadOn
  dsimp only
  split
  · have p := q.trans (State.read8_quiet _ ((phys (j.cpu.memSeg m) (j.cpu.ea m) + j.got.length + 1) % 2 ^ 20))
    refine ⟨?_, [_, _], by rw [p.2.2.1.2, List.append_assoc]; rfl⟩
    simpa only [← p.2.2.1.2] using p
  · refine ⟨?_, [_], by rw [q.2.2.1.2]⟩
    simpa only [← q.2.2.1.2] using q

theorem State.fpuIssue_wf {s t : State} {i : Instr} {x second : Nat} {rm : RM} (h : s.MemoryWf)
    (e : s.fpuIssue i x second rm = .next t) : t.MemoryWf := by
  unfold State.fpuIssue at e
  split at e
  · cases e
  · split at e
    · cases e; exact h
    · cases e; exact State.readMem_wf _ _ _ h

theorem State.fpuReadOn_wf {s : State} (j : FpuJob) (rest : List FpuJob) (m : MemOp) (need : Nat) (h : s.MemoryWf) :
    (s.fpuReadOn j rest m need).MemoryWf := by
  unfold State.fpuReadOn
  dsimp only
  split
  · exact State.read8_wf _ (State.read8_wf _ h)
  · exact State.read8_wf _ h

theorem State.fpuWriteOn_wf {s : State} (h : s.MemoryWf) : s.fpuWriteOn.MemoryWf := by
  have b : ∀ a : Nat, a % 2 ^ 20 < 2 ^ 20 := fun a => Nat.mod_lt a (by norm_num)
  unfold State.fpuWriteOn
  split
  · exact h
  · exact State.write8_wf _ h (b _)
  · exact State.write8_wf _ (State.write8_wf _ h (b _)) (b _)

/-! ### The VM89 on its own -/

theorem State.withIop_wf {s : State} (p : Iop) (h : s.MemoryWf) : ({ s with iop := p } : State).MemoryWf := h

theorem State.setCh_wf {s : State} (c : IopChan) (h : s.MemoryWf) : (s.setCh c).MemoryWf := h

theorem State.iopPointer_wf {s : State} (io : Bool) (a : Nat) (h : s.MemoryWf) : (s.iopPointer io a).2.MemoryWf := by
  unfold State.iopPointer
  exact State.iopRead16_wf _ _ (State.iopRead16_wf _ _ h)

theorem State.iopLoadPtr_wf {s : State} (io : Bool) (a : Nat) (h : s.MemoryWf) : (s.iopLoadPtr io a).2.MemoryWf := by
  unfold State.iopLoadPtr
  exact State.iopRead8_wf _ _ (State.iopRead16_wf _ _ h)

/-- The equation of two next states. -/
theorem next_eq {s t : State} (e : (Host.Outcome.next s : Result) = .next t) : s = t := by injection e

theorem State.iopInitialise_wf {s t : State} {sel : Bool} (h : s.MemoryWf) (e : s.iopInitialise sel = .next t) :
    t.MemoryWf := by
  unfold State.iopInitialise at e
  dsimp only at e
  split at e
  · cases e
  · rw [← next_eq e]
    exact State.withIop_wf _ (State.iopWrite8_wf _ _ _
      (State.iopPointer_wf _ _ (State.iopRead8_wf _ _ (State.iopPointer_wf _ _ (State.iopRead8_wf _ _ h)))))

theorem State.iopStart_wf {s t : State} {base : Nat} {io : Bool} (h : s.MemoryWf) (e : s.iopStart base io = .next t) :
    t.MemoryWf := by
  have p := State.iopPointer_wf false (base + 2) h
  have q : ∀ u : State, u.MemoryWf → ∀ a, (if io = true then
      ((u.iopRead16 false a).1.zeroExtend 20, (u.iopRead16 false a).2) else u.iopPointer false a).2.MemoryWf := by
    intro u hu a
    split
    · exact State.iopRead16_wf _ _ hu
    · exact State.iopPointer_wf _ _ hu
  unfold State.iopStart at e
  split at e
  · cases e
  · rw [← next_eq e]
    exact State.setCh_wf _ (q _ p _)

theorem State.iopSuspendNow_wf {s : State} (base : Nat) (h : s.MemoryWf) : (s.iopSuspendNow base).MemoryWf := by
  unfold State.iopSuspendNow
  exact State.withIop_wf _ (State.setCh_wf _
    (State.iopWrite8_wf _ _ _ (State.iopWrite8_wf _ _ _ (State.iopSavePtr_wf _ _ _ _ h))))

theorem State.iopSuspend_wf {s : State} (base : Nat) (h : s.MemoryWf) : (s.iopSuspend base).MemoryWf := by
  unfold State.iopSuspend
  split
  · exact State.iopSuspendNow_wf base h
  · exact State.setCh_wf _ h

theorem State.iopResume_wf {s t : State} (h : s.MemoryWf) (e : s.iopResume = .next t) : t.MemoryWf := by
  unfold State.iopResume at e
  dsimp only at e
  split at e
  · cases e
  · have w := State.iopRead8_wf false (s.ch.pp.toNat + 3) (State.iopLoadPtr_wf false s.ch.pp.toNat h)
    rw [← next_eq e]
    exact State.setCh_wf _ w

theorem State.iopStop_wf {s : State} (base : Nat) (h : s.MemoryWf) : (s.iopStop base).MemoryWf := by
  unfold State.iopStop
  exact State.withIop_wf _ (State.setCh_wf _ (State.iopWrite8_wf _ _ _ h))

theorem State.iopAnswer_wf {s t : State} {n : ChanNo} (h : s.MemoryWf) (e : s.iopAnswer n = .next t) : t.MemoryWf := by
  unfold State.iopAnswer at e
  dsimp only at e
  generalize hu : State.setCh (State.iopRead8 _ _ _).2 _ = u at e
  have w : u.MemoryWf := by
    rw [← hu]
    exact State.setCh_wf _ (State.iopRead8_wf _ _ (State.iopWrite8_wf _ _ _ (State.setCh_wf _ (State.withIop_wf _ h))))
  clear hu
  split at e
  · rw [← next_eq e]
    split
    · exact State.iopWrite8_wf _ _ _ w
    · exact w
  · exact State.iopStart_wf w e
  · exact State.iopStart_wf w e
  · exact State.iopResume_wf w e
  · rw [← next_eq e]; exact State.iopSuspend_wf _ w
  · rw [← next_eq e]; exact State.iopStop_wf _ w
  · rw [← next_eq e]; exact w

theorem State.iopTranslate_wf {s : State} (b : Byte) (h : s.MemoryWf) : (s.iopTranslate b).2.MemoryWf := by
  unfold State.iopTranslate
  split
  · exact State.iopRead8_wf _ _ h
  · exact h

theorem State.iopXferRead_wf {s : State} (x : XferCycle) (h : s.MemoryWf) : (s.iopXferRead x).MemoryWf := by
  unfold State.iopXferRead
  dsimp only
  split
  · exact State.setCh_wf _ (State.iopRead16_wf _ _ h)
  · exact State.setCh_wf _ (State.iopTranslate_wf _ (State.iopRead8_wf _ _ h))

theorem State.iopXferWrite_wf {s : State} (x : XferCycle) (h : s.MemoryWf) : (s.iopXferWrite x).MemoryWf := by
  unfold State.iopXferWrite
  dsimp only
  split
  · exact State.setCh_wf _ (State.iopWrite16_wf _ _ _ h)
  · exact State.setCh_wf _ (State.iopWrite8_wf _ _ _ h)

theorem State.iopXferEnd_wf {s : State} (x : XferCycle) (h : s.MemoryWf) : (s.iopXferEnd x).MemoryWf := by
  unfold State.iopXferEnd
  dsimp only
  split
  · exact State.setCh_wf _ h
  · exact State.withIop_wf _ (State.setCh_wf _ h)

theorem State.iopCycleDone_wf {s : State} (x : XferCycle) (h : s.MemoryWf) : (s.iopCycleDone x).MemoryWf := by
  have e := State.iopXferEnd_wf x h
  unfold State.iopCycleDone
  dsimp only
  split
  · exact State.iopSuspendNow_wf _ e
  · exact e

theorem State.iopTransfer_wf {s t : State} {n : ChanNo} (h : s.MemoryWf) (e : s.iopTransfer n = .next t) :
    t.MemoryWf := by
  have g : ({ s with iop := { s.iop with cur := n } } : State).MemoryWf := State.withIop_wf _ h
  unfold State.iopTransfer at e
  dsimp only at e
  generalize { s with iop := { s.iop with cur := n } } = u at e g
  split at e
  · split at e
    · cases e
    · rw [← next_eq e]; exact State.withIop_wf _ (State.iopXferRead_wf _ g)
  · split at e
    · split at e
      · rw [← next_eq e]
        split
        · exact State.iopCycleDone_wf _ (State.iopXferWrite_wf _ g)
        · exact State.iopXferWrite_wf _ g
      · rw [← next_eq e]; exact State.iopXferWrite_wf _ g
    · rw [← next_eq e]; exact State.iopXferRead_wf _ g

/-! ### One turn -/

/-- Whatever instructions do, as long as they keep the memories in canonical form a turn keeps them so. -/
theorem turn_wf {run : Meaning} (r : ∀ i (s t : State), s.MemoryWf → run i s = .next t → t.MemoryWf) {s t : State}
    (h : s.MemoryWf) (e : turn run s = .next t) : t.MemoryWf := by
  have on : ∀ {x : Result} {f : State → State} {u : State}, onNext x f = .next u → ∃ v, x = .next v ∧ u = f v := by
    intro x f u hu
    cases x <;> simp only [onNext, Host.Outcome.next.injEq, reduceCtorEq] at hu
    exact ⟨_, rfl, hu.symm⟩
  have done : ∀ {u : State}, u.MemoryWf → u.cpuDone.MemoryWf := fun hu => State.boundary_wf hu
  obtain ⟨u, hu, rfl⟩ := on e
  refine State.turnDone_wf ?_
  have n := State.nextAgent_wf h
  revert hu n
  generalize s.nextAgent.1 = a
  generalize s.nextAgent.2 = v
  intro hu n
  cases a with
  | event x => exact State.event_wf n hu
  | nobody => cases hu; exact n
  | cpu =>
    simp only [agentTurn, cpuTurn] at hu
    split at hu
    · cases hu; exact State.haltedStep_wf n
    · split at hu
      · obtain ⟨x, hx, rfl⟩ := on hu; exact done (r _ _ _ (by exact n) hx)
      · obtain ⟨x, hx, rfl⟩ := on hu; exact done (r _ _ _ (by exact n) hx)
      · split at hu
        · rename_i i k w hf
          obtain ⟨x, hx, rfl⟩ := on hu
          refine done ?_
          have wf : (w.begun k).MemoryWf := State.begun_wf k ((State.fetch86_spec hf).2 n)
          simp only [cpuInstruction] at hx
          split at hx
          · split at hx
            · exact State.fpuIssue_wf wf hx
            · exact r _ _ _ wf hx
          · exact r _ _ _ wf hx
        · cases hu
  | iop =>
    simp only [agentTurn, iopTurn] at hu
    split at hu
    · split at hu
      · exact State.iopInitialise_wf n hu
      · cases hu; exact n
    · split at hu
      · cases hu; exact n
      · exact State.iopAnswer_wf n hu
      · exact State.iopTransfer_wf n hu
      · simp only [iopInstruction] at hu
        split at hu
        · rename_i i k w hf
          obtain ⟨x, hx, rfl⟩ := on hu
          have wx := r _ _ _ (State.iopKeep_wf (s := w.iopTake v.iop.nextChan i k) _ ((State.fetch89_spec hf).2 n)) hx
          unfold State.iopAfter
          split <;> exact wx
        · cases hu
  | fpu =>
    simp only [agentTurn, fpuTurn] at hu
    split at hu
    · cases hu; exact State.fpuWriteOn_wf n
    · cases hu; exact n
    · split at hu
      · split at hu
        · cases hu; exact State.fpuReadOn_wf _ _ _ _ n
        · obtain ⟨x, hx, rfl⟩ := on hu; exact r _ (v.fpuEnter _ _) x n hx
      · obtain ⟨x, hx, rfl⟩ := on hu; exact r _ (v.fpuEnter _ _) x n hx

end Sys2Proof.Machine
end

