-- ==== Sys2Proof/Laws/Fpu.lean ====
section
/-! SUPPORT. What the bus cycles of the VM87 can do, how an ESC reaches it, and what a write of one of its registers leaves. -/

namespace Sys2Proof.Machine

/-! ### Bits of a register -/

/-- A bit of a word after one of its bits has been replaced. -/
theorem setBit_getLsbD {n : Nat} (v : BitVec n) (i k : Nat) (b : Bool) (h : i < n) :
    (setBit v i b).getLsbD k = if k = i then b else v.getLsbD k := by
  have e : (BitVec.ofNat n (2 ^ i)).getLsbD k = decide (k = i) := by
    rw [BitVec.getLsbD_ofNat, Nat.testBit_two_pow]
    by_cases g : i = k
    · subst g; simp [h]
    · simp [g, Ne.symm g]
  unfold setBit
  cases b
  · simp only [Bool.false_eq_true, if_false, BitVec.getLsbD_and, BitVec.getLsbD_not, e]
    by_cases g : k = i
    · simp [g]
    · simpa [g] using BitVec.lt_of_getLsbD
  · simp only [if_true, BitVec.getLsbD_or, e]
    by_cases g : k = i <;> simp [g]

/-! ### The source operand -/

theorem State.numberAt_congr {s t : State} (h : s.SameBytes t) (a n : Nat) : t.numberAt a n = s.numberAt a n := by
  induction n generalizing a with
  | zero => rfl
  | succ n ih => simp only [State.numberAt, ih, h _]

theorem State.fpuBytes_spec (s : State) (a n : Nat) :
    s.Quiet (s.fpuBytes a n).2 ∧ (s.fpuBytes a n).1 < 256 ^ n ∧
    ((∀ k, k < n → s.isMemory ((a + k) % 2 ^ 20) = true) → (s.fpuBytes a n).1 = s.numberAt a n) := by
  induction n generalizing s a with
  | zero => exact ⟨.refl s, by simp [State.fpuBytes], fun _ => rfl⟩
  | succ n ih =>
    have q := s.read8_quiet (a % 2 ^ 20)
    obtain ⟨i1, i2, i3⟩ := ih (s.read8 (a % 2 ^ 20)).2 (a + 1)
    refine ⟨q.trans i1, ?_, fun m => ?_⟩
    · have b := (s.read8 (a % 2 ^ 20)).1.isLt
      simp only [State.fpuBytes]
      rw [pow_succ 256 n]
      omega
    · have hp : (s.read8 (a % 2 ^ 20)).2.plat = s.plat := q.2.2.2.2.2.2.1
      simp only [State.fpuBytes, State.numberAt]
      have m0 := m 0 (by omega)
      rw [Nat.add_zero] at m0
      rw [i3 fun k hk => ?_, State.numberAt_congr q.bytes, s.read8_memory m0]
      rw [State.isMemory_congr hp]
      have := m (k + 1) (by omega)
      rwa [show a + 1 + k = a + (k + 1) by omega]

theorem numberAt_one (s : State) (a n : Nat) : s.numberAt a (n + 1) = (s.byteAt (a % 2 ^ 20)).toNat + 256 * s.numberAt (a + 1) n :=
  rfl

theorem phys_next {seg off : Word} (h : off ≠ 0xFFFF#16) : phys seg (off + 1#16) = (phys seg off + 1) % 2 ^ 20 := by
  have e : (off + 1#16).toNat = off.toNat + 1 := by
    have := off.isLt
    have : off.toNat ≠ 65535 := fun c => h (BitVec.eq_of_toNat_eq (by simpa using c))
    rw [BitVec.toNat_add]
    simp only [BitVec.toNat_ofNat]
    omega
  unfold phys
  rw [e]
  omega

/-- The source operand of an ESC: the bytes that the VM87 has read, or what stands in memory; and nothing changes but
devices (47_vm87_instructions.md R462). -/
theorem State.fpuSource_spec (s : State) (m : MemOp) (n : Nat) (hn : 2 ≤ n) :
    s.Quiet (s.fpuSource m n).2 ∧ s.SourceIs (s.escAddr m) n (s.fpuSource m n).1 := by
  unfold State.SourceIs
  cases hf : s.run.feed with
  | some bs =>
    simp only [State.fpuSource, hf]
    exact ⟨.refl s, Nat.mod_lt _ (by positivity), trivial⟩
  | none =>
  simp only
  obtain ⟨n, rfl⟩ : ∃ j, n = j + 2 := ⟨n - 2, by omega⟩
  have q := s.readOp_quiet .word m
  have hp : (s.readOp .word m).2.plat = s.plat := q.2.2.2.2.2.2.1
  have hlt : s.escAddr m < 2 ^ 20 := phys_lt _ _
  have mem0 : (∀ k, k < n + 2 → s.isMemory ((s.escAddr m + k) % 2 ^ 20) = true) → s.isMemory (s.escAddr m) = true := by
    intro h
    have := h 0 (by omega)
    rwa [Nat.add_zero, Nat.mod_eq_of_lt hlt] at this
  unfold State.fpuSource
  simp only [hf]
  split
  · rename_i e
    obtain ⟨b1, b2, b3⟩ := (s.readOp .word m).2.fpuBytes_spec (s.escAddr m + 1) (n + 1)
    refine ⟨q.trans b1, ?_, fun h => ?_⟩
    · have := (lowByte (s.readOp .word m).1).isLt
      have e2 : 256 ^ (n + 2) = 256 * 256 ^ (n + 1) := by rw [pow_succ]; ring
      simp only [show n + 2 - 1 = n + 1 by omega]
      omega
    · simp only [show n + 2 - 1 = n + 1 by omega]
      rw [b3 fun k hk => ?_, State.numberAt_congr q.bytes, numberAt_one s (s.escAddr m) (n + 1), Nat.mod_eq_of_lt hlt]
      · congr 2
        unfold State.readOp State.readMem State.read16 State.read16p
        have h0 := mem0 h
        unfold State.escAddr at h0 ⊢
        simp only [s.read8_memory h0, lowByte_wordOf]
      · rw [State.isMemory_congr hp]
        have := h (k + 1) (by omega)
        rwa [show s.escAddr m + 1 + k = s.escAddr m + (k + 1) by omega]
  · rename_i e
    obtain ⟨b1, b2, b3⟩ := (s.readOp .word m).2.fpuBytes_spec (s.escAddr m + 2) n
    refine ⟨q.trans b1, ?_, fun h => ?_⟩
    · have := (s.readOp .word m).1.isLt
      have e2 : 256 ^ (n + 2) = 65536 * 256 ^ n := by rw [pow_add]; ring
      simp only [Nat.add_sub_cancel]
      omega
    · simp only [Nat.add_sub_cancel]
      rw [b3 fun k hk => ?_, State.numberAt_congr q.bytes, numberAt_one s (s.escAddr m) (n + 1),
        numberAt_one s (s.escAddr m + 1) n, Nat.mod_eq_of_lt hlt]
      · have h0 := mem0 h
        have h1 := h 1 (by omega)
        unfold State.readOp State.readMem State.read16
        unfold State.escAddr at h0 h1 ⊢
        rw [← phys_next e] at h1 ⊢
        rw [s.read16p_memory h0 h1]
        have l := (s.byteAt (phys (s.cpu.memSeg m) (s.cpu.ea m))).isLt
        have g := (s.byteAt (phys (s.cpu.memSeg m) (s.cpu.ea m + 1#16))).isLt
        simp only [wordOf, BitVec.toNat_ofNat]
        rw [Nat.mod_eq_of_lt (by omega), show phys (s.cpu.memSeg m) (s.cpu.ea m) + 1 + 1 =
          phys (s.cpu.memSeg m) (s.cpu.ea m) + 2 from rfl]
        ring
      · rw [State.isMemory_congr hp]
        have := h (k + 2) (by omega)
        rwa [show s.escAddr m + 2 + k = s.escAddr m + (k + 2) by omega]

/-! ### The destination -/

/-- The bytes that the VM87 stores, and nothing else but devices. -/
theorem State.fpuStoreBytes_spec (s : State) (a v n : Nat) (hn : n ≤ 2 ^ 16) :
    s.Busy (s.fpuStoreBytes a v n) ∧ s.StoredAt (s.fpuStoreBytes a v n) n (fun k => (a + k) % 2 ^ 20) v := by
  induction n generalizing s a v with
  | zero => exact ⟨.refl s, fun _ _ => rfl, fun k hk => absurd hk (by omega), fun k hk => absurd hk (by omega)⟩
  | succ n ih =>
    obtain ⟨b, m⟩ := s.write8_spec (a % 2 ^ 20) (BitVec.ofNat 8 v)
    obtain ⟨c, st⟩ := ih (s.write8 (a % 2 ^ 20) (BitVec.ofNat 8 v)) (a + 1) (v / 256) (by omega)
    have hp : (s.write8 (a % 2 ^ 20) (BitVec.ofNat 8 v)).plat = s.plat := b.2.2.2.2.2.1
    have one := State.StoredAt.of_mem m
    refine ⟨b.trans c, fun x hx => ?_, fun k hk hr => ?_, fun k hk hr => ?_⟩
    · have h1 := st.1 x fun k hk => by
        have := hx (k + 1) (by omega)
        dsimp only at this ⊢
        rwa [show a + 1 + k = a + (k + 1) by omega]
      exact h1.trans (one.1 x fun k hk => by have := hx 0 (by omega); simpa using this)
    · cases k with
      | zero =>
        have h1 := st.1 ((a + 0) % 2 ^ 20) fun k hk => by dsimp only; omega
        refine h1.trans ?_
        have := one.2.1 0 (by norm_num) hr
        have e : BitVec.ofNat 8 ((BitVec.ofNat 8 v).toNat / 256 ^ 0) = BitVec.ofNat 8 (v / 256 ^ 0) := by
          apply BitVec.eq_of_toNat_eq; simp
        rw [← e]; exact this
      | succ k =>
        have h1 := st.2.1 k (by omega)
        simp only [show a + 1 + k = a + (k + 1) by omega] at h1
        rw [State.isRam_congr hp] at h1
        have := h1 hr
        rw [Nat.div_div_eq_div_mul, ← pow_succ'] at this
        exact this
    · cases k with
      | zero =>
        have h1 := st.1 ((a + 0) % 2 ^ 20) fun k hk => by dsimp only; omega
        exact h1.trans (one.2.2 0 (by norm_num) hr)
      | succ k =>
        have h1 := st.2.2 k (by omega)
        simp only [show a + 1 + k = a + (k + 1) by omega] at h1
        rw [State.isRam_congr hp] at h1
        refine (h1 hr).trans (one.1 _ fun j hj => ?_)
        dsimp only
        omega

/-- A result of the VM87: written at once, or queued when it executes beside the CPU; the VM87 itself stays. -/
theorem State.fpuWrite_spec (s : State) (a v n : Nat) (hn : n ≤ 2 ^ 16) :
    s.FpuStored (s.fpuWrite a v n) a n v ∧ (s.fpuWrite a v n).fpu = s.fpu := by
  unfold State.FpuStored State.fpuWrite
  cases hf : s.run.feed with
  | some bs => exact ⟨⟨fun _ => rfl, rfl, rfl, rfl, rfl, ⟨rfl, rfl⟩, rfl, rfl, fun _ => .refl s⟩, rfl⟩
  | none =>
    obtain ⟨⟨b1, b2, b3⟩, m⟩ := s.fpuStoreBytes_spec a v n hn
    exact ⟨⟨m, b1, b2.2, b3⟩, b2.1⟩

/-! ### An ESC with a coprocessor that is not busy -/

theorem escReg_ready {s : State} (h : s.FpuReady) (n : Bool) (x second : Nat) (k : State → Result) :
    escReg n x second s k = k (s.noteEp x second) := by
  have p : s.plat.hasVm87 = true := h.1
  simp [escReg, p, h.2]

theorem escSrc_ready {s : State} (h : s.FpuReady) (x y n : Nat) (m : MemOp) (k : Nat → State → Result) :
    escSrc x y n m s k = k (s.fpuSource m n).1 (((s.fpuSource m n).2.noteEp x (escByte y m)).noteOperand (s.escAddr m)) := by
  have p : s.plat.hasVm87 = true := h.1
  simp [escSrc, p, h.2]

theorem escDst_ready {s : State} (h : s.FpuReady) (n : Bool) (x y : Nat) (m : MemOp) (k : Nat → State → Result) :
    escDst n x y m s k =
      k (s.escAddr m) (((s.escRead m).noteEp x (escByte y m)).noteOperand (s.escAddr m)) := by
  have p : s.plat.hasVm87 = true := h.1
  simp [escDst, p, h.2]

/-- The CPU's dummy read of a destination changes nothing but devices (47_vm87_instructions.md R462). -/
theorem State.escRead_quiet (s : State) (m : MemOp) : s.Quiet (s.escRead m) := by
  unfold State.escRead
  split
  · exact .refl s
  · exact s.readOp_quiet .word m

theorem State.noteEp_core (s : State) (x second : Nat) : (s.noteEp x second).fpu.core = s.fpu.core := rfl

/-- The exception pointers that an ESC notes (10_state.md R57). -/
theorem State.noteEp_fpu (s : State) (x second : Nat) :
    (s.noteEp x second).fpu.epOpcode = BitVec.ofNat 11 (x * 256 + second) ∧
    (s.cpu.lead.first = none → (s.noteEp x second).fpu.epInstr = BitVec.ofNat 20 (phys s.cpu.cs s.cpu.instrAddr)) ∧
    (s.noteEp x second).fpu.epOperand = s.fpu.epOperand := by
  refine ⟨rfl, fun h => ?_, rfl⟩
  simp [State.noteEp, h]

/-! ### Conditions -/

/-- Raising a condition writes SR alone (10_state.md R53): its flag, and with its mask 0 the request. -/
theorem Fpu.raise_spec (f : Fpu) (k : Nat) :
    f.raise k = { f with sr := (f.raise k).sr } ∧
      (f.raise k).sr = if bit f.cr k then setBit f.sr k true
        else setBit (setBit (setBit f.sr k true) 7 true) 15 (bit (setBit f.sr k true) 15 || !bit f.cr 7) := by
  unfold Fpu.raise
  dsimp only
  split <;> exact ⟨rfl, rfl⟩

/-- Reacting to a flag without a mask writes SR alone. -/
theorem Fpu.react_spec (f : Fpu) : f.react = { f with sr := f.react.sr } := by
  unfold Fpu.react; split <;> rfl

/-! ### Results of the transcendental instructions -/

/-- A result of FPTAN, FPATAN, FYL2X and FYL2XP1 has neither OE nor UE; where it is not too large it is what a masked UE
delivers, without the flag. -/
theorem FCtl.inRange_spec (c : FCtl) (f : FCtl → FRes) :
    (c.inRange f).oe = false ∧ (c.inRange f).ue = false ∧
    ((f { c with um := true }).oe = false → c.inRange f = { f { c with um := true } with ue := false }) := by
  unfold FCtl.inRange
  dsimp only
  split
  · rename_i h; exact ⟨rfl, rfl, fun a => by simp [a] at h⟩
  · rename_i h; exact ⟨by simpa using h, rfl, fun _ => rfl⟩

/-! ### Registers of the VM87 -/

theorem Bank8.get_set {α : Type} (b : Bank8 α) (i j : BitVec 3) (v : α) :
    (b.set i v).get j = if j = i then v else b.get j := by
  have all : ∀ k : BitVec 3, k = 0 ∨ k = 1 ∨ k = 2 ∨ k = 3 ∨ k = 4 ∨ k = 5 ∨ k = 6 ∨ k = 7 := by decide
  rcases all i with h | h | h | h | h | h | h | h <;> rcases all j with g | g | g | g | g | g | g | g <;> subst h <;>
    subst g <;> rfl

end Sys2Proof.Machine
end

