-- ==== Sys2Proof/Laws/Interrupt.lean ====
section
/-! SUPPORT. What the interrupt entry sequence and the return from it do (60_exceptions.md R812, R815). -/

namespace Sys2Proof.Machine

theorem stackAddr_add (ss sp : Word) (j k : Nat) : stackAddr ss sp (j + k) = stackAddr ss (sp + BitVec.ofNat 16 j) k := by
  unfold stackAddr; rw [BitVec.add_assoc, BitVec.ofNat_add]

/-- Six bytes of the stack lie at different addresses. -/
theorem stackAddr_inj {ss sp : Word} {j k : Nat} (hj : j < 6) (hk : k < 6) (h : stackAddr ss sp j = stackAddr ss sp k) :
    j = k := by
  have := phys_inj h
  have := congrArg BitVec.toNat this
  simp [BitVec.toNat_add] at this
  have := sp.isLt
  omega

theorem State.pushFlags_spec (s : State) :
    ∃ fl : Word, Flags.ofWord fl = s.cpu.f ∧
      s.Stores s.pushFlags { s.cpu with sp := s.cpu.sp - 2#16 } 2 (stackAddr s.cpu.ss (s.cpu.sp - 2#16)) fl.toNat := by
  refine ⟨_, Flags.ofWord_toWord s.cpu.f (Config.freeWord s.free), ?_⟩
  have p := s.bump.push16_spec (s.cpu.f.toWord (Config.freeWord s.free))
  exact ⟨p.1, p.2.1, s.bump_quiet.2.2.trans p.2.2⟩

/-- The bytes of a store of two parts, the second below the first. -/
theorem State.StoredAt.both {s t u : State} {m n : Nat} {ss sp : Word} {v w : Nat} (hp : t.plat = s.plat) (hm : m + n ≤ 6)
    (hw : w < 256 ^ n)
    (h : s.StoredAt t m (stackAddr ss (sp + BitVec.ofNat 16 n)) v) (g : t.StoredAt u n (stackAddr ss sp) w) :
    s.StoredAt u (m + n) (stackAddr ss sp) (w + 256 ^ n * v) := by
  have above : ∀ k, n ≤ k → stackAddr ss sp k = stackAddr ss (sp + BitVec.ofNat 16 n) (k - n) := by
    intro k hk; rw [← stackAddr_add]; congr 1; omega
  have keep : ∀ k, k < m + n → n ≤ k → u.byteAt (stackAddr ss sp k) = t.byteAt (stackAddr ss sp k) := fun k hk hn =>
    g.1 _ fun j hj e => by have := stackAddr_inj (by omega) (by omega) e; omega
  refine ⟨fun a ha => ?_, fun k hk hr => ?_, fun k hk hr => ?_⟩
  · refine (g.1 a fun k hk => ha k (by omega)).trans (h.1 a fun k hk => ?_)
    rw [← stackAddr_add]; exact ha _ (by omega)
  · by_cases hn : k < n
    · rw [g.2.1 k hn (by rw [State.isRam_congr hp]; exact hr)]
      apply BitVec.eq_of_toNat_eq
      simp only [BitVec.toNat_ofNat]
      obtain ⟨d, rfl⟩ : ∃ d, n = k + 1 + d := ⟨n - k - 1, by omega⟩
      have : (w + 256 ^ (k + 1 + d) * v) / 256 ^ k = w / 256 ^ k + 256 * (256 ^ d * v) := by
        rw [show 256 ^ (k + 1 + d) * v = 256 ^ k * (256 * (256 ^ d * v)) by ring]
        exact Nat.add_mul_div_left _ _ (by positivity)
      rw [this]; omega
    · rw [keep k hk (by omega)]
      rw [above k (by omega)] at hr ⊢
      rw [h.2.1 (k - n) (by omega) hr]
      have : (w + 256 ^ n * v) / 256 ^ k = v / 256 ^ (k - n) := by
        obtain ⟨d, rfl⟩ : ∃ d, k = n + d := ⟨k - n, by omega⟩
        rw [pow_add, ← Nat.div_div_eq_div_mul, Nat.add_mul_div_left _ _ (by positivity), Nat.div_eq_of_lt hw]
        simp
      rw [this]
  · by_cases hn : k < n
    · rw [g.2.2 k hn (by rw [State.isRam_congr hp]; exact hr)]
      refine h.1 _ fun j hj e => ?_
      rw [← stackAddr_add] at e
      have := stackAddr_inj (by omega) (by omega) e; omega
    · rw [keep k hk (by omega)]
      rw [above k (by omega)] at hr ⊢
      exact h.2.2 (k - n) (by omega) hr

/-- Every segment and pointer register is the same under `Cpu.core`. -/
theorem Cpu.core_regs {c d : Cpu} (h : c.core = d.core) :
    c.ss = d.ss ∧ c.sp = d.sp ∧ c.cs = d.cs ∧ c.ip = d.ip ∧ c.f = d.f :=
  by rw [Cpu.core_eq h]; exact ⟨rfl, rfl, rfl, rfl, rfl⟩

/-- A push after a push: the bytes of both lie together. -/
theorem State.StoredAt.pushed {s t u : State} {m : Nat} {ss sp : Word} {v : Nat} {w : Word} (hp : t.plat = s.plat)
    (hm : m + 2 ≤ 6) (h : s.StoredAt t m (stackAddr ss sp) v) (g : t.StoredAt u 2 (stackAddr ss (sp - 2#16)) w.toNat) :
    s.StoredAt u (m + 2) (stackAddr ss (sp - 2#16)) (w.toNat + 2 ^ 16 * v) := by
  have e : sp = sp - 2#16 + BitVec.ofNat 16 2 := by rw [BitVec.sub_add_cancel]
  have := State.StoredAt.both (sp := sp - 2#16) (n := 2) hp hm (by have := w.isLt; norm_num; omega) (by rw [← e]; exact h) g
  exact this

theorem State.saveReturn_spec (s : State) :
    ∃ fl : Word, Flags.ofWord fl = s.cpu.f ∧
      s.StoredAt s.saveReturn 6 (stackAddr s.cpu.ss (s.cpu.sp - 6#16))
        (s.cpu.ip.toNat + 2 ^ 16 * s.cpu.cs.toNat + 2 ^ 32 * fl.toNat) ∧
      s.saveReturn.cpu.core =
        ({ s.cpu with sp := s.cpu.sp - 6#16, f := { s.cpu.f with ifl := false, tf := false } } : Cpu).core ∧
      s.SameBeyondBus s.saveReturn := by
  obtain ⟨fl, hfl, k1, st1, b1⟩ := s.pushFlags_spec
  refine ⟨fl, hfl, ?_⟩
  have e : s.saveReturn =
      (((s.pushFlags.setFlags { s.pushFlags.cpu.f with ifl := false, tf := false }).push16
        (s.pushFlags.setFlags { s.pushFlags.cpu.f with ifl := false, tf := false }).cpu.cs).push16
        ((s.pushFlags.setFlags { s.pushFlags.cpu.f with ifl := false, tf := false }).push16
          (s.pushFlags.setFlags { s.pushFlags.cpu.f with ifl := false, tf := false }).cpu.cs).cpu.ip) := rfl
  rw [e]; clear e
  generalize s.pushFlags = s1 at *
  generalize hs2 : s1.setFlags { s1.cpu.f with ifl := false, tf := false } = s2
  have k2 : s2.cpu.core =
      ({ s.cpu with sp := s.cpu.sp - 2#16, f := { s.cpu.f with ifl := false, tf := false } } : Cpu).core := by
    rw [← hs2, State.setFlags_cpu, Cpu.core_eq k1]; rfl
  have st2 : s.StoredAt s2 2 (stackAddr s.cpu.ss (s.cpu.sp - 2#16)) fl.toNat := by rw [← hs2]; exact st1
  have b2 : s.SameBeyondBus s2 := by rw [← hs2]; exact b1
  clear hs2 k1 st1 b1
  obtain ⟨r1, r2, r3, r4, r5⟩ := Cpu.core_regs k2
  obtain ⟨k3, st3, b3⟩ := s2.push16_spec s2.cpu.cs
  generalize s2.push16 s2.cpu.cs = s3 at *
  obtain ⟨q1, q2, q3, q4, q5⟩ := Cpu.core_regs k3
  obtain ⟨k4, st4, b4⟩ := s3.push16_spec s3.cpu.ip
  generalize s3.push16 s3.cpu.ip = s4 at *
  have p2 : s2.plat = s.plat := b2.2.2.2.2.1
  have p3 : s3.plat = s.plat := b3.2.2.2.2.1.trans p2
  rw [r1, r2, r3] at st3
  have st34 := State.StoredAt.pushed p2 (by norm_num) st2 st3
  rw [q1, q2, q4] at st4
  simp only [r1, r2, r4] at st4
  have st := State.StoredAt.pushed p3 (by norm_num) st34 st4
  have e : s.cpu.sp - 2#16 - 2#16 - 2#16 = s.cpu.sp - 6#16 := by
    simp only [BitVec.sub_eq_add_neg, BitVec.add_assoc]; rfl
  rw [e] at st
  refine ⟨?_, ?_, b2.trans (b3.trans b4)⟩
  · convert st using 1
    ring
  · rw [k4, Cpu.core_eq k3, Cpu.core_eq k2]
    simp only [Cpu.core, e]

/-- Two words read one after the other. -/
theorem State.read_two (s : State) (a b c d : Nat) :
    s.Quiet ((s.read16p a b).2.read16p c d).2 ∧
    (s.isMemory a = true → s.isMemory b = true → (s.read16p a b).1 = wordOf (s.byteAt a) (s.byteAt b)) ∧
    (s.isMemory c = true → s.isMemory d = true →
      ((s.read16p a b).2.read16p c d).1 = wordOf (s.byteAt c) (s.byteAt d)) := by
  have q := s.read16p_quiet a b
  refine ⟨q.trans (State.read16p_quiet _ _ _), fun h g => by rw [s.read16p_memory h g], fun h g => ?_⟩
  have hp : (s.read16p a b).2.plat = s.plat := q.2.2.2.2.2.2.1
  rw [State.read16p_memory _ (by rw [State.isMemory_congr hp]; exact h) (by rw [State.isMemory_congr hp]; exact g),
    q.bytes, q.bytes]

theorem State.enterVector_spec (s : State) (n : Byte) :
    s.BytesAre .word (fun k => 4 * n.toNat + k) (s.enterVector n).cpu.ip ∧
    s.BytesAre .word (fun k => 4 * n.toNat + 2 + k) (s.enterVector n).cpu.cs ∧
    (s.enterVector n).cpu =
      { s.cpu with cs := (s.enterVector n).cpu.cs, ip := (s.enterVector n).cpu.ip, stale := [], ahead := [], halted := false } ∧
    s.SameBytes (s.enterVector n) ∧ s.SameBeyondBus (s.enterVector n) := by
  obtain ⟨q, v, w⟩ := s.read_two (4 * n.toNat) (4 * n.toNat + 1) (4 * n.toNat + 2) (4 * n.toNat + 3)
  unfold State.enterVector
  generalize s.read16p (4 * n.toNat) (4 * n.toNat + 1) = x at *
  dsimp only at *
  generalize x.2.read16p (4 * n.toNat + 2) (4 * n.toNat + 3) = y at *
  refine ⟨v, w, ?_, fun a => q.bytes a, q.2.2⟩
  rw [State.jumpFar_cpu, q.1]

/-- The entry sequence of interrupt `n` (60_exceptions.md R812). -/
theorem State.interrupt_spec (s : State) (n : Byte) : s.Enters (s.interrupt n) s.cpu n := by
  obtain ⟨fl, hfl, st, k, b⟩ := s.saveReturn_spec
  obtain ⟨v, w, c, m, d⟩ := s.saveReturn.enterVector_spec n
  have e : s.interrupt n = s.saveReturn.enterVector n := rfl
  rw [e]; clear e
  generalize s.saveReturn.enterVector n = t at *
  generalize s.saveReturn = s4 at *
  have hp : s4.plat = t.plat := d.2.2.2.2.1.symm
  refine ⟨fl, hfl, ?_, ?_, ?_, ?_, b.trans d⟩
  · exact ⟨fun a ha => (m a).trans (st.1 a ha), fun k hk hr => (m _).trans (st.2.1 k hk hr),
      fun k hk hr => (m _).trans (st.2.2 k hk hr)⟩
  · rw [c, Cpu.core_eq k]
    rfl
  · intro h1 h2
    rw [← State.isMemory_congr hp] at h1 h2
    rw [m, m]
    exact v h1 h2
  · intro h1 h2
    rw [← State.isMemory_congr hp] at h1 h2
    rw [m, m]
    exact w h1 h2

end Sys2Proof.Machine
end

