-- ==== Sys2Proof/Laws/PerInstr.lean ====
section
/-! SUPPORT. What holds of every instruction as syntax, one lemma per constructor: an encoding has one to six bytes. -/

namespace Sys2Proof.Laws.Encoding

/-- The length of an instruction of the three processors (30_encoding.md R150, 48_vm89_iop.md R590). -/
def Fits (bytes : List Byte) : Prop := 1 ≤ bytes.length ∧ bytes.length ≤ 6

/-- The encoding of an instruction has one to six bytes. -/
def Statement (i : Instr) : Prop := Fits (encode i)

theorem rm_length (g : Nat) (rm : RM) : (encodeRm g rm).length ≤ 3 := by
  match rm with
  | .reg _ => simp [encodeRm]
  | .mem (.direct _) => simp [encodeRm, wordBytes]
  | .mem (.noDisp _) => simp [encodeRm]
  | .mem (.disp8 _ _) => simp [encodeRm]
  | .mem (.disp16 _ _) => simp [encodeRm, wordBytes]

theorem imm_length (v : Imm) : v.bytes.length ≤ 2 := by cases v <;> simp [Imm.bytes, wordBytes]

theorem aluImm_length (v : AluImm) : v.bytes.length ≤ 2 := by cases v <;> simp [AluImm.bytes, wordBytes]

theorem off_length (m : IMem) : m.offBytes.length ≤ 1 := by cases m <;> simp [IMem.offBytes]

theorem of_one (a : Byte) : Fits [a] := by simp [Fits]

theorem of_two (a b : Byte) : Fits [a, b] := by simp [Fits]

theorem of_tail (a : Byte) (t : List Byte) (h : t.length ≤ 5) : Fits (a :: t) := by simp [Fits]; omega

theorem of_rm (a : Byte) (g : Nat) (rm : RM) : Fits (a :: encodeRm g rm) :=
  of_tail a _ (by have := rm_length g rm; omega)

theorem of_rmTail (a : Byte) (g : Nat) (rm : RM) (t : List Byte) (h : t.length ≤ 2) : Fits (a :: (encodeRm g rm ++ t)) :=
  of_tail a _ (by have := rm_length g rm; simp; omega)

theorem of_imemTail (r b w o : Nat) (m : IMem) (t : List Byte) (h : t.length ≤ 3) : Fits (encIMem r b w o m ++ t) := by
  have := off_length m
  simp [Fits, encIMem]; omega

theorem of_imem (r b w o : Nat) (m : IMem) : Fits (encIMem r b w o m) := by
  simpa using of_imemTail r b w o m [] (by simp)

theorem of_imemTail2 (r b w o : Nat) (m : IMem) (x y : Byte) : Fits (encIMem r b w o m ++ [x] ++ [y]) := by
  simpa using of_imemTail r b w o m [x, y] (by simp)

theorem of_imem2 (r b w o r' b' w' o' : Nat) (m n : IMem) : Fits (encIMem r b w o m ++ encIMem r' b' w' o' n) :=
  of_imemTail r b w o m _ (by have := off_length n; simp [encIMem]; omega)

theorem of_iregTail (r b w o : Nat) (t : List Byte) (h : t.length ≤ 4) : Fits (encIReg r b w o ++ t) := by
  simp [Fits, encIReg]; omega

theorem of_iregTail2 (r b w o : Nat) (x y : Word) : Fits (encIReg r b w o ++ wordBytes x ++ wordBytes y) := by
  simp [Fits, encIReg, wordBytes]

theorem movRmR (d : Dir) (w : Width) (r : GReg) (rm : RM) : Statement (.movRmR d w r rm) := of_rm _ _ _
theorem movRmImm (rm : RM) (v : Imm) : Statement (.movRmImm rm v) := of_rmTail _ _ _ _ (imm_length v)
theorem movRImm (r : GReg) (v : Imm) : Statement (.movRImm r v) := of_tail _ _ (by have := imm_length v; omega)
theorem movAcc (d : Dir) (w : Width) (a : Word) : Statement (.movAcc d w a) := of_tail _ _ (by simp [wordBytes])
theorem movSrRm (sr : SReg) (rm : RM) : Statement (.movSrRm sr rm) := of_rm _ _ _
theorem movRmSr (sr : SReg) (rm : RM) : Statement (.movRmSr sr rm) := of_rm _ _ _
theorem xchgRRm (w : Width) (r : GReg) (rm : RM) : Statement (.xchgRRm w r rm) := of_rm _ _ _
theorem xchgAxR (r : GReg) : Statement (.xchgAxR r) := of_one _
theorem nop : Statement .nop := of_one _
theorem xlat : Statement .xlat := of_one _
theorem lea (r : GReg) (m : MemOp) : Statement (.lea r m) := of_rm _ _ _
theorem lds (r : GReg) (m : MemOp) : Statement (.lds r m) := of_rm _ _ _
theorem les (r : GReg) (m : MemOp) : Statement (.les r m) := of_rm _ _ _
theorem lahf : Statement .lahf := of_one _
theorem sahf : Statement .sahf := of_one _
theorem pushRm (rm : RM) : Statement (.pushRm rm) := of_rm _ _ _
theorem pushR (r : GReg) : Statement (.pushR r) := of_one _
theorem pushSr (sr : SReg) : Statement (.pushSr sr) := of_one _
theorem popRm (rm : RM) : Statement (.popRm rm) := of_rm _ _ _
theorem popR (r : GReg) : Statement (.popR r) := of_one _
theorem popSr (sr : SReg) : Statement (.popSr sr) := of_one _
theorem pushf : Statement .pushf := of_one _
theorem popf : Statement .popf := of_one _
theorem inPort (w : Width) (p : Byte) : Statement (.inPort w p) := of_two _ _
theorem inDx (w : Width) : Statement (.inDx w) := of_one _
theorem outPort (w : Width) (p : Byte) : Statement (.outPort w p) := of_two _ _
theorem outDx (w : Width) : Statement (.outDx w) := of_one _
theorem addRmR (d : Dir) (w : Width) (r : GReg) (rm : RM) : Statement (.addRmR d w r rm) := of_rm _ _ _
theorem addRmImm (rm : RM) (v : AluImm) : Statement (.addRmImm rm v) := of_rmTail _ _ _ _ (aluImm_length v)
theorem addAccImm (v : Imm) : Statement (.addAccImm v) := of_tail _ _ (by have := imm_length v; omega)
theorem adcRmR (d : Dir) (w : Width) (r : GReg) (rm : RM) : Statement (.adcRmR d w r rm) := of_rm _ _ _
theorem adcRmImm (rm : RM) (v : AluImm) : Statement (.adcRmImm rm v) := of_rmTail _ _ _ _ (aluImm_length v)
theorem adcAccImm (v : Imm) : Statement (.adcAccImm v) := of_tail _ _ (by have := imm_length v; omega)
theorem subRmR (d : Dir) (w : Width) (r : GReg) (rm : RM) : Statement (.subRmR d w r rm) := of_rm _ _ _
theorem subRmImm (rm : RM) (v : AluImm) : Statement (.subRmImm rm v) := of_rmTail _ _ _ _ (aluImm_length v)
theorem subAccImm (v : Imm) : Statement (.subAccImm v) := of_tail _ _ (by have := imm_length v; omega)
theorem sbbRmR (d : Dir) (w : Width) (r : GReg) (rm : RM) : Statement (.sbbRmR d w r rm) := of_rm _ _ _
theorem sbbRmImm (rm : RM) (v : AluImm) : Statement (.sbbRmImm rm v) := of_rmTail _ _ _ _ (aluImm_length v)
theorem sbbAccImm (v : Imm) : Statement (.sbbAccImm v) := of_tail _ _ (by have := imm_length v; omega)
theorem cmpRmR (d : Dir) (w : Width) (r : GReg) (rm : RM) : Statement (.cmpRmR d w r rm) := of_rm _ _ _
theorem cmpRmImm (rm : RM) (v : AluImm) : Statement (.cmpRmImm rm v) := of_rmTail _ _ _ _ (aluImm_length v)
theorem cmpAccImm (v : Imm) : Statement (.cmpAccImm v) := of_tail _ _ (by have := imm_length v; omega)
theorem incRm (w : Width) (rm : RM) : Statement (.incRm w rm) := of_rm _ _ _
theorem incR (r : GReg) : Statement (.incR r) := of_one _
theorem decRm (w : Width) (rm : RM) : Statement (.decRm w rm) := of_rm _ _ _
theorem decR (r : GReg) : Statement (.decR r) := of_one _
theorem negRm (w : Width) (rm : RM) : Statement (.negRm w rm) := of_rm _ _ _
theorem mulRm (w : Width) (rm : RM) : Statement (.mulRm w rm) := of_rm _ _ _
theorem imulRm (w : Width) (rm : RM) : Statement (.imulRm w rm) := of_rm _ _ _
theorem divRm (w : Width) (rm : RM) : Statement (.divRm w rm) := of_rm _ _ _
theorem idivRm (w : Width) (rm : RM) : Statement (.idivRm w rm) := of_rm _ _ _
theorem cbw : Statement .cbw := of_one _
theorem cwd : Statement .cwd := of_one _
theorem daa : Statement .daa := of_one _
theorem das : Statement .das := of_one _
theorem aaa : Statement .aaa := of_one _
theorem aas : Statement .aas := of_one _
theorem aam : Statement .aam := of_two _ _
theorem aad : Statement .aad := of_two _ _
theorem andRmR (d : Dir) (w : Width) (r : GReg) (rm : RM) : Statement (.andRmR d w r rm) := of_rm _ _ _
theorem andRmImm (rm : RM) (v : Imm) : Statement (.andRmImm rm v) := of_rmTail _ _ _ _ (imm_length v)
theorem andAccImm (v : Imm) : Statement (.andAccImm v) := of_tail _ _ (by have := imm_length v; omega)
theorem orRmR (d : Dir) (w : Width) (r : GReg) (rm : RM) : Statement (.orRmR d w r rm) := of_rm _ _ _
theorem orRmImm (rm : RM) (v : Imm) : Statement (.orRmImm rm v) := of_rmTail _ _ _ _ (imm_length v)
theorem orAccImm (v : Imm) : Statement (.orAccImm v) := of_tail _ _ (by have := imm_length v; omega)
theorem xorRmR (d : Dir) (w : Width) (r : GReg) (rm : RM) : Statement (.xorRmR d w r rm) := of_rm _ _ _
theorem xorRmImm (rm : RM) (v : Imm) : Statement (.xorRmImm rm v) := of_rmTail _ _ _ _ (imm_length v)
theorem xorAccImm (v : Imm) : Statement (.xorAccImm v) := of_tail _ _ (by have := imm_length v; omega)
theorem testRmR (w : Width) (r : GReg) (rm : RM) : Statement (.testRmR w r rm) := of_rm _ _ _
theorem testRmImm (rm : RM) (v : Imm) : Statement (.testRmImm rm v) := of_rmTail _ _ _ _ (imm_length v)
theorem testAccImm (v : Imm) : Statement (.testAccImm v) := of_tail _ _ (by have := imm_length v; omega)
theorem notRm (w : Width) (rm : RM) : Statement (.notRm w rm) := of_rm _ _ _
theorem rolRm (c : ShiftCount) (w : Width) (rm : RM) : Statement (.rolRm c w rm) := of_rm _ _ _
theorem rorRm (c : ShiftCount) (w : Width) (rm : RM) : Statement (.rorRm c w rm) := of_rm _ _ _
theorem rclRm (c : ShiftCount) (w : Width) (rm : RM) : Statement (.rclRm c w rm) := of_rm _ _ _
theorem rcrRm (c : ShiftCount) (w : Width) (rm : RM) : Statement (.rcrRm c w rm) := of_rm _ _ _
theorem shlRm (c : ShiftCount) (w : Width) (rm : RM) : Statement (.shlRm c w rm) := of_rm _ _ _
theorem shrRm (c : ShiftCount) (w : Width) (rm : RM) : Statement (.shrRm c w rm) := of_rm _ _ _
theorem sarRm (c : ShiftCount) (w : Width) (rm : RM) : Statement (.sarRm c w rm) := of_rm _ _ _
theorem movs (w : Width) : Statement (.movs w) := of_one _
theorem cmps (w : Width) : Statement (.cmps w) := of_one _
theorem scas (w : Width) : Statement (.scas w) := of_one _
theorem lods (w : Width) : Statement (.lods w) := of_one _
theorem stos (w : Width) : Statement (.stos w) := of_one _
theorem repPrefix (z : Bool) : Statement (.repPrefix z) := of_one _
theorem jmpShort (rel : Byte) : Statement (.jmpShort rel) := of_two _ _
theorem jmpNear (rel : Word) : Statement (.jmpNear rel) := of_tail _ _ (by simp [wordBytes])
theorem jmpRm (rm : RM) : Statement (.jmpRm rm) := of_rm _ _ _
theorem jmpFar (off : Word) (seg : Word) : Statement (.jmpFar off seg) := of_tail _ _ (by simp [wordBytes])
theorem jmpMem (m : MemOp) : Statement (.jmpMem m) := of_rm _ _ _
theorem callNear (rel : Word) : Statement (.callNear rel) := of_tail _ _ (by simp [wordBytes])
theorem callRm (rm : RM) : Statement (.callRm rm) := of_rm _ _ _
theorem callFar (off : Word) (seg : Word) : Statement (.callFar off seg) := of_tail _ _ (by simp [wordBytes])
theorem callMem (m : MemOp) : Statement (.callMem m) := of_rm _ _ _
theorem retNear : Statement .retNear := of_one _
theorem retFar : Statement .retFar := of_one _
theorem retNearImm (n : Word) : Statement (.retNearImm n) := of_tail _ _ (by simp [wordBytes])
theorem retFarImm (n : Word) : Statement (.retFarImm n) := of_tail _ _ (by simp [wordBytes])
theorem jo (rel : Byte) : Statement (.jo rel) := of_two _ _
theorem jno (rel : Byte) : Statement (.jno rel) := of_two _ _
theorem jb (rel : Byte) : Statement (.jb rel) := of_two _ _
theorem jnb (rel : Byte) : Statement (.jnb rel) := of_two _ _
theorem je (rel : Byte) : Statement (.je rel) := of_two _ _
theorem jne (rel : Byte) : Statement (.jne rel) := of_two _ _
theorem jbe (rel : Byte) : Statement (.jbe rel) := of_two _ _
theorem ja (rel : Byte) : Statement (.ja rel) := of_two _ _
theorem js (rel : Byte) : Statement (.js rel) := of_two _ _
theorem jns (rel : Byte) : Statement (.jns rel) := of_two _ _
theorem jp (rel : Byte) : Statement (.jp rel) := of_two _ _
theorem jnp (rel : Byte) : Statement (.jnp rel) := of_two _ _
theorem jl (rel : Byte) : Statement (.jl rel) := of_two _ _
theorem jge (rel : Byte) : Statement (.jge rel) := of_two _ _
theorem jle (rel : Byte) : Statement (.jle rel) := of_two _ _
theorem jg (rel : Byte) : Statement (.jg rel) := of_two _ _
theorem loopne (rel : Byte) : Statement (.loopne rel) := of_two _ _
theorem loope (rel : Byte) : Statement (.loope rel) := of_two _ _
theorem loop (rel : Byte) : Statement (.loop rel) := of_two _ _
theorem jcxz (rel : Byte) : Statement (.jcxz rel) := of_two _ _
theorem intN (n : Byte) : Statement (.intN n) := of_two _ _
theorem int3 : Statement .int3 := of_one _
theorem into : Statement .into := of_one _
theorem iret : Statement .iret := of_one _
theorem clc : Statement .clc := of_one _
theorem stc : Statement .stc := of_one _
theorem cmc : Statement .cmc := of_one _
theorem cld : Statement .cld := of_one _
theorem std : Statement .std := of_one _
theorem cli : Statement .cli := of_one _
theorem sti : Statement .sti := of_one _
theorem hlt : Statement .hlt := of_one _
theorem wait : Statement .wait := of_one _
theorem esc (x : BitVec 3) (y : BitVec 3) (rm : RM) : Statement (.esc x y rm) := of_rm _ _ _
theorem lockPrefix : Statement .lockPrefix := of_one _
theorem segPrefix (sr : SReg) : Statement (.segPrefix sr) := of_one _
theorem fldM32 (m : MemOp) : Statement (.fldM32 m) := of_rm _ _ _
theorem fldM64 (m : MemOp) : Statement (.fldM64 m) := of_rm _ _ _
theorem fldM80 (m : MemOp) : Statement (.fldM80 m) := of_rm _ _ _
theorem fldSti (i : BitVec 3) : Statement (.fldSti i) := of_two _ _
theorem fildM16i (m : MemOp) : Statement (.fildM16i m) := of_rm _ _ _
theorem fildM32i (m : MemOp) : Statement (.fildM32i m) := of_rm _ _ _
theorem fildM64i (m : MemOp) : Statement (.fildM64i m) := of_rm _ _ _
theorem fbldM80 (m : MemOp) : Statement (.fbldM80 m) := of_rm _ _ _
theorem fstM32 (m : MemOp) : Statement (.fstM32 m) := of_rm _ _ _
theorem fstM64 (m : MemOp) : Statement (.fstM64 m) := of_rm _ _ _
theorem fstSti (i : BitVec 3) : Statement (.fstSti i) := of_two _ _
theorem fistM16i (m : MemOp) : Statement (.fistM16i m) := of_rm _ _ _
theorem fistM32i (m : MemOp) : Statement (.fistM32i m) := of_rm _ _ _
theorem fstpM32 (m : MemOp) : Statement (.fstpM32 m) := of_rm _ _ _
theorem fstpM64 (m : MemOp) : Statement (.fstpM64 m) := of_rm _ _ _
theorem fstpM80 (m : MemOp) : Statement (.fstpM80 m) := of_rm _ _ _
theorem fstpSti (i : BitVec 3) : Statement (.fstpSti i) := of_two _ _
theorem fistpM16i (m : MemOp) : Statement (.fistpM16i m) := of_rm _ _ _
theorem fistpM32i (m : MemOp) : Statement (.fistpM32i m) := of_rm _ _ _
theorem fistpM64i (m : MemOp) : Statement (.fistpM64i m) := of_rm _ _ _
theorem fbstpM80 (m : MemOp) : Statement (.fbstpM80 m) := of_rm _ _ _
theorem fxchSti (i : BitVec 3) : Statement (.fxchSti i) := of_two _ _
theorem fldz : Statement .fldz := of_two _ _
theorem fld1 : Statement .fld1 := of_two _ _
theorem fldpi : Statement .fldpi := of_two _ _
theorem fldl2t : Statement .fldl2t := of_two _ _
theorem fldl2e : Statement .fldl2e := of_two _ _
theorem fldlg2 : Statement .fldlg2 := of_two _ _
theorem fldln2 : Statement .fldln2 := of_two _ _
theorem fcomM32 (m : MemOp) : Statement (.fcomM32 m) := of_rm _ _ _
theorem fcomM64 (m : MemOp) : Statement (.fcomM64 m) := of_rm _ _ _
theorem fcomSti (i : BitVec 3) : Statement (.fcomSti i) := of_two _ _
theorem ficomM16i (m : MemOp) : Statement (.ficomM16i m) := of_rm _ _ _
theorem ficomM32i (m : MemOp) : Statement (.ficomM32i m) := of_rm _ _ _
theorem fcompM32 (m : MemOp) : Statement (.fcompM32 m) := of_rm _ _ _
theorem fcompM64 (m : MemOp) : Statement (.fcompM64 m) := of_rm _ _ _
theorem fcompSti (i : BitVec 3) : Statement (.fcompSti i) := of_two _ _
theorem ficompM16i (m : MemOp) : Statement (.ficompM16i m) := of_rm _ _ _
theorem ficompM32i (m : MemOp) : Statement (.ficompM32i m) := of_rm _ _ _
theorem fcompp : Statement .fcompp := of_two _ _
theorem ftst : Statement .ftst := of_two _ _
theorem fxam : Statement .fxam := of_two _ _
theorem faddM32 (m : MemOp) : Statement (.faddM32 m) := of_rm _ _ _
theorem faddM64 (m : MemOp) : Statement (.faddM64 m) := of_rm _ _ _
theorem faddStSti (i : BitVec 3) : Statement (.faddStSti i) := of_two _ _
theorem faddStiSt (i : BitVec 3) : Statement (.faddStiSt i) := of_two _ _
theorem fiaddM16i (m : MemOp) : Statement (.fiaddM16i m) := of_rm _ _ _
theorem fiaddM32i (m : MemOp) : Statement (.fiaddM32i m) := of_rm _ _ _
theorem faddpStiSt (i : BitVec 3) : Statement (.faddpStiSt i) := of_two _ _
theorem fmulM32 (m : MemOp) : Statement (.fmulM32 m) := of_rm _ _ _
theorem fmulM64 (m : MemOp) : Statement (.fmulM64 m) := of_rm _ _ _
theorem fmulStSti (i : BitVec 3) : Statement (.fmulStSti i) := of_two _ _
theorem fmulStiSt (i : BitVec 3) : Statement (.fmulStiSt i) := of_two _ _
theorem fimulM16i (m : MemOp) : Statement (.fimulM16i m) := of_rm _ _ _
theorem fimulM32i (m : MemOp) : Statement (.fimulM32i m) := of_rm _ _ _
theorem fmulpStiSt (i : BitVec 3) : Statement (.fmulpStiSt i) := of_two _ _
theorem fsubM32 (m : MemOp) : Statement (.fsubM32 m) := of_rm _ _ _
theorem fsubM64 (m : MemOp) : Statement (.fsubM64 m) := of_rm _ _ _
theorem fsubStSti (i : BitVec 3) : Statement (.fsubStSti i) := of_two _ _
theorem fsubStiSt (i : BitVec 3) : Statement (.fsubStiSt i) := of_two _ _
theorem fsubrM32 (m : MemOp) : Statement (.fsubrM32 m) := of_rm _ _ _
theorem fsubrM64 (m : MemOp) : Statement (.fsubrM64 m) := of_rm _ _ _
theorem fsubrStSti (i : BitVec 3) : Statement (.fsubrStSti i) := of_two _ _
theorem fsubrStiSt (i : BitVec 3) : Statement (.fsubrStiSt i) := of_two _ _
theorem fdivM32 (m : MemOp) : Statement (.fdivM32 m) := of_rm _ _ _
theorem fdivM64 (m : MemOp) : Statement (.fdivM64 m) := of_rm _ _ _
theorem fdivStSti (i : BitVec 3) : Statement (.fdivStSti i) := of_two _ _
theorem fdivStiSt (i : BitVec 3) : Statement (.fdivStiSt i) := of_two _ _
theorem fdivrM32 (m : MemOp) : Statement (.fdivrM32 m) := of_rm _ _ _
theorem fdivrM64 (m : MemOp) : Statement (.fdivrM64 m) := of_rm _ _ _
theorem fdivrStSti (i : BitVec 3) : Statement (.fdivrStSti i) := of_two _ _
theorem fdivrStiSt (i : BitVec 3) : Statement (.fdivrStiSt i) := of_two _ _
theorem fsubpStiSt (i : BitVec 3) : Statement (.fsubpStiSt i) := of_two _ _
theorem fsubrpStiSt (i : BitVec 3) : Statement (.fsubrpStiSt i) := of_two _ _
theorem fisubM16i (m : MemOp) : Statement (.fisubM16i m) := of_rm _ _ _
theorem fisubM32i (m : MemOp) : Statement (.fisubM32i m) := of_rm _ _ _
theorem fisubrM16i (m : MemOp) : Statement (.fisubrM16i m) := of_rm _ _ _
theorem fisubrM32i (m : MemOp) : Statement (.fisubrM32i m) := of_rm _ _ _
theorem fdivpStiSt (i : BitVec 3) : Statement (.fdivpStiSt i) := of_two _ _
theorem fdivrpStiSt (i : BitVec 3) : Statement (.fdivrpStiSt i) := of_two _ _
theorem fidivM16i (m : MemOp) : Statement (.fidivM16i m) := of_rm _ _ _
theorem fidivM32i (m : MemOp) : Statement (.fidivM32i m) := of_rm _ _ _
theorem fidivrM16i (m : MemOp) : Statement (.fidivrM16i m) := of_rm _ _ _
theorem fidivrM32i (m : MemOp) : Statement (.fidivrM32i m) := of_rm _ _ _
theorem fsqrt : Statement .fsqrt := of_two _ _
theorem fscale : Statement .fscale := of_two _ _
theorem fprem : Statement .fprem := of_two _ _
theorem frndint : Statement .frndint := of_two _ _
theorem fxtract : Statement .fxtract := of_two _ _
theorem fabs : Statement .fabs := of_two _ _
theorem fchs : Statement .fchs := of_two _ _
theorem fptan : Statement .fptan := of_two _ _
theorem fpatan : Statement .fpatan := of_two _ _
theorem f2xm1 : Statement .f2xm1 := of_two _ _
theorem fyl2x : Statement .fyl2x := of_two _ _
theorem fyl2xp1 : Statement .fyl2xp1 := of_two _ _
theorem fincstp : Statement .fincstp := of_two _ _
theorem fdecstp : Statement .fdecstp := of_two _ _
theorem fnop : Statement .fnop := of_two _ _
theorem finit : Statement .finit := of_two _ _
theorem feni : Statement .feni := of_two _ _
theorem fdisi : Statement .fdisi := of_two _ _
theorem fclex : Statement .fclex := of_two _ _
theorem fldcw (m : MemOp) : Statement (.fldcw m) := of_rm _ _ _
theorem fstcw (m : MemOp) : Statement (.fstcw m) := of_rm _ _ _
theorem fstsw (m : MemOp) : Statement (.fstsw m) := of_rm _ _ _
theorem fstenv (m : MemOp) : Statement (.fstenv m) := of_rm _ _ _
theorem fldenv (m : MemOp) : Statement (.fldenv m) := of_rm _ _ _
theorem fsave (m : MemOp) : Statement (.fsave m) := of_rm _ _ _
theorem frstor (m : MemOp) : Statement (.frstor m) := of_rm _ _ _
theorem ffreeSti (i : BitVec 3) : Statement (.ffreeSti i) := of_two _ _
theorem iMovRegMem (r : IReg) (m : IMem) : Statement (.iMovRegMem r m) := of_imem _ _ _ _ _
theorem iMovMemReg (m : IMem) (r : IReg) : Statement (.iMovMemReg m r) := of_imem _ _ _ _ _
theorem iMovMemMem (src : IMem) (dst : IMem) : Statement (.iMovMemMem src dst) := of_imem2 _ _ _ _ _ _ _ _ _ _
theorem iMovbRegMem (r : IReg) (m : IMem) : Statement (.iMovbRegMem r m) := of_imem _ _ _ _ _
theorem iMovbMemReg (m : IMem) (r : IReg) : Statement (.iMovbMemReg m r) := of_imem _ _ _ _ _
theorem iMovbMemMem (src : IMem) (dst : IMem) : Statement (.iMovbMemMem src dst) := of_imem2 _ _ _ _ _ _ _ _ _ _
theorem iMoviRegData (r : IReg) (v : Word) :
    Statement (.iMoviRegData r v) := of_iregTail _ _ _ _ _ (by simp [wordBytes])
theorem iMoviMemData (m : IMem) (v : Word) :
    Statement (.iMoviMemData m v) := of_imemTail _ _ _ _ _ _ (by simp [wordBytes])
theorem iMovbiRegData (r : IReg) (v : Byte) : Statement (.iMovbiRegData r v) := of_iregTail _ _ _ _ _ (by simp)
theorem iMovbiMemData (m : IMem) (v : Byte) : Statement (.iMovbiMemData m v) := of_imemTail _ _ _ _ _ _ (by simp)
theorem iMovpPtrMem (p : IPtr) (m : IMem) : Statement (.iMovpPtrMem p m) := of_imem _ _ _ _ _
theorem iMovpMemPtr (m : IMem) (p : IPtr) : Statement (.iMovpMemPtr m p) := of_imem _ _ _ _ _
theorem iLpdPtrMem (p : IPtr) (m : IMem) : Statement (.iLpdPtrMem p m) := of_imem _ _ _ _ _
theorem iLpdiPtr (p : IPtr) (off : Word) (seg : Word) : Statement (.iLpdiPtr p off seg) := of_iregTail2 _ _ _ _ _ _
theorem iAddRegMem (r : IReg) (m : IMem) : Statement (.iAddRegMem r m) := of_imem _ _ _ _ _
theorem iAddMemReg (m : IMem) (r : IReg) : Statement (.iAddMemReg m r) := of_imem _ _ _ _ _
theorem iAddbRegMem (r : IReg) (m : IMem) : Statement (.iAddbRegMem r m) := of_imem _ _ _ _ _
theorem iAddbMemReg (m : IMem) (r : IReg) : Statement (.iAddbMemReg m r) := of_imem _ _ _ _ _
theorem iAddiRegData (r : IReg) (v : Word) :
    Statement (.iAddiRegData r v) := of_iregTail _ _ _ _ _ (by simp [wordBytes])
theorem iAddiMemData (m : IMem) (v : Word) :
    Statement (.iAddiMemData m v) := of_imemTail _ _ _ _ _ _ (by simp [wordBytes])
theorem iAddbiRegData (r : IReg) (v : Byte) : Statement (.iAddbiRegData r v) := of_iregTail _ _ _ _ _ (by simp)
theorem iAddbiMemData (m : IMem) (v : Byte) : Statement (.iAddbiMemData m v) := of_imemTail _ _ _ _ _ _ (by simp)
theorem iIncReg (r : IReg) : Statement (.iIncReg r) := of_two _ _
theorem iIncMem (m : IMem) : Statement (.iIncMem m) := of_imem _ _ _ _ _
theorem iIncbMem (m : IMem) : Statement (.iIncbMem m) := of_imem _ _ _ _ _
theorem iDecReg (r : IReg) : Statement (.iDecReg r) := of_two _ _
theorem iDecMem (m : IMem) : Statement (.iDecMem m) := of_imem _ _ _ _ _
theorem iDecbMem (m : IMem) : Statement (.iDecbMem m) := of_imem _ _ _ _ _
theorem iAndRegMem (r : IReg) (m : IMem) : Statement (.iAndRegMem r m) := of_imem _ _ _ _ _
theorem iAndMemReg (m : IMem) (r : IReg) : Statement (.iAndMemReg m r) := of_imem _ _ _ _ _
theorem iAndbRegMem (r : IReg) (m : IMem) : Statement (.iAndbRegMem r m) := of_imem _ _ _ _ _
theorem iAndbMemReg (m : IMem) (r : IReg) : Statement (.iAndbMemReg m r) := of_imem _ _ _ _ _
theorem iAndiRegData (r : IReg) (v : Word) :
    Statement (.iAndiRegData r v) := of_iregTail _ _ _ _ _ (by simp [wordBytes])
theorem iAndiMemData (m : IMem) (v : Word) :
    Statement (.iAndiMemData m v) := of_imemTail _ _ _ _ _ _ (by simp [wordBytes])
theorem iAndbiRegData (r : IReg) (v : Byte) : Statement (.iAndbiRegData r v) := of_iregTail _ _ _ _ _ (by simp)
theorem iAndbiMemData (m : IMem) (v : Byte) : Statement (.iAndbiMemData m v) := of_imemTail _ _ _ _ _ _ (by simp)
theorem iOrRegMem (r : IReg) (m : IMem) : Statement (.iOrRegMem r m) := of_imem _ _ _ _ _
theorem iOrMemReg (m : IMem) (r : IReg) : Statement (.iOrMemReg m r) := of_imem _ _ _ _ _
theorem iOrbRegMem (r : IReg) (m : IMem) : Statement (.iOrbRegMem r m) := of_imem _ _ _ _ _
theorem iOrbMemReg (m : IMem) (r : IReg) : Statement (.iOrbMemReg m r) := of_imem _ _ _ _ _
theorem iOriRegData (r : IReg) (v : Word) :
    Statement (.iOriRegData r v) := of_iregTail _ _ _ _ _ (by simp [wordBytes])
theorem iOriMemData (m : IMem) (v : Word) :
    Statement (.iOriMemData m v) := of_imemTail _ _ _ _ _ _ (by simp [wordBytes])
theorem iOrbiRegData (r : IReg) (v : Byte) : Statement (.iOrbiRegData r v) := of_iregTail _ _ _ _ _ (by simp)
theorem iOrbiMemData (m : IMem) (v : Byte) : Statement (.iOrbiMemData m v) := of_imemTail _ _ _ _ _ _ (by simp)
theorem iNotReg (r : IReg) : Statement (.iNotReg r) := of_two _ _
theorem iNotMem (m : IMem) : Statement (.iNotMem m) := of_imem _ _ _ _ _
theorem iNotRegMem (r : IReg) (m : IMem) : Statement (.iNotRegMem r m) := of_imem _ _ _ _ _
theorem iNotbMem (m : IMem) : Statement (.iNotbMem m) := of_imem _ _ _ _ _
theorem iNotbRegMem (r : IReg) (m : IMem) : Statement (.iNotbRegMem r m) := of_imem _ _ _ _ _
theorem iSetbMem (m : IMem) (b : BitVec 3) : Statement (.iSetbMem m b) := of_imem _ _ _ _ _
theorem iClrMem (m : IMem) (b : BitVec 3) : Statement (.iClrMem m b) := of_imem _ _ _ _ _
theorem iCallMem (m : IMem) (rel : Byte) : Statement (.iCallMem m rel) := of_imemTail _ _ _ _ _ _ (by simp)
theorem iLcallMem (m : IMem) (rel : Word) :
    Statement (.iLcallMem m rel) := of_imemTail _ _ _ _ _ _ (by simp [wordBytes])
theorem iJmp (rel : Byte) : Statement (.iJmp rel) := of_iregTail _ _ _ _ _ (by simp)
theorem iLjmp (rel : Word) : Statement (.iLjmp rel) := of_iregTail _ _ _ _ _ (by simp [wordBytes])
theorem iJzReg (r : IReg) (rel : Byte) : Statement (.iJzReg r rel) := of_iregTail _ _ _ _ _ (by simp)
theorem iJzMem (m : IMem) (rel : Byte) : Statement (.iJzMem m rel) := of_imemTail _ _ _ _ _ _ (by simp)
theorem iLjzReg (r : IReg) (rel : Word) : Statement (.iLjzReg r rel) := of_iregTail _ _ _ _ _ (by simp [wordBytes])
theorem iLjzMem (m : IMem) (rel : Word) : Statement (.iLjzMem m rel) := of_imemTail _ _ _ _ _ _ (by simp [wordBytes])
theorem iJzbMem (m : IMem) (rel : Byte) : Statement (.iJzbMem m rel) := of_imemTail _ _ _ _ _ _ (by simp)
theorem iLjzbMem (m : IMem) (rel : Word) :
    Statement (.iLjzbMem m rel) := of_imemTail _ _ _ _ _ _ (by simp [wordBytes])
theorem iJnzReg (r : IReg) (rel : Byte) : Statement (.iJnzReg r rel) := of_iregTail _ _ _ _ _ (by simp)
theorem iJnzMem (m : IMem) (rel : Byte) : Statement (.iJnzMem m rel) := of_imemTail _ _ _ _ _ _ (by simp)
theorem iLjnzReg (r : IReg) (rel : Word) : Statement (.iLjnzReg r rel) := of_iregTail _ _ _ _ _ (by simp [wordBytes])
theorem iLjnzMem (m : IMem) (rel : Word) :
    Statement (.iLjnzMem m rel) := of_imemTail _ _ _ _ _ _ (by simp [wordBytes])
theorem iJnzbMem (m : IMem) (rel : Byte) : Statement (.iJnzbMem m rel) := of_imemTail _ _ _ _ _ _ (by simp)
theorem iLjnzbMem (m : IMem) (rel : Word) :
    Statement (.iLjnzbMem m rel) := of_imemTail _ _ _ _ _ _ (by simp [wordBytes])
theorem iJmceMem (m : IMem) (rel : Byte) : Statement (.iJmceMem m rel) := of_imemTail _ _ _ _ _ _ (by simp)
theorem iLjmceMem (m : IMem) (rel : Word) :
    Statement (.iLjmceMem m rel) := of_imemTail _ _ _ _ _ _ (by simp [wordBytes])
theorem iJmcneMem (m : IMem) (rel : Byte) : Statement (.iJmcneMem m rel) := of_imemTail _ _ _ _ _ _ (by simp)
theorem iLjmcneMem (m : IMem) (rel : Word) :
    Statement (.iLjmcneMem m rel) := of_imemTail _ _ _ _ _ _ (by simp [wordBytes])
theorem iJbtMem (m : IMem) (b : BitVec 3) (rel : Byte) :
    Statement (.iJbtMem m b rel) := of_imemTail _ _ _ _ _ _ (by simp)
theorem iLjbtMem (m : IMem) (b : BitVec 3) (rel : Word) :
    Statement (.iLjbtMem m b rel) := of_imemTail _ _ _ _ _ _ (by simp [wordBytes])
theorem iJnbtMem (m : IMem) (b : BitVec 3) (rel : Byte) :
    Statement (.iJnbtMem m b rel) := of_imemTail _ _ _ _ _ _ (by simp)
theorem iLjnbtMem (m : IMem) (b : BitVec 3) (rel : Word) :
    Statement (.iLjnbtMem m b rel) := of_imemTail _ _ _ _ _ _ (by simp [wordBytes])
theorem iTslMemData (m : IMem) (v : Byte) (rel : Byte) :
    Statement (.iTslMemData m v rel) := of_imemTail2 _ _ _ _ _ _ _
theorem iWid (src16 : Bool) (dst16 : Bool) : Statement (.iWid src16 dst16) := of_two _ _
theorem iXfer : Statement .iXfer := of_two _ _
theorem iSintr : Statement .iSintr := of_two _ _
theorem iHlt : Statement .iHlt := of_two _ _
theorem iNop : Statement .iNop := of_two _ _

end Sys2Proof.Laws.Encoding
end

