-- ==== Sys2Proof/Tests/Slice0.lean ====
section
/-! SUPPORT. Tests of the model on small states: one word of every row decoded, the terms that are not well-formed, the
worked examples and vectors of 95_test_vectors.md (their numbers stand in the comments), and for each statement with
hypotheses a state that meets them. -/

open Sys2Proof Sys2Proof.Machine

namespace Sys2Proof.Tests

-- one theorem after the other: checked side by side they take more memory than the checker allows
set_option Elab.async false

/-! ### Words and what they stand for -/

/-- Each list of bytes decodes to its instruction, and nothing is left. -/
noncomputable def decodes86 (l : List (List Byte × Instr)) : Bool :=
  l.all fun p => decide ((decode86 p.1).toOption = some (p.2, []))

/-- The same for the VM89. -/
noncomputable def decodes89 (l : List (List Byte × Instr)) : Bool :=
  l.all fun p => decide ((decode89 p.1).toOption = some (p.2, []))

/-- One word of every row (40_data_transfer.md Figs 2.5-2.8); the bits of the table's pattern are written out. -/
theorem test_words_data_transfer : decodes86 [
    ([0b10001010#8, 0b00110110#8, 0xB8#8, 0x18#8], .movRmR .toReg .byte .si (.mem (.direct 0x18B8#16))),
    ([0b11000110#8, 0b00000111#8, 0x3B#8], .movRmImm (.mem (.noDisp .bx)) (.b 0x3B#8)),
    ([0b10110000#8, 0x32#8], .movRImm .ax (.b 0x32#8)),
    ([0b10100001#8, 0x1A#8, 0xD6#8], .movAcc .toReg .word 0xD61A#16),
    ([0b10001110#8, 0b01000011#8, 0x2E#8], .movSrRm .es (.mem (.disp8 .bpDi 0x2E#8))),
    ([0b10001100#8, 0b10011000#8, 0x62#8, 0x3F#8], .movRmSr .ds (.mem (.disp16 .bxSi 0x3F62#16))),
    ([0b10000110#8, 0b11000110#8], .xchgRRm .byte .ax (.reg .si)),
    ([0b10010001#8], .xchgAxR .cx),
    ([0b10010000#8], .nop),
    ([0b11010111#8], .xlat),
    ([0b10001101#8, 0b00011100#8], .lea .bx (.noDisp .si)),
    ([0b11000101#8, 0b01010100#8, 0xD6#8], .lds .dx (.disp8 .si 0xD6#8)),
    ([0b11000100#8, 0b10010001#8, 0xF1#8, 0x9D#8], .les .dx (.disp16 .bxDi 0x9DF1#16)),
    ([0b10011111#8], .lahf),
    ([0b10011110#8], .sahf),
    ([0b11111111#8, 0b00110110#8, 0x88#8, 0x5C#8], .pushRm (.mem (.direct 0x5C88#16))),
    ([0b01010001#8], .pushR .cx),
    ([0b00001110#8], .pushSr .cs),
    ([0b10001111#8, 0b11000101#8], .popRm (.reg .bp)),
    ([0b01011001#8], .popR .cx),
    ([0b00011111#8], .popSr .ds),
    ([0b10011100#8], .pushf),
    ([0b10011101#8], .popf),
    ([0b11100100#8, 0x1E#8], .inPort .byte 0x1E#8),
    ([0b11101100#8], .inDx .byte),
    ([0b11100111#8, 0xDA#8], .outPort .word 0xDA#8),
    ([0b11101111#8], .outDx .word)
  ] = true := by decide +kernel

/-- One word of every row (41_arithmetic.md); the bits of the table's pattern are written out. -/
theorem test_words_arithmetic : decodes86 [
    ([0b00000011#8, 0b01101100#8, 0x7F#8], .addRmR .toReg .word .bp (.mem (.disp8 .si 0x7F#8))),
    ([0b10000000#8, 0b10000010#8, 0xFA#8, 0x7C#8, 0xBA#8], .addRmImm (.mem (.disp16 .bpSi 0x7CFA#16)) (.b 0xBA#8)),
    ([0b00000101#8, 0xDC#8, 0xAF#8], .addAccImm (.w 0xAFDC#16)),
    ([0b00010011#8, 0b00001110#8, 0x73#8, 0x3C#8], .adcRmR .toReg .word .cx (.mem (.direct 0x3C73#16))),
    ([0b10000010#8, 0b00010001#8, 0xD0#8], .adcRmImm (.mem (.noDisp .bxDi)) (.bAlias 0xD0#8)),
    ([0b00010101#8, 0xE8#8, 0xD7#8], .adcAccImm (.w 0xD7E8#16)),
    ([0b00101000#8, 0b11101101#8], .subRmR .toRm .byte .bp (.reg .bp)),
    ([0b10000011#8, 0b10101101#8, 0x4C#8, 0xFE#8, 0x34#8], .subRmImm (.mem (.disp16 .di 0xFE4C#16)) (.sx 0x34#8)),
    ([0b00101100#8, 0x35#8], .subAccImm (.b 0x35#8)),
    ([0b00011010#8, 0b00000110#8, 0x84#8, 0x9E#8], .sbbRmR .toReg .byte .ax (.mem (.direct 0x9E84#16))),
    ([0b10000011#8, 0b00011010#8, 0xAA#8], .sbbRmImm (.mem (.noDisp .bpSi)) (.sx 0xAA#8)),
    ([0b00011100#8, 0x63#8], .sbbAccImm (.b 0x63#8)),
    ([0b00111010#8, 0b01001111#8, 0x1E#8], .cmpRmR .toReg .byte .cx (.mem (.disp8 .bx 0x1E#8))),
    ([0b10000010#8, 0b11111011#8, 0x38#8], .cmpRmImm (.reg .bx) (.bAlias 0x38#8)),
    ([0b00111100#8, 0xB9#8], .cmpAccImm (.b 0xB9#8)),
    ([0b11111111#8, 0b00000110#8, 0x36#8, 0xFE#8], .incRm .word (.mem (.direct 0xFE36#16))),
    ([0b01000001#8], .incR .cx),
    ([0b11111110#8, 0b00001011#8], .decRm .byte (.mem (.noDisp .bpDi))),
    ([0b01001100#8], .decR .sp),
    ([0b11110110#8, 0b01011110#8, 0x8E#8], .negRm .byte (.mem (.disp8 .bp 0x8E#8))),
    ([0b11110111#8, 0b10100101#8, 0xC9#8, 0xC2#8], .mulRm .word (.mem (.disp16 .di 0xC2C9#16))),
    ([0b11110110#8, 0b11101010#8], .imulRm .byte (.reg .dx)),
    ([0b11110110#8, 0b00110001#8], .divRm .byte (.mem (.noDisp .bxDi))),
    ([0b11110110#8, 0b01111011#8, 0x06#8], .idivRm .byte (.mem (.disp8 .bpDi 0x06#8))),
    ([0b10011000#8], .cbw),
    ([0b10011001#8], .cwd),
    ([0b00100111#8], .daa),
    ([0b00101111#8], .das),
    ([0b00110111#8], .aaa),
    ([0b00111111#8], .aas),
    ([0b11010100#8, 0b00001010#8], .aam),
    ([0b11010101#8, 0b00001010#8], .aad)
  ] = true := by decide +kernel

/-- One word of every row (42_logic_shift.md); the bits of the table's pattern are written out. -/
theorem test_words_logic_and_shifts : decodes86 [
    ([0b00100010#8, 0b10100100#8, 0x18#8, 0x02#8], .andRmR .toReg .byte .sp (.mem (.disp16 .si 0x0218#16))),
    ([0b10000001#8, 0b00100110#8, 0x96#8, 0x4A#8, 0x0E#8, 0xBD#8], .andRmImm (.mem (.direct 0x4A96#16)) (.w 0xBD0E#16)),
    ([0b00100101#8, 0x40#8, 0x40#8], .andAccImm (.w 0x4040#16)),
    ([0b00001001#8, 0b11110110#8], .orRmR .toRm .word .si (.reg .si)),
    ([0b10000000#8, 0b01001110#8, 0xC9#8, 0x8A#8], .orRmImm (.mem (.disp8 .bp 0xC9#8)) (.b 0x8A#8)),
    ([0b00001101#8, 0xDE#8, 0x1F#8], .orAccImm (.w 0x1FDE#16)),
    ([0b00110000#8, 0b10011111#8, 0x19#8, 0x53#8], .xorRmR .toRm .byte .bx (.mem (.disp16 .bx 0x5319#16))),
    ([0b10000001#8, 0b00110110#8, 0x48#8, 0x38#8, 0xEB#8, 0x1A#8], .xorRmImm (.mem (.direct 0x3848#16)) (.w 0x1AEB#16)),
    ([0b00110100#8, 0x1E#8], .xorAccImm (.b 0x1E#8)),
    ([0b10000100#8, 0b00001100#8], .testRmR .byte .cx (.mem (.noDisp .si))),
    ([0b11110110#8, 0b11000000#8, 0x78#8], .testRmImm (.reg .ax) (.b 0x78#8)),
    ([0b10101001#8, 0x0E#8, 0x4C#8], .testAccImm (.w 0x4C0E#16)),
    ([0b11110111#8, 0b10010101#8, 0x73#8, 0xBA#8], .notRm .word (.mem (.disp16 .di 0xBA73#16))),
    ([0b11010010#8, 0b00000110#8, 0x0F#8, 0x3B#8], .rolRm .cl .byte (.mem (.direct 0x3B0F#16))),
    ([0b11010011#8, 0b00001011#8], .rorRm .cl .word (.mem (.noDisp .bpDi))),
    ([0b11010010#8, 0b01010010#8, 0x34#8], .rclRm .cl .byte (.mem (.disp8 .bpSi 0x34#8))),
    ([0b11010011#8, 0b11011111#8], .rcrRm .cl .word (.reg .di)),
    ([0b11010000#8, 0b00100110#8, 0x11#8, 0x69#8], .shlRm .one .byte (.mem (.direct 0x6911#16))),
    ([0b11010010#8, 0b00101111#8], .shrRm .cl .byte (.mem (.noDisp .bx))),
    ([0b11010010#8, 0b01111100#8, 0xBB#8], .sarRm .cl .byte (.mem (.disp8 .si 0xBB#8)))
  ] = true := by decide +kernel

/-- One word of every row (43_string.md, 44_control_transfer.md); the bits of the table's pattern are written out. -/
theorem test_words_strings_and_control_transfer : decodes86 [
    ([0b10100100#8], .movs .byte),
    ([0b10100111#8], .cmps .word),
    ([0b10101110#8], .scas .byte),
    ([0b10101101#8], .lods .word),
    ([0b10101010#8], .stos .byte),
    ([0b11110010#8], .repPrefix false),
    ([0b11101011#8, 0x7A#8], .jmpShort 0x7A#8),
    ([0b11101001#8, 0x26#8, 0xCD#8], .jmpNear 0xCD26#16),
    ([0b11111111#8, 0b10100011#8, 0x5B#8, 0x66#8], .jmpRm (.mem (.disp16 .bpDi 0x665B#16))),
    ([0b11101010#8, 0x4D#8, 0xFC#8, 0x0C#8, 0xB6#8], .jmpFar 0xFC4D#16 0xB60C#16),
    ([0b11111111#8, 0b00101110#8, 0xD6#8, 0x0E#8], .jmpMem (.direct 0x0ED6#16)),
    ([0b11101000#8, 0x4D#8, 0x0E#8], .callNear 0x0E4D#16),
    ([0b11111111#8, 0b00010011#8], .callRm (.mem (.noDisp .bpDi))),
    ([0b10011010#8, 0xB2#8, 0x84#8, 0x25#8, 0x63#8], .callFar 0x84B2#16 0x6325#16),
    ([0b11111111#8, 0b01011101#8, 0xE4#8], .callMem (.disp8 .di 0xE4#8)),
    ([0b11000011#8], .retNear),
    ([0b11001011#8], .retFar),
    ([0b11000010#8, 0xF4#8, 0xB2#8], .retNearImm 0xB2F4#16),
    ([0b11001010#8, 0xB1#8, 0xBA#8], .retFarImm 0xBAB1#16),
    ([0b01110000#8, 0x29#8], .jo 0x29#8),
    ([0b01110001#8, 0x70#8], .jno 0x70#8),
    ([0b01110010#8, 0x34#8], .jb 0x34#8),
    ([0b01110011#8, 0x74#8], .jnb 0x74#8),
    ([0b01110100#8, 0xF0#8], .je 0xF0#8),
    ([0b01110101#8, 0x64#8], .jne 0x64#8),
    ([0b01110110#8, 0xAC#8], .jbe 0xAC#8),
    ([0b01110111#8, 0x68#8], .ja 0x68#8),
    ([0b01111000#8, 0xF7#8], .js 0xF7#8),
    ([0b01111001#8, 0x00#8], .jns 0x00#8),
    ([0b01111010#8, 0xF5#8], .jp 0xF5#8),
    ([0b01111011#8, 0xB0#8], .jnp 0xB0#8),
    ([0b01111100#8, 0x2B#8], .jl 0x2B#8),
    ([0b01111101#8, 0x3D#8], .jge 0x3D#8),
    ([0b01111110#8, 0xC6#8], .jle 0xC6#8),
    ([0b01111111#8, 0x66#8], .jg 0x66#8),
    ([0b11100000#8, 0xF4#8], .loopne 0xF4#8),
    ([0b11100001#8, 0x5B#8], .loope 0x5B#8),
    ([0b11100010#8, 0xDE#8], .loop 0xDE#8),
    ([0b11100011#8, 0xAA#8], .jcxz 0xAA#8),
    ([0b11001101#8, 0x2C#8], .intN 0x2C#8),
    ([0b11001100#8], .int3),
    ([0b11001110#8], .into),
    ([0b11001111#8], .iret)
  ] = true := by decide +kernel

/-- One word of every row (45_processor_control.md); the bits of the table's pattern are written out. -/
theorem test_words_processor_control : decodes86 [
    ([0b11111000#8], .clc),
    ([0b11111001#8], .stc),
    ([0b11110101#8], .cmc),
    ([0b11111100#8], .cld),
    ([0b11111101#8], .std),
    ([0b11111010#8], .cli),
    ([0b11111011#8], .sti),
    ([0b11110100#8], .hlt),
    ([0b10011011#8], .wait),
    ([0b11011011#8, 0b10100110#8, 0x7A#8, 0x2B#8], .esc 3#3 4#3 (.mem (.disp16 .bp 0x2B7A#16))),
    ([0b11110000#8], .lockPrefix),
    ([0b00101110#8], .segPrefix .cs)
  ] = true := by decide +kernel

/-- One word of every row (47_vm87_instructions.md); the bits of the table's pattern are written out. -/
theorem test_words_coprocessor_transfer : decodes86 [
    ([0b11011001#8, 0b00000110#8, 0x0A#8, 0x57#8], .fldM32 (.direct 0x570A#16)),
    ([0b11011101#8, 0b00000000#8], .fldM64 (.noDisp .bxSi)),
    ([0b11011011#8, 0b01101010#8, 0xEE#8], .fldM80 (.disp8 .bpSi 0xEE#8)),
    ([0b11011001#8, 0b11000010#8], .fldSti 2#3),
    ([0b11011111#8, 0b10000111#8, 0x68#8, 0xB3#8], .fildM16i (.disp16 .bx 0xB368#16)),
    ([0b11011011#8, 0b00000110#8, 0xD3#8, 0x4F#8], .fildM32i (.direct 0x4FD3#16)),
    ([0b11011111#8, 0b00101000#8], .fildM64i (.noDisp .bxSi)),
    ([0b11011111#8, 0b01100000#8, 0x34#8], .fbldM80 (.disp8 .bxSi 0x34#8)),
    ([0b11011001#8, 0b10010010#8, 0x1C#8, 0xDE#8], .fstM32 (.disp16 .bpSi 0xDE1C#16)),
    ([0b11011101#8, 0b00010110#8, 0xBD#8, 0x63#8], .fstM64 (.direct 0x63BD#16)),
    ([0b11011101#8, 0b11010011#8], .fstSti 3#3),
    ([0b11011111#8, 0b00010010#8], .fistM16i (.noDisp .bpSi)),
    ([0b11011011#8, 0b01010011#8, 0x95#8], .fistM32i (.disp8 .bpDi 0x95#8)),
    ([0b11011001#8, 0b10011011#8, 0xE8#8, 0xA6#8], .fstpM32 (.disp16 .bpDi 0xA6E8#16)),
    ([0b11011101#8, 0b00011110#8, 0xCB#8, 0x84#8], .fstpM64 (.direct 0x84CB#16)),
    ([0b11011011#8, 0b00111111#8], .fstpM80 (.noDisp .bx)),
    ([0b11011101#8, 0b11011010#8], .fstpSti 2#3),
    ([0b11011111#8, 0b01011000#8, 0xB5#8], .fistpM16i (.disp8 .bxSi 0xB5#8)),
    ([0b11011011#8, 0b10011111#8, 0x5C#8, 0xD7#8], .fistpM32i (.disp16 .bx 0xD75C#16)),
    ([0b11011111#8, 0b00111110#8, 0xF3#8, 0x42#8], .fistpM64i (.direct 0x42F3#16)),
    ([0b11011111#8, 0b00110100#8], .fbstpM80 (.noDisp .si)),
    ([0b11011001#8, 0b11001000#8], .fxchSti 0#3),
    ([0b11011001#8, 0b11101110#8], .fldz),
    ([0b11011001#8, 0b11101000#8], .fld1),
    ([0b11011001#8, 0b11101011#8], .fldpi),
    ([0b11011001#8, 0b11101001#8], .fldl2t),
    ([0b11011001#8, 0b11101010#8], .fldl2e),
    ([0b11011001#8, 0b11101100#8], .fldlg2),
    ([0b11011001#8, 0b11101101#8], .fldln2),
    ([0b11011000#8, 0b01010111#8, 0x5D#8], .fcomM32 (.disp8 .bx 0x5D#8)),
    ([0b11011100#8, 0b10010000#8, 0xB2#8, 0x4C#8], .fcomM64 (.disp16 .bxSi 0x4CB2#16)),
    ([0b11011000#8, 0b11010010#8], .fcomSti 2#3),
    ([0b11011110#8, 0b00010110#8, 0x7A#8, 0x48#8], .ficomM16i (.direct 0x487A#16)),
    ([0b11011010#8, 0b00010100#8], .ficomM32i (.noDisp .si)),
    ([0b11011000#8, 0b01011001#8, 0x1F#8], .fcompM32 (.disp8 .bxDi 0x1F#8)),
    ([0b11011100#8, 0b10011101#8, 0x08#8, 0xF7#8], .fcompM64 (.disp16 .di 0xF708#16)),
    ([0b11011000#8, 0b11011001#8], .fcompSti 1#3),
    ([0b11011110#8, 0b00011110#8, 0x17#8, 0x1D#8], .ficompM16i (.direct 0x1D17#16)),
    ([0b11011010#8, 0b00011001#8], .ficompM32i (.noDisp .bxDi)),
    ([0b11011110#8, 0b11011001#8], .fcompp),
    ([0b11011001#8, 0b11100100#8], .ftst)
  ] = true := by decide +kernel

/-- One word of every row (47_vm87_instructions.md); the bits of the table's pattern are written out. -/
theorem test_words_coprocessor_arithmetic : decodes86 [
    ([0b11011001#8, 0b11100101#8], .fxam),
    ([0b11011000#8, 0b01000100#8, 0x15#8], .faddM32 (.disp8 .si 0x15#8)),
    ([0b11011100#8, 0b10000001#8, 0x83#8, 0xE7#8], .faddM64 (.disp16 .bxDi 0xE783#16)),
    ([0b11011000#8, 0b11000000#8], .faddStSti 0#3),
    ([0b11011100#8, 0b11000001#8], .faddStiSt 1#3),
    ([0b11011110#8, 0b00000110#8, 0xF1#8, 0xE2#8], .fiaddM16i (.direct 0xE2F1#16)),
    ([0b11011010#8, 0b00000100#8], .fiaddM32i (.noDisp .si)),
    ([0b11011110#8, 0b11000011#8], .faddpStiSt 3#3),
    ([0b11011000#8, 0b01001100#8, 0xE7#8], .fmulM32 (.disp8 .si 0xE7#8)),
    ([0b11011100#8, 0b10001111#8, 0xCC#8, 0x7E#8], .fmulM64 (.disp16 .bx 0x7ECC#16)),
    ([0b11011000#8, 0b11001100#8], .fmulStSti 4#3),
    ([0b11011100#8, 0b11001011#8], .fmulStiSt 3#3),
    ([0b11011110#8, 0b00001110#8, 0x22#8, 0xE5#8], .fimulM16i (.direct 0xE522#16)),
    ([0b11011010#8, 0b00001011#8], .fimulM32i (.noDisp .bpDi)),
    ([0b11011110#8, 0b11001001#8], .fmulpStiSt 1#3),
    ([0b11011000#8, 0b01100110#8, 0xE2#8], .fsubM32 (.disp8 .bp 0xE2#8)),
    ([0b11011100#8, 0b10100101#8, 0x24#8, 0x25#8], .fsubM64 (.disp16 .di 0x2524#16)),
    ([0b11011000#8, 0b11100011#8], .fsubStSti 3#3),
    ([0b11011100#8, 0b11100110#8], .fsubStiSt 6#3),
    ([0b11011000#8, 0b00101110#8, 0x70#8, 0x25#8], .fsubrM32 (.direct 0x2570#16)),
    ([0b11011100#8, 0b00101101#8], .fsubrM64 (.noDisp .di)),
    ([0b11011000#8, 0b11101100#8], .fsubrStSti 4#3),
    ([0b11011100#8, 0b11101001#8], .fsubrStiSt 1#3),
    ([0b11011000#8, 0b01110010#8, 0xBB#8], .fdivM32 (.disp8 .bpSi 0xBB#8)),
    ([0b11011100#8, 0b10110010#8, 0x97#8, 0x81#8], .fdivM64 (.disp16 .bpSi 0x8197#16)),
    ([0b11011000#8, 0b11110010#8], .fdivStSti 2#3),
    ([0b11011100#8, 0b11110111#8], .fdivStiSt 7#3),
    ([0b11011000#8, 0b00111110#8, 0x6D#8, 0x70#8], .fdivrM32 (.direct 0x706D#16)),
    ([0b11011100#8, 0b00111011#8], .fdivrM64 (.noDisp .bpDi)),
    ([0b11011000#8, 0b11111111#8], .fdivrStSti 7#3),
    ([0b11011100#8, 0b11111010#8], .fdivrStiSt 2#3),
    ([0b11011110#8, 0b11100011#8], .fsubpStiSt 3#3),
    ([0b11011110#8, 0b11101010#8], .fsubrpStiSt 2#3),
    ([0b11011110#8, 0b01100110#8, 0xCE#8], .fisubM16i (.disp8 .bp 0xCE#8)),
    ([0b11011010#8, 0b10100101#8, 0xB1#8, 0xD7#8], .fisubM32i (.disp16 .di 0xD7B1#16)),
    ([0b11011110#8, 0b00101110#8, 0x38#8, 0x64#8], .fisubrM16i (.direct 0x6438#16)),
    ([0b11011010#8, 0b00101010#8], .fisubrM32i (.noDisp .bpSi)),
    ([0b11011110#8, 0b11110001#8], .fdivpStiSt 1#3),
    ([0b11011110#8, 0b11111101#8], .fdivrpStiSt 5#3),
    ([0b11011110#8, 0b01110000#8, 0xAD#8], .fidivM16i (.disp8 .bxSi 0xAD#8)),
    ([0b11011010#8, 0b10110111#8, 0x83#8, 0xE1#8], .fidivM32i (.disp16 .bx 0xE183#16)),
    ([0b11011110#8, 0b00111110#8, 0x42#8, 0x09#8], .fidivrM16i (.direct 0x0942#16))
  ] = true := by decide +kernel

/-- One word of every row (47_vm87_instructions.md); the bits of the table's pattern are written out. -/
theorem test_words_coprocessor_control : decodes86 [
    ([0b11011010#8, 0b00111010#8], .fidivrM32i (.noDisp .bpSi)),
    ([0b11011001#8, 0b11111010#8], .fsqrt),
    ([0b11011001#8, 0b11111101#8], .fscale),
    ([0b11011001#8, 0b11111000#8], .fprem),
    ([0b11011001#8, 0b11111100#8], .frndint),
    ([0b11011001#8, 0b11110100#8], .fxtract),
    ([0b11011001#8, 0b11100001#8], .fabs),
    ([0b11011001#8, 0b11100000#8], .fchs),
    ([0b11011001#8, 0b11110010#8], .fptan),
    ([0b11011001#8, 0b11110011#8], .fpatan),
    ([0b11011001#8, 0b11110000#8], .f2xm1),
    ([0b11011001#8, 0b11110001#8], .fyl2x),
    ([0b11011001#8, 0b11111001#8], .fyl2xp1),
    ([0b11011001#8, 0b11110111#8], .fincstp),
    ([0b11011001#8, 0b11110110#8], .fdecstp),
    ([0b11011001#8, 0b11010000#8], .fnop),
    ([0b11011011#8, 0b11100011#8], .finit),
    ([0b11011011#8, 0b11100000#8], .feni),
    ([0b11011011#8, 0b11100001#8], .fdisi),
    ([0b11011011#8, 0b11100010#8], .fclex),
    ([0b11011001#8, 0b01101100#8, 0x20#8], .fldcw (.disp8 .si 0x20#8)),
    ([0b11011001#8, 0b10111001#8, 0x05#8, 0x75#8], .fstcw (.disp16 .bxDi 0x7505#16)),
    ([0b11011101#8, 0b00111110#8, 0xA5#8, 0x35#8], .fstsw (.direct 0x35A5#16)),
    ([0b11011001#8, 0b00110010#8], .fstenv (.noDisp .bpSi)),
    ([0b11011001#8, 0b01100100#8, 0x14#8], .fldenv (.disp8 .si 0x14#8)),
    ([0b11011101#8, 0b10110010#8, 0x77#8, 0x8A#8], .fsave (.disp16 .bpSi 0x8A77#16)),
    ([0b11011101#8, 0b00100110#8, 0x55#8, 0x42#8], .frstor (.direct 0x4255#16)),
    ([0b11011101#8, 0b11000110#8], .ffreeSti 6#3)
  ] = true := by decide +kernel

/-- One word of every row (48_vm89_iop.md Table 4.7); the bits of the table's pattern are written out. -/
theorem test_words_iop_transfer_and_arithmetic : decodes89 [
    ([0b10000011#8, 0b10000011#8, 0x4C#8], .iMovRegMem .tp (.off .pp 0x4C#8)),
    ([0b10100101#8, 0b10000111#8], .iMovMemReg (.idx .pp) .ix),
    ([0b00000111#8, 0b10010000#8, 0x01#8, 0xCE#8], .iMovMemMem (.idxInc .ga) (.base .gc)),
    ([0b00000010#8, 0b10000001#8, 0xD9#8], .iMovbRegMem .ga (.off .gb 0xD9#8)),
    ([0b10000100#8, 0b10000100#8], .iMovbMemReg (.idx .ga) .tp),
    ([0b00000110#8, 0b10010000#8, 0x00#8, 0xCC#8], .iMovbMemMem (.idxInc .ga) (.base .ga)),
    ([0b10010001#8, 0b00110000#8, 0xE0#8, 0x2A#8], .iMoviRegData .tp 0x2AE0#16),
    ([0b00010011#8, 0b01001101#8, 0x22#8, 0x66#8, 0x87#8], .iMoviMemData (.off .gb 0x22#8) 0x8766#16),
    ([0b00101000#8, 0b00110000#8, 0xE8#8], .iMovbiRegData .gb 0xE8#8),
    ([0b00001100#8, 0b01001100#8, 0xAD#8], .iMovbiMemData (.idx .ga) 0xAD#8),
    ([0b10000111#8, 0b10001110#8], .iMovpPtrMem .tp (.idxInc .gc)),
    ([0b00000001#8, 0b10011001#8], .iMovpMemPtr (.base .gb) .ga),
    ([0b00100011#8, 0b10001000#8, 0x52#8], .iLpdPtrMem .gb (.off .ga 0x52#8)),
    ([0b01010001#8, 0b00001000#8, 0xCB#8, 0x19#8, 0xBF#8, 0x5C#8], .iLpdiPtr .gc 0x19CB#16 0x5CBF#16),
    ([0b01100101#8, 0b10100010#8], .iAddRegMem .bc (.idx .gc)),
    ([0b01100111#8, 0b11010010#8], .iAddMemReg (.idxInc .gc) .bc),
    ([0b10000000#8, 0b10100011#8], .iAddbRegMem .tp (.base .pp)),
    ([0b10100010#8, 0b11010001#8, 0x8A#8], .iAddbMemReg (.off .gb 0x8A#8) .ix),
    ([0b11110001#8, 0b00100000#8, 0x4C#8, 0x09#8], .iAddiRegData .mc 0x094C#16),
    ([0b00010101#8, 0b11000010#8, 0xEB#8, 0x12#8], .iAddiMemData (.idx .gc) 0x12EB#16),
    ([0b00001000#8, 0b00100000#8, 0x09#8], .iAddbiRegData .ga 0x09#8),
    ([0b00001110#8, 0b11000001#8, 0xF3#8], .iAddbiMemData (.idxInc .gb) 0xF3#8),
    ([0b01100000#8, 0b00111000#8], .iIncReg .bc),
    ([0b00000001#8, 0b11101011#8], .iIncMem (.base .pp)),
    ([0b00000010#8, 0b11101000#8, 0xDD#8], .iIncbMem (.off .ga 0xDD#8)),
    ([0b11100000#8, 0b00111100#8], .iDecReg .mc),
    ([0b00000101#8, 0b11101111#8], .iDecMem (.idx .pp)),
    ([0b00000110#8, 0b11101110#8], .iDecbMem (.idxInc .gc))
  ] = true := by decide +kernel

/-- One word of every row (48_vm89_iop.md Table 4.7); the bits of the table's pattern are written out. -/
theorem test_words_iop_logic : decodes89 [
    ([0b01100001#8, 0b10101001#8], .iAndRegMem .bc (.base .gb)),
    ([0b01000011#8, 0b11011010#8, 0x65#8], .iAndMemReg (.off .gc 0x65#8) .gc),
    ([0b11000100#8, 0b10101010#8], .iAndbRegMem .cc (.idx .gc)),
    ([0b01000110#8, 0b11011000#8], .iAndbMemReg (.idxInc .ga) .gc),
    ([0b00010001#8, 0b00101000#8, 0x35#8, 0x24#8], .iAndiRegData .ga 0x2435#16),
    ([0b00010001#8, 0b11001010#8, 0x8A#8, 0xDC#8], .iAndiMemData (.base .gc) 0xDC8A#16),
    ([0b01001000#8, 0b00101000#8, 0x1C#8], .iAndbiRegData .gc 0x1C#8),
    ([0b00001010#8, 0b11001000#8, 0xC3#8, 0x90#8], .iAndbiMemData (.off .ga 0xC3#8) 0x90#8),
    ([0b01100101#8, 0b10100110#8], .iOrRegMem .bc (.idx .gc)),
    ([0b11100111#8, 0b11010100#8], .iOrMemReg (.idxInc .ga) .mc),
    ([0b01000000#8, 0b10100101#8], .iOrbRegMem .gc (.base .gb)),
    ([0b00000010#8, 0b11010110#8, 0xE4#8], .iOrbMemReg (.off .gc 0xE4#8) .ga),
    ([0b10010001#8, 0b00100100#8, 0x70#8, 0xBA#8], .iOriRegData .tp 0xBA70#16),
    ([0b00010101#8, 0b11000110#8, 0xA6#8, 0xA5#8], .iOriMemData (.idx .gc) 0xA5A6#16),
    ([0b01101000#8, 0b00100100#8, 0x11#8], .iOrbiRegData .bc 0x11#8),
    ([0b00001110#8, 0b11000110#8, 0x6F#8], .iOrbiMemData (.idxInc .gc) 0x6F#8),
    ([0b10100000#8, 0b00101100#8], .iNotReg .ix),
    ([0b00000001#8, 0b11011101#8], .iNotMem (.base .gb)),
    ([0b00000011#8, 0b10101110#8, 0xC3#8], .iNotRegMem .ga (.off .gc 0xC3#8)),
    ([0b00000100#8, 0b11011100#8], .iNotbMem (.idx .ga)),
    ([0b11100110#8, 0b10101110#8], .iNotbRegMem .mc (.idxInc .gc)),
    ([0b01100000#8, 0b11110101#8], .iSetbMem (.base .gb) 3#3),
    ([0b10000010#8, 0b11111000#8, 0x2E#8], .iClrMem (.off .ga 0x2E#8) 4#3)
  ] = true := by decide +kernel

/-- One word of every row (48_vm89_iop.md Table 4.7); the bits of the table's pattern are written out. -/
theorem test_words_iop_control : decodes89 [
    ([0b10001101#8, 0b10011100#8, 0x49#8], .iCallMem (.idx .ga) 0x49#8),
    ([0b10010111#8, 0b10011111#8, 0x55#8, 0x15#8], .iLcallMem (.idxInc .pp) 0x1555#16),
    ([0b10001000#8, 0b00100000#8, 0xC9#8], .iJmp 0xC9#8),
    ([0b10010001#8, 0b00100000#8, 0x84#8, 0x0B#8], .iLjmp 0x0B84#16),
    ([0b10001000#8, 0b01000100#8, 0x9B#8], .iJzReg .tp 0x9B#8),
    ([0b00001001#8, 0b11100101#8, 0x2B#8], .iJzMem (.base .gb) 0x2B#8),
    ([0b01010000#8, 0b01000100#8, 0x6E#8, 0xC7#8], .iLjzReg .gc 0xC76E#16),
    ([0b00010011#8, 0b11100110#8, 0xFD#8, 0x86#8, 0x4C#8], .iLjzMem (.off .gc 0xFD#8) 0x4C86#16),
    ([0b00001100#8, 0b11100110#8, 0x4A#8], .iJzbMem (.idx .gc) 0x4A#8),
    ([0b00010110#8, 0b11100100#8, 0xC5#8, 0xDB#8], .iLjzbMem (.idxInc .ga) 0xDBC5#16),
    ([0b01001000#8, 0b01000000#8, 0x08#8], .iJnzReg .gc 0x08#8),
    ([0b00001001#8, 0b11100001#8, 0x2B#8], .iJnzMem (.base .gb) 0x2B#8),
    ([0b00010000#8, 0b01000000#8, 0x6E#8, 0x15#8], .iLjnzReg .ga 0x156E#16),
    ([0b00010011#8, 0b11100001#8, 0xB8#8, 0xB7#8, 0x35#8], .iLjnzMem (.off .gb 0xB8#8) 0x35B7#16),
    ([0b00001100#8, 0b11100011#8, 0xE7#8], .iJnzbMem (.idx .pp) 0xE7#8),
    ([0b00010110#8, 0b11100000#8, 0xA5#8, 0x09#8], .iLjnzbMem (.idxInc .ga) 0x09A5#16),
    ([0b00001000#8, 0b10110001#8, 0xFA#8], .iJmceMem (.base .gb) 0xFA#8),
    ([0b00010010#8, 0b10110010#8, 0x01#8, 0xF5#8, 0xE9#8], .iLjmceMem (.off .gc 0x01#8) 0xE9F5#16),
    ([0b00001100#8, 0b10110100#8, 0x2F#8], .iJmcneMem (.idx .ga) 0x2F#8),
    ([0b00010110#8, 0b10110100#8, 0x9D#8, 0xF2#8], .iLjmcneMem (.idxInc .ga) 0xF29D#16),
    ([0b00101000#8, 0b10111110#8, 0x87#8], .iJbtMem (.base .gc) 1#3 0x87#8),
    ([0b01110010#8, 0b10111101#8, 0x69#8, 0xB1#8, 0xEB#8], .iLjbtMem (.off .gb 0x69#8) 3#3 0xEBB1#16),
    ([0b11001100#8, 0b10111011#8, 0x27#8], .iJnbtMem (.idx .pp) 6#3 0x27#8),
    ([0b10010110#8, 0b10111011#8, 0xEF#8, 0x17#8], .iLjnbtMem (.idxInc .pp) 4#3 0x17EF#16),
    ([0b00011000#8, 0b10010101#8, 0x27#8, 0x4B#8], .iTslMemData (.base .gb) 0x27#8 0x4B#8),
    ([0b11100000#8, 0b00000000#8], .iWid true true),
    ([0b01100000#8, 0b00000000#8], .iXfer),
    ([0b01000000#8, 0b00000000#8], .iSintr),
    ([0b00100000#8, 0b01001000#8], .iHlt),
    ([0b00000000#8, 0b00000000#8], .iNop)
  ] = true := by decide +kernel

/-! ### Terms that are not well-formed, and bytes that are no instruction -/

/-- BP without a displacement has no encoding (R155): refused in every place a memory operand can stand. -/
theorem test_wf_bp_needs_displacement :
    MemOp.wf (.noDisp .bp) = false ∧ RM.wf (.mem (.noDisp .bp)) = false ∧ RM.wf (.reg .bp) = true ∧
    Instr.wf (.lea .ax (.noDisp .bp)) = false ∧ Instr.wf (.fldM32 (.noDisp .bp)) = false ∧
    Instr.wf (.incRm .byte (.mem (.noDisp .bp))) = false ∧ Instr.wf (.movSrRm .ds (.mem (.noDisp .bp))) = false ∧
    Instr.wf (.esc 3#3 4#3 (.mem (.noDisp .bp))) = false := by decide +kernel

/-- CS is no destination (U3, U7). -/
theorem test_wf_cs_is_no_destination :
    Instr.wf (.movSrRm .cs (.reg .ax)) = false ∧ Instr.wf (.popSr .cs) = false ∧ Instr.wf (.pushSr .cs) = true := by
  decide +kernel

/-- XCHG AX,AX is NOP (R207); an ESC of Table 3.11 is a VM87 row; ADDBI and ADDI to TP are JMP and LJMP (R629, R630). -/
theorem test_wf_one_spelling :
    Instr.wf (.xchgAxR .ax) = false ∧ Instr.wf (.esc 0#3 0#3 (.mem (.direct 0#16))) = false ∧
    Instr.wf (.esc 1#3 5#3 (.reg .ax)) = false ∧ Instr.wf (.iAddbiRegData .tp 2#8) = false ∧
    Instr.wf (.iAddiRegData .tp 2#16) = false ∧ Instr.wf (.iAddiRegData .ga 2#16) = true := by decide +kernel

/-- Why the decoder refuses some bytes. -/
noncomputable def refusal86 (bs : List Byte) : Option DecodeError :=
  match decode86 bs with
  | .ok _ => none
  | .error e => some e

/-- T16, U4, U6, D16 and a truncated instruction. -/
theorem test_decode_refuses :
    refusal86 [0x0F#8] = some .loadCs ∧ refusal86 [0x8E#8, 0xC8#8] = some .loadCs ∧
    refusal86 [0x8D#8, 0xC0#8] = some .registerForm ∧ refusal86 [0xF1#8] = some .unusedOpcode ∧
    refusal86 [0xD4#8, 0x0B#8] = some .notBaseTen ∧ refusal86 [0xB8#8, 0x00#8] = some .truncated := by decide +kernel

/-! ### The vectors of 95_test_vectors.md: the CPU -/

/-- The reset machine with another CPU. -/
def on (c : Cpu) : State := { State.reset with cpu := c }

/-- The reset machine with another CPU and some bytes of memory. -/
def onMem (c : Cpu) (l : List (Nat × Byte)) : State :=
  { State.reset with cpu := c, mem := l.foldl (fun m e => m.put e.1 e.2) [] }

/-- The same with nothing at the two addresses where the flag word of an interrupt entry would be stored: its bits that
hold nothing are unknown (log 3), and a memory that held it could not be evaluated. -/
def onStack (c : Cpu) (l : List (Nat × Byte)) (flagWords : List Nat) : State :=
  let s := onMem c l
  { s with plat := { s.plat with memoryMap := flagWords.map fun a => ⟨a, 2, .absent⟩ } }

/-- The instruction completes in a state that passes the test. -/
def runs (i : Instr) (s : State) (p : State → Bool) : Bool :=
  match exec i s with
  | .next t => p t
  | _ => false

/-- OF, SF, ZF, AF, PF, CF, as the vectors print them. -/
def six (f : Flags) : List Nat := [f.ofl, f.sf, f.zf, f.af, f.pf, f.cf].map Bool.toNat

/-- All flags 0 but CF. -/
def carry (c : Cpu) : Cpu := { c with f := { c.f with cf := true } }

/-- The CPU after reset. -/
abbrev c0 : Cpu := Cpu.reset

/-- M1, M2. -/
theorem test_phys : phys 0xFFFF#16 0x0010#16 = 0 ∧ phys 0x1234#16 0x5678#16 = 0x179B8 := by decide
/-- M4: the high byte of a word at offset FFFFh is at offset 0 of the same segment. -/
theorem test_mov_word_wraps :
    runs (.movAcc .toReg .word 0xFFFF#16) (onMem { c0 with ds := 0x1000#16 } [(0x1FFFF, 0xCD#8), (0x10000, 0xAB#8)])
      (fun t => t.cpu.ax == 0xABCD#16) = true := by decide +kernel
/-- M5, M6: BP selects SS, and a segment byte overrides it. -/
theorem test_mov_bp_selects_ss :
    let s (l : Leading) := onMem { c0 with ss := 0x2000#16, bp := 0x0100#16, ds := 0x3000#16, lead := l }
      [(0x20102, 0xEF#8), (0x20103, 0xBE#8), (0x30102, 0x11#8), (0x30103, 0x11#8)]
    runs (.movRmR .toReg .word .ax (.mem (.disp8 .bp 2#8))) (s Leading.none) (fun t => t.cpu.ax == 0xBEEF#16) = true ∧
    runs (.movRmR .toReg .word .ax (.mem (.disp8 .bp 2#8))) (s { Leading.none with seg := some .ds })
      (fun t => t.cpu.ax == 0x1111#16) = true := by decide +kernel
/-- T2: a byte store leaves the next byte. -/
theorem test_mov_byte_immediate :
    runs (.movRmImm (.mem (.noDisp .bx)) (.b 5#8))
      (onMem { c0 with ds := 0x2000#16, bx := 0x0010#16 } [(0x20010, 0xFF#8), (0x20011, 0xFF#8)])
      (fun t => t.mem.get 0x20010 == 5#8 && t.mem.get 0x20011 == 0xFF#8) = true := by decide +kernel
/-- T3. -/
theorem test_mov_ah_al :
    runs (.movRmR .toReg .byte .sp (.reg .ax)) (on { c0 with ax := 0x12CD#16 }) (fun t => t.cpu.ax == 0xCDCD#16) = true := by
  decide
/-- S1. -/
theorem test_mov_ds_ax :
    runs (.movSrRm .ds (.reg .ax)) (on { c0 with ax := 0x8000#16 })
      (fun t => t.cpu.ds == 0x8000#16 && t.cpu.inhibit) = true := by decide
/-- T4. -/
theorem test_xchg_al_ah :
    runs (.xchgRRm .byte .ax (.reg .sp)) (on { c0 with ax := 0x1234#16 }) (fun t => t.cpu.ax == 0x3412#16) = true := by decide
/-- T7: the index sum of XLAT wraps. -/
theorem test_xlat_wraps :
    runs .xlat (onMem { c0 with bx := 0xFFFF#16, ax := 2#16 } [(1, 0x77#8)]) (fun t => t.cpu.ax == 0x77#16) = true := by
  decide +kernel
/-- T8. -/
theorem test_lea :
    runs (.lea .bx (.disp16 .si 0x0040#16)) (on { c0 with si := 0xFFF0#16 }) (fun t => t.cpu.bx == 0x0030#16) = true := by
  decide
/-- T9. -/
theorem test_lds :
    runs (.lds .si (.noDisp .bx)) (onMem { c0 with bx := 0x40#16 } [(0x40, 0x84#8), (0x41, 0x37#8), (0x42, 0x20#8), (0x43, 0xA0#8)])
      (fun t => t.cpu.si == 0x3784#16 && t.cpu.ds == 0xA020#16) = true := by decide +kernel
/-- T10. -/
theorem test_les :
    runs (.les .di (.disp8 .bx 4#8)) (onMem { c0 with bx := 0x40#16 } [(0x44, 0x10#8), (0x47, 0xB8#8)])
      (fun t => t.cpu.di == 0x0010#16 && t.cpu.es == 0xB800#16) = true := by decide +kernel
/-- T12. -/
theorem test_sahf :
    runs .sahf (on { c0 with ax := 0xD500#16 }) (fun t => six t.cpu.f == [0, 1, 1, 1, 1, 1]) = true := by decide
/-- M8. -/
theorem test_push_wraps :
    runs (.pushR .ax) (on { c0 with ss := 0x2000#16, ax := 0x1234#16 })
      (fun t => t.cpu.sp == 0xFFFE#16 && t.mem.get 0x2FFFE == 0x34#8 && t.mem.get 0x2FFFF == 0x12#8) = true := by decide +kernel
/-- M9, D17. -/
theorem test_push_sp :
    runs (.pushR .sp) (on { c0 with ss := 0x2000#16, sp := 0x0100#16 })
      (fun t => t.cpu.sp == 0x00FE#16 && t.mem.get 0x200FE == 0xFE#8) = true := by decide +kernel
/-- M10, D17. -/
theorem test_pop_sp :
    runs (.popR .sp) (onMem { c0 with ss := 0x2000#16, sp := 0x00FE#16 } [(0x200FF, 0x40#8)])
      (fun t => t.cpu.sp == 0x4000#16) = true := by decide +kernel
/-- T14: the word 0FD5h. -/
theorem test_popf :
    runs .popf (onMem c0 [(0, 0xD5#8), (1, 0x0F#8)])
      (fun t => six t.cpu.f == [1, 1, 1, 1, 1, 1] && t.cpu.f.df && t.cpu.f.ifl && t.cpu.f.tf && t.cpu.sp == 2#16) = true := by
  decide +kernel

/-- The operands AL and BL, or AX and BX. -/
abbrev ab (a b : Word) : Cpu := { c0 with ax := a, bx := b }

/-- A1, A2. -/
theorem test_add_al :
    runs (.addRmR .toReg .byte .ax (.reg .bx)) (on (ab 0x00FF#16 1#16))
      (fun t => t.cpu.ax == 0#16 && six t.cpu.f == [0, 0, 1, 1, 1, 1]) = true ∧
    runs (.addRmR .toReg .byte .ax (.reg .bx)) (on (ab 0x007F#16 1#16))
      (fun t => t.cpu.ax == 0x80#16 && six t.cpu.f == [1, 1, 0, 1, 0, 0]) = true := by decide
/-- A3. -/
theorem test_add_ax :
    runs (.addRmR .toReg .word .ax (.reg .bx)) (on (ab 0x8000#16 0x8000#16))
      (fun t => t.cpu.ax == 0#16 && six t.cpu.f == [1, 0, 1, 0, 1, 1]) = true := by decide
/-- A5. -/
theorem test_adc_al :
    runs (.adcRmR .toReg .byte .ax (.reg .bx)) (on (carry (ab 0x00FF#16 0x00FF#16)))
      (fun t => t.cpu.ax == 0xFF#16 && six t.cpu.f == [0, 1, 0, 1, 1, 1]) = true := by decide
/-- A6, A7. -/
theorem test_sub_al :
    runs (.subRmR .toReg .byte .ax (.reg .bx)) (on (ab 0#16 1#16))
      (fun t => t.cpu.ax == 0xFF#16 && six t.cpu.f == [0, 1, 0, 1, 1, 1]) = true ∧
    runs (.subRmR .toReg .byte .ax (.reg .bx)) (on (ab 0x80#16 1#16))
      (fun t => t.cpu.ax == 0x7F#16 && six t.cpu.f == [1, 0, 0, 1, 0, 0]) = true := by decide
/-- A8. -/
theorem test_sbb_ax :
    runs (.sbbRmR .toReg .word .ax (.reg .bx)) (on (carry (ab 0#16 0#16)))
      (fun t => t.cpu.ax == 0xFFFF#16 && six t.cpu.f == [0, 1, 0, 1, 1, 1]) = true := by decide
/-- A9, A10: CMP writes no operand. -/
theorem test_cmp :
    runs (.cmpRmR .toReg .byte .ax (.reg .bx)) (on (ab 5#16 0xFF#16))
      (fun t => t.cpu.ax == 5#16 && six t.cpu.f == [0, 0, 0, 1, 1, 1]) = true ∧
    runs (.cmpAccImm (.b 0x42#8)) (on (ab 0x41#16 0#16))
      (fun t => t.cpu.ax == 0x41#16 && six t.cpu.f == [0, 1, 0, 1, 1, 1]) = true := by decide
/-- A11: the byte of opcode 83h is sign-extended. -/
theorem test_add_sign_extended :
    runs (.addRmImm (.reg .bx) (.sx 0xFF#8)) (on (ab 0#16 1#16))
      (fun t => t.cpu.bx == 0#16 && six t.cpu.f == [0, 0, 1, 1, 1, 1]) = true := by decide
/-- A12: CF stays 1. -/
theorem test_inc_keeps_carry :
    runs (.incR .ax) (on (carry (ab 0xFFFF#16 0#16)))
      (fun t => t.cpu.ax == 0#16 && six t.cpu.f == [0, 0, 1, 1, 1, 1]) = true := by decide
/-- A15. -/
theorem test_dec_memory :
    runs (.decRm .byte (.mem (.noDisp .si))) (on { c0 with si := 0x40#16 })
      (fun t => t.mem.get 0x40 == 0xFF#8 && six t.cpu.f == [0, 1, 0, 1, 1, 0]) = true := by decide +kernel
/-- S2, A16. -/
theorem test_neg :
    runs (.negRm .word (.reg .ax)) (on (ab 0x8000#16 0#16))
      (fun t => t.cpu.ax == 0x8000#16 && six t.cpu.f == [1, 1, 0, 0, 1, 1]) = true ∧
    runs (.negRm .word (.reg .ax)) (on (ab 1#16 0#16))
      (fun t => t.cpu.ax == 0xFFFF#16 && six t.cpu.f == [0, 1, 0, 1, 1, 1]) = true := by decide
/-- A18, A19. -/
theorem test_mul :
    runs (.mulRm .byte (.reg .bx)) (on (ab 0xFF#16 0xFF#16)) (fun t => t.cpu.ax == 0xFE01#16 && t.cpu.f.cf && t.cpu.f.ofl) =
      true ∧
    runs (.mulRm .word (.reg .bx)) (on { ab 3#16 4#16 with dx := 9#16 })
      (fun t => t.cpu.ax == 12#16 && t.cpu.dx == 0#16 && !t.cpu.f.cf && !t.cpu.f.ofl) = true := by decide +kernel
/-- A20, A22. -/
theorem test_imul :
    runs (.imulRm .byte (.reg .bx)) (on (ab 0xFF#16 0xFF#16)) (fun t => t.cpu.ax == 1#16 && !t.cpu.f.cf) = true ∧
    runs (.imulRm .byte (.reg .bx)) (on (ab 0x40#16 2#16)) (fun t => t.cpu.ax == 0x80#16 && t.cpu.f.cf && t.cpu.f.ofl) = true := by
  decide +kernel
/-- A23, A25. -/
theorem test_div :
    runs (.divRm .byte (.reg .bx)) (on (ab 0x64#16 7#16)) (fun t => t.cpu.ax == 0x020E#16) = true ∧
    runs (.divRm .word (.reg .bx)) (on { ab 0#16 2#16 with dx := 1#16 })
      (fun t => t.cpu.ax == 0x8000#16 && t.cpu.dx == 0#16) = true := by decide +kernel
/-- S3, A27, A28: the quotient is truncated toward zero; -128 is a quotient. -/
theorem test_idiv :
    runs (.idivRm .byte (.reg .bx)) (on (ab 0xFFD1#16 3#16)) (fun t => t.cpu.ax == 0xFEF1#16) = true ∧
    runs (.idivRm .byte (.reg .bx)) (on (ab 0xFFD1#16 0xFD#16)) (fun t => t.cpu.ax == 0xFE0F#16) = true ∧
    runs (.idivRm .byte (.reg .bx)) (on (ab 0xFF80#16 1#16)) (fun t => t.cpu.ax == 0x0080#16) = true := by decide +kernel
/-- X3, A24, A29: the divide error enters type 0 with IP of the next instruction. -/
theorem test_divide_error :
    let s (a b : Word) := onStack { ab a b with ip := 0x102#16, sp := 0x100#16, ss := 0x2000#16, cs := 0x1000#16 } [(3, 5#8)] [0x200FE]
    let enters (t : State) : Bool := t.cpu.cs == 0x0500#16 && t.cpu.ip == 0#16 && t.cpu.sp == 0x00FA#16 &&
      t.byteAt 0x200FA == 2#8 && t.byteAt 0x200FB == 1#8
    runs (.divRm .byte (.reg .bx)) (s 5#16 0#16) enters = true ∧ runs (.divRm .byte (.reg .bx)) (s 0x100#16 1#16) enters = true ∧
    runs (.idivRm .byte (.reg .bx)) (s 0x80#16 1#16) enters = true := by decide +kernel
/-- A30, A31. -/
theorem test_extensions :
    runs .cbw (on (ab 0x80#16 0#16)) (fun t => t.cpu.ax == 0xFF80#16) = true ∧
    runs .cwd (on (ab 0x8000#16 0#16)) (fun t => t.cpu.dx == 0xFFFF#16) = true := by decide
/-- A32 to A37. -/
theorem test_corrections :
    runs .daa (on (ab 0x9A#16 0#16)) (fun t => t.cpu.ax == 0#16 && (six t.cpu.f).tail == [0, 1, 1, 1, 1]) = true ∧
    runs .das (on { ab 0xEE#16 0#16 with f := { Flags.cleared with cf := true, af := true } })
      (fun t => t.cpu.ax == 0x88#16 && (six t.cpu.f).tail == [1, 0, 1, 1, 1]) = true ∧
    runs .aaa (on (ab 0x000E#16 0#16)) (fun t => t.cpu.ax == 0x0104#16 && t.cpu.f.cf && t.cpu.f.af) = true ∧
    runs .aas (on { ab 0x02FD#16 0#16 with f := { Flags.cleared with af := true } })
      (fun t => t.cpu.ax == 0x0107#16 && t.cpu.f.cf && t.cpu.f.af) = true ∧
    runs .aam (on (ab 0x3F#16 0#16)) (fun t => t.cpu.ax == 0x0603#16 && !t.cpu.f.sf && !t.cpu.f.zf && t.cpu.f.pf) = true ∧
    runs .aad (on (ab 0x0603#16 0#16)) (fun t => t.cpu.ax == 0x003F#16 && !t.cpu.f.sf && !t.cpu.f.zf && t.cpu.f.pf) = true := by
  decide +kernel

/-- The flags of a logic operation, AF left out. -/
def logicFlags (f : Flags) : List Nat := [f.ofl, f.sf, f.zf, f.pf, f.cf].map Bool.toNat

/-- L1 to L5. -/
theorem test_logic :
    runs (.andAccImm (.b 0x0F#8)) (on (ab 0x3C#16 0#16)) (fun t => t.cpu.ax == 0x0C#16 && logicFlags t.cpu.f == [0, 0, 0, 1, 0]) =
      true ∧
    runs (.orRmImm (.reg .bx) (.w 0x8000#16)) (on (ab 0#16 1#16))
      (fun t => t.cpu.bx == 0x8001#16 && logicFlags t.cpu.f == [0, 1, 0, 0, 0]) = true ∧
    runs (.xorRmR .toReg .word .ax (.reg .ax)) (on (carry (ab 7#16 0#16)))
      (fun t => t.cpu.ax == 0#16 && logicFlags t.cpu.f == [0, 0, 1, 1, 0]) = true ∧
    runs (.testAccImm (.b 0x80#8)) (on (ab 0x81#16 0#16))
      (fun t => t.cpu.ax == 0x81#16 && logicFlags t.cpu.f == [0, 1, 0, 0, 0]) = true ∧
    runs (.notRm .word (.reg .cx)) (on { c0 with cx := 0x00FF#16 }) (fun t => t.cpu.cx == 0xFF00#16 && six t.cpu.f == [0, 0, 0, 0, 0, 0]) =
      true := by decide +kernel

/-- L6 to L10: SHL. -/
theorem test_shl :
    runs (.shlRm .one .byte (.reg .ax)) (on (ab 0xC1#16 0#16)) (fun t => t.cpu.ax == 0x82#16 && logicFlags t.cpu.f == [0, 1, 0, 1, 1]) =
      true ∧
    runs (.shlRm .one .byte (.reg .ax)) (on (ab 0x40#16 0#16)) (fun t => t.cpu.ax == 0x80#16 && t.cpu.f.ofl && !t.cpu.f.cf) = true ∧
    runs (.shlRm .cl .byte (.reg .ax)) (on (carry { ab 0xFF#16 0#16 with cx := 0x0100#16 }))
      (fun t => t.cpu.ax == 0xFF#16 && six t.cpu.f == [0, 0, 0, 0, 0, 1]) = true ∧
    runs (.shlRm .cl .byte (.reg .ax)) (on { ab 0x01#16 0#16 with cx := 8#16 })
      (fun t => t.cpu.ax == 0#16 && t.cpu.f.cf && t.cpu.f.zf && t.cpu.f.pf) = true ∧
    runs (.shlRm .cl .byte (.reg .ax)) (on { ab 0xFF#16 0#16 with cx := 9#16 })
      (fun t => t.cpu.ax == 0#16 && !t.cpu.f.cf && t.cpu.f.zf) = true := by decide +kernel
/-- L11: the count is not masked. -/
theorem test_shl_255 :
    runs (.shlRm .cl .word (.reg .ax)) (on { ab 0xFFFF#16 0#16 with cx := 0x00FF#16 })
      (fun t => t.cpu.ax == 0#16 && !t.cpu.f.cf && t.cpu.f.zf) = true := by decide +kernel
/-- L12, L13: SHR. -/
theorem test_shr :
    runs (.shrRm .cl .word (.reg .bx)) (on { ab 0#16 0x8004#16 with cx := 3#16 })
      (fun t => t.cpu.bx == 0x1000#16 && t.cpu.f.cf && !t.cpu.f.sf && !t.cpu.f.zf && t.cpu.f.pf) = true ∧
    runs (.shrRm .cl .word (.reg .ax)) (on { ab 0x8000#16 0#16 with cx := 16#16 })
      (fun t => t.cpu.ax == 0#16 && t.cpu.f.cf && t.cpu.f.zf) = true := by decide +kernel
/-- L14, L15: SAR. -/
theorem test_sar :
    runs (.sarRm .one .byte (.reg .ax)) (on (ab 0x81#16 0#16)) (fun t => t.cpu.ax == 0xC0#16 && logicFlags t.cpu.f == [0, 1, 0, 1, 1]) =
      true ∧
    runs (.sarRm .cl .word (.reg .ax)) (on { ab 0x8000#16 0#16 with cx := 20#16 })
      (fun t => t.cpu.ax == 0xFFFF#16 && t.cpu.f.cf && t.cpu.f.sf && t.cpu.f.pf) = true := by decide +kernel
/-- L17 to L23: the rotates leave SF, ZF, AF, PF. -/
theorem test_rotates :
    runs (.rolRm .one .byte (.reg .ax)) (on (ab 0x81#16 0#16)) (fun t => t.cpu.ax == 3#16 && six t.cpu.f == [1, 0, 0, 0, 0, 1]) = true ∧
    runs (.rolRm .cl .byte (.reg .ax)) (on { ab 0xA5#16 0#16 with cx := 8#16 }) (fun t => t.cpu.ax == 0xA5#16 && t.cpu.f.cf) = true ∧
    runs (.rorRm .one .word (.reg .ax)) (on (ab 1#16 0#16)) (fun t => t.cpu.ax == 0x8000#16 && six t.cpu.f == [1, 0, 0, 0, 0, 1]) = true ∧
    runs (.rclRm .one .byte (.reg .ax)) (on (carry (ab 0x80#16 0#16))) (fun t => t.cpu.ax == 1#16 && six t.cpu.f == [1, 0, 0, 0, 0, 1]) =
      true ∧
    runs (.rclRm .cl .byte (.reg .ax)) (on (carry { ab 0x5A#16 0#16 with cx := 9#16 })) (fun t => t.cpu.ax == 0x5A#16 && t.cpu.f.cf) = true ∧
    runs (.rcrRm .one .byte (.reg .ax)) (on (ab 1#16 0#16)) (fun t => t.cpu.ax == 0#16 && six t.cpu.f == [0, 0, 0, 0, 0, 1]) = true ∧
    runs (.rcrRm .one .word (.reg .ax)) (on (carry (ab 0#16 0#16))) (fun t => t.cpu.ax == 0x8000#16 && six t.cpu.f == [1, 0, 0, 0, 0, 0]) =
      true := by decide +kernel

/-- G1, G2. -/
theorem test_movs :
    runs (.movs .word) (onMem { c0 with ds := 0x1000#16, si := 0x10#16, es := 0x2000#16, di := 0x20#16 } [(0x10010, 0xEF#8), (0x10011, 0xBE#8)])
      (fun t => t.mem.get 0x20020 == 0xEF#8 && t.mem.get 0x20021 == 0xBE#8 && t.cpu.si == 0x12#16 && t.cpu.di == 0x22#16) = true ∧
    runs (.movs .byte) (on { c0 with f := { Flags.cleared with df := true } })
      (fun t => t.cpu.si == 0xFFFF#16 && t.cpu.di == 0xFFFF#16) = true := by decide +kernel
/-- G3, G9: CX = 0 does nothing. -/
theorem test_rep_zero :
    let c : Cpu := { c0 with lead := { Leading.none with rep := some true } }
    runs (.movs .byte) (on c) (fun t => t.cpu == c) = true ∧ runs (.scas .byte) (on c) (fun t => t.cpu == c) = true := by
  decide +kernel
/-- The third element of G6 ends the repetition; G8: so does the match. -/
theorem test_rep_ends_on_zf :
    runs (.cmps .byte) (onMem { c0 with cx := 3#16, si := 0x40#16, di := 0x50#16, lead := { Leading.none with rep := some true } } [(0x40, 0x43#8), (0x50, 0x58#8)])
      (fun t => t.cpu.cx == 2#16 && t.cpu.si == 0x41#16 && t.cpu.phase == .complete && six t.cpu.f == [0, 1, 0, 1, 1, 1]) = true ∧
    runs (.scas .byte) (onMem { c0 with ax := 0x0D#16, cx := 0xE#16, di := 0x50#16, lead := { Leading.none with rep := some false } } [(0x50, 0x0D#8)])
      (fun t => t.cpu.cx == 0xD#16 && t.cpu.di == 0x51#16 && t.cpu.f.zf && !t.cpu.f.cf && t.cpu.phase == .complete) = true := by
  decide +kernel
/-- G10, G11, G12. -/
theorem test_lods_stos :
    runs (.lods .byte) (onMem { c0 with ax := 0x5500#16, es := 0x2000#16, lead := { Leading.none with seg := some .es } } [(0, 0x7E#8), (0x20000, 0x99#8)])
      (fun t => t.cpu.ax == 0x5599#16 && t.cpu.si == 1#16) = true ∧
    runs (.stos .byte) (on { c0 with ax := 0x11#16, es := 0x2000#16, lead := { Leading.none with seg := some .cs } })
      (fun t => t.mem.get 0x20000 == 0x11#8 && t.cpu.di == 1#16) = true := by decide +kernel
/-- One element of G5. -/
theorem test_rep_stosw :
    runs (.stos .word) (on { c0 with ax := 0x1234#16, cx := 0x100#16, di := 0x400#16, lead := { Leading.none with rep := some true } })
      (fun t => t.cpu.di == 0x402#16 && t.cpu.cx == 0xFF#16 && t.cpu.phase == .element (.stos .word) && t.mem.get 0x401 == 0x12#8) = true := by
  decide +kernel

/-- J1, J2, J3, J4 and S4: jumps are relative to the next instruction and wrap. -/
theorem test_jmp_relative :
    runs (.jmpShort 0x0E#8) (on { c0 with ip := 0x102#16 }) (fun t => t.cpu.ip == 0x110#16) = true ∧
    runs (.jmpShort 0xFE#8) (on { c0 with ip := 0x102#16 }) (fun t => t.cpu.ip == 0x100#16) = true ∧
    runs (.jmpNear 0x00FD#16) (on { c0 with ip := 0x103#16 }) (fun t => t.cpu.ip == 0x200#16) = true ∧
    runs (.jmpNear 0x8000#16) (on { c0 with ip := 0x8000#16 }) (fun t => t.cpu.ip == 0#16) = true := by decide +kernel
/-- J5, J6, J7. -/
theorem test_jmp_absolute :
    runs (.jmpRm (.reg .bx)) (on (ab 0#16 0x1234#16)) (fun t => t.cpu.ip == 0x1234#16 && t.cpu.cs == 0xFFFF#16) = true ∧
    runs (.jmpFar 0x0100#16 0xF000#16) (on c0) (fun t => t.cpu.cs == 0xF000#16 && t.cpu.ip == 0x0100#16) = true ∧
    runs (.jmpMem (.noDisp .bx)) (onMem (ab 0#16 0x40#16) [(0x40, 0x78#8), (0x41, 0x56#8), (0x42, 0x34#8), (0x43, 0x12#8)])
      (fun t => t.cpu.cs == 0x1234#16 && t.cpu.ip == 0x5678#16) = true := by decide +kernel
/-- J8. -/
theorem test_call_near :
    runs (.callNear 0x007D#16) (on { c0 with ip := 0x103#16, ss := 0x2000#16, sp := 0x100#16 })
      (fun t => t.cpu.ip == 0x180#16 && t.cpu.sp == 0xFE#16 && t.mem.get 0x200FE == 3#8 && t.mem.get 0x200FF == 1#8) = true := by
  decide +kernel
/-- J9: CS above IP. -/
theorem test_call_far :
    runs (.callFar 0x0010#16 0x2000#16) (on { c0 with cs := 0x1000#16, ip := 0x105#16, ss := 0x2000#16, sp := 0x100#16 })
      (fun t => t.cpu.sp == 0xFC#16 && t.cpu.cs == 0x2000#16 && t.mem.get 0x200FC == 5#8 && t.mem.get 0x200FF == 0x10#8) = true := by
  decide +kernel
/-- J10 to J13. -/
theorem test_returns :
    let s (sp : Word) := onMem { c0 with sp := sp } [(0xFA, 3#8), (0xFB, 1#8), (0xFC, 5#8), (0xFD, 1#8), (0xFF, 0x10#8)]
    runs .retFar (s 0xFC#16) (fun t => t.cpu.ip == 0x105#16 && t.cpu.cs == 0x1000#16 && t.cpu.sp == 0x100#16) = true ∧
    runs (.retNearImm 4#16) (s 0xFA#16) (fun t => t.cpu.ip == 0x103#16 && t.cpu.sp == 0x100#16) = true ∧
    runs (.retFarImm 2#16) (s 0xFA#16) (fun t => t.cpu.cs == 0x105#16 && t.cpu.sp == 0x100#16) = true := by decide +kernel
/-- J14 to J19. -/
theorem test_conditional_jumps :
    let s (f : Flags) := on { c0 with ip := 0x56#16, f := f }
    runs (.jns 0xFA#8) (s Flags.cleared) (fun t => t.cpu.ip == 0x50#16) = true ∧
    runs (.jns 0xFA#8) (s { Flags.cleared with sf := true }) (fun t => t.cpu.ip == 0x56#16) = true ∧
    runs (.jg 2#8) (s { Flags.cleared with cf := true }) (fun t => t.cpu.ip == 0x58#16) = true ∧
    runs (.ja 2#8) (s { Flags.cleared with cf := true }) (fun t => t.cpu.ip == 0x56#16) = true ∧
    runs (.jl 2#8) (s { Flags.cleared with ofl := true }) (fun t => t.cpu.ip == 0x58#16) = true ∧
    runs (.jb 2#8) (s { Flags.cleared with cf := true }) (fun t => t.cpu.ip == 0x58#16) = true := by decide +kernel
/-- J20 to J25. -/
theorem test_loops :
    let s (cx : Word) := on { c0 with ip := 0x5A#16, cx := cx }
    runs (.loop 0xF6#8) (s 2#16) (fun t => t.cpu.cx == 1#16 && t.cpu.ip == 0x50#16) = true ∧
    runs (.loop 0xF6#8) (s 1#16) (fun t => t.cpu.cx == 0#16 && t.cpu.ip == 0x5A#16) = true ∧
    runs (.loop 0xF6#8) (s 0#16) (fun t => t.cpu.cx == 0xFFFF#16 && t.cpu.ip == 0x50#16) = true ∧
    runs (.loope 0xFB#8) (s 5#16) (fun t => t.cpu.cx == 4#16 && t.cpu.ip == 0x5A#16) = true ∧
    runs (.loopne 0xFB#8) (s 5#16) (fun t => t.cpu.cx == 4#16 && t.cpu.ip == 0x55#16) = true ∧
    runs (.jcxz 0x10#8) (s 0#16) (fun t => t.cpu.cx == 0#16 && t.cpu.ip == 0x6A#16) = true := by decide +kernel
/-- X1, but for the flag word; J26. -/
theorem test_int :
    let c : Cpu := { c0 with cs := 0x1000#16, ip := 0x102#16, ss := 0x2000#16, sp := 0x100#16, f := { Flags.cleared with ifl := true } }
    let s := onStack c [(0x84, 0x34#8), (0x85, 0x12#8), (0x87, 0x30#8)] [0x200FE]
    runs (.intN 0x21#8) s (fun t => t.cpu.cs == 0x3000#16 && t.cpu.ip == 0x1234#16 && t.cpu.sp == 0xFA#16 && !t.cpu.f.ifl &&
      t.byteAt 0x200FA == 2#8 && t.byteAt 0x200FD == 0x10#8) = true ∧
    runs .into s (fun t => t.cpu == c) = true := by decide +kernel
/-- X2. -/
theorem test_iret :
    runs .iret (onMem { c0 with sp := 0xFA#16 } [(0xFA, 3#8), (0xFB, 1#8), (0xFD, 0x10#8), (0xFE, 2#8), (0xFF, 0xF2#8)])
      (fun t => t.cpu.ip == 0x103#16 && t.cpu.cs == 0x1000#16 && t.cpu.sp == 0x100#16 && t.cpu.f == { Flags.cleared with ifl := true }) =
      true := by decide +kernel

/-- P1 to P3. -/
theorem test_flag_instructions :
    runs .cmc (on (carry c0)) (fun t => !t.cpu.f.cf) = true ∧ runs .stc (on c0) (fun t => t.cpu.f.cf) = true ∧
    runs .clc (on (carry c0)) (fun t => !t.cpu.f.cf) = true ∧ runs .std (on c0) (fun t => t.cpu.f.df) = true ∧
    runs .sti (on c0) (fun t => t.cpu.f.ifl && t.cpu.inhibit == false) = true := by decide
/-- P5, P7, P10 (the LOCK byte is remembered). -/
theorem test_processor_control :
    runs .hlt (on c0) (fun t => t.cpu.halted) = true ∧
    runs .wait { on c0 with env := { Env.quiet with test := true } } (fun t => t.cpu.phase == .testing) = true ∧
    runs .lockPrefix (on c0) (fun t => t.cpu.lead.lock && t.cpu.phase == .leading) = true ∧
    runs (.esc 1#3 0#3 (.mem (.direct 0x1000#16))) (on c0) (fun t => t.cpu == c0) = true := by decide +kernel

/-- G13: between two elements an interrupt returns to the repeat byte. -/
theorem test_interrupt_between_elements :
    let c : Cpu := { c0 with cs := 0x1000#16, ip := 0x102#16, ss := 0x2000#16, sp := 0x100#16, f := { Flags.cleared with ifl := true },
                             phase := .element (.movs .word), lead := { Leading.none with rep := some true, first := some 0x100#16, last := 0x100#16 } }
    let t := ({ onStack c [] [0x200FE] with env := { Env.quiet with intr := some 0x40#8 } }).boundary
    t.byteAt 0x200FA = 0#8 ∧ t.byteAt 0x200FB = 1#8 ∧ t.cpu.sp = 0xFA#16 ∧ t.cpu.phase = .complete := by decide +kernel
/-- X5: NMI before INTR, which is then not acknowledged. -/
theorem test_nmi_before_intr :
    let c : Cpu := { c0 with sp := 0x100#16, nmiPending := true, f := { Flags.cleared with ifl := true } }
    let t := ({ onStack c [(8, 0x55#8)] [0xFE] with env := { Env.quiet with intr := some 0x40#8 } }).boundary
    t.cpu.ip = 0x55#16 ∧ t.cpu.sp = 0xFA#16 ∧ t.env.intr = some 0x40#8 := by decide +kernel
/-- X6: INTR, then the single step on top of it. -/
theorem test_intr_then_single_step :
    let c : Cpu := { c0 with sp := 0x100#16, stepPending := true, f := { Flags.cleared with ifl := true, tf := true } }
    let t := ({ onStack c [(4, 0x11#8), (0x80, 0x22#8)] [0xFE, 0xF8] with env := { Env.quiet with intr := some 0x20#8 } }).boundary
    t.cpu.ip = 0x11#16 ∧ t.cpu.sp = 0xF4#16 ∧ t.byteAt 0xF4 = 0x22#8 := by decide +kernel
/-! ### The vectors: the VM87 -/

/-- A machine with a VM87 whose stack holds the given values, the first on top. -/
def onFpu (st : List Ext80) (l : List (Nat × Byte)) : State :=
  let s := onMem c0 l
  { s with plat := { s.plat with hasVm87 := true }
           fpu := st.reverse.foldl (fun f v => f.load { v := v, den := false } false) Fpu.reset }

/-- The same with other control bits. -/
def withCr (s : State) (cr : Word) : State := { s with fpu := { s.fpu with cr := cr } }

/-- ST(0) after the instruction, and the six flags. -/
def gives (i : Instr) (s : State) (v : Ext80) (flags : Word) : Bool :=
  runs i s fun t => t.fpu.st 0 == v && t.fpu.sr &&& 0x3F#16 == flags

/-- Whole numbers as temporary reals. -/
abbrev one : Ext80 := mkExt false 0x3FFF 0x8000000000000000
abbrev two : Ext80 := mkExt false 0x4000 0x8000000000000000
abbrev three : Ext80 := mkExt false 0x4000 0xC000000000000000
abbrev four : Ext80 := mkExt false 0x4001 0x8000000000000000
abbrev minusThree : Ext80 := mkExt true 0x4000 0xC000000000000000
abbrev x125 : Ext80 := mkExt false 0x4005 0xFB80000000000000

/-- N1: ST is 7, the tag is 00. -/
theorem test_fld_short :
    runs (.fldM32 (.direct 0x1000#16)) (onFpu [] [(0x1002, 0x80#8), (0x1003, 0x3F#8)])
      (fun t => t.fpu.st 0 == one && t.fpu.top == 7#3 && t.fpu.tagOf 0 == 0) = true := by decide +kernel
/-- N2, N3. -/
theorem test_fild_fbld :
    runs (.fildM16i (.direct 0x2000#16)) (onFpu [] [(0x2000, 0xFE#8), (0x2001, 0xFF#8)])
      (fun t => t.fpu.st 0 == mkExt true 0x4000 0x8000000000000000) = true ∧
    runs (.fbldM80 (.direct 0x2000#16)) (onFpu [] [(0x2000, 0x34#8), (0x2001, 0x12#8), (0x2009, 0x80#8)])
      (fun t => t.fpu.st 0 == mkExt true 0x4009 0x9A40000000000000) = true := by decide +kernel
/-- N4. -/
theorem test_constants :
    gives .fld1 (onFpu [] []) one 0#16 = true ∧
    runs .fldz (onFpu [] []) (fun t => t.fpu.st 0 == extZero false && t.fpu.tagOf 0 == 1) = true := by decide +kernel
/-- The format vectors after N33: the smallest short denormal (as the unnormal of the same value, 2^(3F81h - 3FFFh - 23)
= 2^-149), the word integer 8000h, the two long reals. -/
theorem test_formats :
    (ofReal false 1).den = true ∧ (ofReal false 1).v = mkExt false 0x3F81 (2 ^ 40) ∧
    extOfIntValue (signedBits 16 0x8000) = mkExt true 0x400E 0x8000000000000000 ∧
    (ofReal true 0x3FF0000000000000).v = one ∧ (ofReal true 0x7FF0000000000000).v = extInf false := by decide +kernel
/-- N5, N6, N7, N8: the sum is exact; the quotient follows RC and PC. -/
theorem test_fadd_fdiv :
    gives (.faddStSti 1#3) (onFpu [one, three] []) four 0#16 = true ∧
    gives (.fdivStSti 1#3) (onFpu [one, three] []) (mkExt false 0x3FFD 0xAAAAAAAAAAAAAAAB) 0x20#16 = true ∧
    gives (.fdivStSti 1#3) (withCr (onFpu [one, three] []) 0x0FBF#16) (mkExt false 0x3FFD 0xAAAAAAAAAAAAAAAA) 0x20#16 = true ∧
    gives (.fdivStSti 1#3) (withCr (onFpu [one, three] []) 0x00BF#16) (mkExt false 0x3FFD 0xAAAAAB0000000000) 0x20#16 = true := by
  decide +kernel
/-- N9, N10. -/
theorem test_fdiv_zero :
    gives (.fdivStSti 1#3) (onFpu [one, extZero true] []) (extInf true) 4#16 = true ∧
    gives (.fdivStSti 1#3) (onFpu [extZero false, extZero false] []) indefinite 1#16 = true := by decide +kernel

/-- C3, C2, C0 after the instruction. -/
def codes (i : Instr) (s : State) (l : List Bool) : Bool :=
  runs i s fun t => [t.fpu.sr.getLsbD 14, t.fpu.sr.getLsbD 10, t.fpu.sr.getLsbD 8] == l

/-- N11 to N16. -/
theorem test_comparisons :
    codes (.fcomSti 1#3) (onFpu [one, three] []) [false, false, true] = true ∧
    codes (.fcomSti 1#3) (onFpu [three, three] []) [true, false, false] = true ∧
    codes (.fcomSti 1#3) (onFpu [one, mkExt false 32767 0xA000000000000000] []) [true, true, true] = true ∧
    codes .ftst (onFpu [extZero true] []) [true, false, false] = true ∧
    runs .fxam (onFpu [minusThree] []) (fun t => t.fpu.sr &&& 0x4700#16 == 0x0600#16) = true := by decide +kernel
/-- N17, S8: the four rounding modes; N18. -/
theorem test_frndint :
    gives .frndint (onFpu [x125] []) (mkExt false 0x4005 0xFC00000000000000) 0x20#16 = true ∧
    gives .frndint (withCr (onFpu [x125] []) 0x07BF#16) (mkExt false 0x4005 0xFA00000000000000) 0x20#16 = true ∧
    gives .frndint (withCr (onFpu [x125] []) 0x0BBF#16) (mkExt false 0x4005 0xFC00000000000000) 0x20#16 = true ∧
    gives .frndint (withCr (onFpu [x125] []) 0x0FBF#16) (mkExt false 0x4005 0xFA00000000000000) 0x20#16 = true ∧
    gives .frndint (onFpu [mkExt false 0x4000 0xA000000000000000] []) two 0x20#16 = true := by decide +kernel
/-- N19, N20: the integer stores. -/
theorem test_fist :
    runs (.fistM16i (.direct 0x3000#16)) (onFpu [x125] []) (fun t => t.mem.get 0x3000 == 0x7E#8 && t.fpu.sr.getLsbD 5) = true ∧
    runs (.fistpM16i (.direct 0x3000#16)) (onFpu [extOfIntValue 40000] [])
      (fun t => t.mem.get 0x3001 == 0x80#8 && t.fpu.sr.getLsbD 0 && t.fpu.isEmpty 7) = true := by decide +kernel
/-- N21, S10: overflow and underflow of a short real. -/
theorem test_fst_short :
    runs (.fstM32 (.direct 0x3000#16)) (onFpu [mkExt false (0x3FFF + 200) 0x8000000000000000] [])
      (fun t => t.mem.get 0x3003 == 0x7F#8 && t.mem.get 0x3002 == 0x80#8 && t.fpu.sr &&& 0x3F#16 == 0x28#16) = true ∧
    runs (.fstM32 (.direct 0x3000#16)) (onFpu [mkExt false 0x3F7D 0x8000000000000000] [])
      (fun t => t.mem.get 0x3002 == 8#8 && t.mem.get 0x3003 == 0#8 && t.fpu.sr &&& 0x3F#16 == 0x10#16) = true := by decide +kernel
/-- N22, S9; N23; N24. -/
theorem test_fxtract_fscale_fprem :
    runs .fxtract (onFpu [mkExt false 0x3FF8 0xC000000000000000] [])
      (fun t => t.fpu.st 0 == mkExt false 0x3FFF 0xC000000000000000 && t.fpu.st 1 == mkExt true 0x4001 0xE000000000000000) = true ∧
    gives .fscale (onFpu [mkExt false 0x3FFF 0xC000000000000000, mkExt true 0x4001 0xE000000000000000] [])
      (mkExt false 0x3FF8 0xC000000000000000) 0#16 = true ∧
    runs .fprem (onFpu [mkExt false 0x4001 0xE000000000000000, two] [])
      (fun t => t.fpu.st 0 == one && t.fpu.sr &&& 0x4700#16 == 0x4200#16) = true := by decide +kernel
/-- N25, N26. R516, R517, R556: FABS clears the sign bit of a NAN too, and FCHS inverts that of a denormal, without IE or
DE. -/
theorem test_fsqrt_fabs_fchs :
    gives .fsqrt (onFpu [four] []) two 0#16 = true ∧ gives .fsqrt (onFpu [extZero true] []) (extZero true) 0#16 = true ∧
    gives .fsqrt (onFpu [mkExt true 0x4001 0x8000000000000000] []) indefinite 1#16 = true ∧
    gives .fabs (onFpu [indefinite] []) (mkExt false 32767 (3 * 2 ^ 62)) 0#16 = true ∧
    gives .fchs (onFpu [mkExt false 0 1] []) (mkExt true 0 1) 0#16 = true ∧
    gives .fabs (onFpu [minusThree] []) three 0#16 = true ∧ gives .fchs (onFpu [extZero false] []) (extZero true) 0#16 = true := by
  decide +kernel
/-- N27. -/
theorem test_fxch :
    runs (.fxchSti 1#3) (onFpu [one, three] []) (fun t => t.fpu.st 0 == three && t.fpu.st 1 == one) = true := by decide +kernel
/-- N28: the ninth load finds the register full; X9: unmasked, nothing is loaded and the request and BUSY rise. -/
theorem test_stack_overflow :
    runs .fld1 (onFpu (List.replicate 8 one) []) (fun t => t.fpu.st 0 == indefinite && t.fpu.top == 7#3 && t.fpu.sr.getLsbD 0) = true ∧
    runs .fld1 (withCr (onFpu (List.replicate 8 one) []) 0x033E#16)
      (fun t => t.fpu.top == 0#3 && t.fpu.int && t.fpu.busy && t.fpu.st 7 == one) = true := by decide +kernel
/-- N29, N31, N32, N33. -/
theorem test_control :
    runs (.fstcw (.direct 0x4000#16)) (onFpu [] []) (fun t => t.mem.get 0x4000 == 0xBF#8 && t.mem.get 0x4001 == 3#8) = true ∧
    runs .finit (onFpu [one] []) (fun t => t.fpu.cr == 0x03BF#16 && t.fpu.tag == 0xFFFF#16) = true ∧
    runs .feni (onFpu [] []) (fun t => !t.fpu.cr.getLsbD 7) = true ∧ runs .fdisi (onFpu [] []) (fun t => t.fpu.cr.getLsbD 7) = true ∧
    runs .fclex { onFpu [] [] with fpu := { Fpu.reset with sr := 0x80A1#16 } } (fun t => t.fpu.sr == 0#16) = true := by decide +kernel

/-! ### The vectors: the VM89 -/

/-- A VM89 whose channel 1 runs a program with the given registers. -/
def onIop (c : IopChan) (l : List (Nat × Byte)) : State :=
  let s := onMem c0 l
  { s with plat := { s.plat with hasVm89 := true }
           iop := { s.iop with initialised := true, cur := .one, ccp := 0x500#20, ch1 := { c with activity := .program } } }

/-- The channel after the instruction passes the test. -/
def channel (i : Instr) (s : State) (p : IopChan → Bool) : Bool := runs i s fun t => p t.iop.ch1

/-- The channel after reset. -/
abbrev k0 : IopChan := IopChan.reset

/-- I1, I2. -/
theorem test_iop_mov :
    let s := onIop { k0 with pp := 0x600#20 } [(0x604, 1#8), (0x605, 0x80#8)]
    channel (.iMovRegMem .bc (.off .pp 4#8)) s (fun c => c.bc == 0x8001#16) = true ∧
    channel (.iMovRegMem .ga (.off .pp 4#8)) s (fun c => c.ga == 0xF8001#20 && c.tagGa) = true := by decide +kernel
/-- I3, I4. -/
theorem test_iop_movi :
    channel (.iMoviRegData .bc 0x100#16) (onIop k0 []) (fun c => c.bc == 0x100#16) = true ∧
    channel (.iMoviRegData .ga 0x8000#16) (onIop k0 []) (fun c => c.ga == 0xF8000#20 && c.tagGa) = true := by decide +kernel
/-- I5, in the remote configuration, where a RAM stands at the port. -/
theorem test_iop_movbi_io :
    let s := onIop { k0 with gb := 0x40#20, tagGb := true } []
    runs (.iMovbiMemData (.base .gb) 0x1F#8) { s with plat := { s.plat with iopRemote := true } }
      (fun t => t.remote.get 0x40 == 0x1F#8 && t.mem.get 0x40 == 0#8) = true := by decide +kernel
/-- I6, I7, I8. -/
theorem test_iop_pointers :
    channel (.iLpdPtrMem .ga (.off .pp 4#8)) (onIop { k0 with pp := 0x600#20, tagGa := true } [(0x604, 0x34#8), (0x605, 0x12#8), (0x607, 0x20#8)])
      (fun c => c.ga == 0x21234#20 && !c.tagGa) = true ∧
    channel (.iLpdiPtr .gb 0x0010#16 0x2000#16) (onIop k0 []) (fun c => c.gb == 0x20010#20 && !c.tagGb) = true ∧
    channel (.iMovpPtrMem .tp (.off .pp 8#8)) (onIop { k0 with pp := 0x600#20 } [(0x608, 0x45#8), (0x609, 0x23#8), (0x60A, 0x10#8)])
      (fun c => c.tp == 0x12345#20 && !c.tagTp) = true := by decide +kernel
/-- I9 to I11. -/
theorem test_iop_add :
    channel (.iIncReg .ga) (onIop { k0 with ga := 0xFFFFF#20 } []) (fun c => c.ga == 0#20 && !c.tagGa) = true ∧
    channel (.iDecReg .bc) (onIop k0 []) (fun c => c.bc == 0xFFFF#16) = true ∧
    channel (.iAddiRegData .ga 0x100#16) (onIop { k0 with ga := 0xF80#20 } []) (fun c => c.ga == 0x1080#20) = true := by decide +kernel
/-- I12, I13. -/
theorem test_iop_logic :
    channel (.iAndiRegData .ix 0xFF#16) (onIop { k0 with ix := 0x1234#16 } []) (fun c => c.ix == 0x34#16) = true ∧
    channel (.iNotReg .bc) (onIop { k0 with bc := 5#16 } []) (fun c => c.bc == 0xFFFA#16) = true := by decide +kernel
/-- I14, I15. -/
theorem test_iop_bits :
    let s := onIop { k0 with ga := 0x40#20, gb := 0x50#20 } [(0x52, 0xFF#8)]
    runs (.iSetbMem (.base .ga) 5#3) s (fun t => t.mem.get 0x40 == 0x20#8) = true ∧
    runs (.iClrMem (.off .gb 2#8) 0#3) s (fun t => t.mem.get 0x52 == 0xFE#8) = true := by decide +kernel
/-- I16 to I18: TP is TP_next here. -/
theorem test_iop_jumps :
    channel (.iJmp 0xFD#8) (onIop { k0 with tp := 0x703#20 } []) (fun c => c.tp == 0x700#20) = true ∧
    channel (.iJnzReg .bc 0xFA#8) (onIop { k0 with tp := 0x713#20, bc := 1#16 } []) (fun c => c.tp == 0x70D#20) = true ∧
    channel (.iJnzReg .bc 0xFA#8) (onIop { k0 with tp := 0x713#20 } []) (fun c => c.tp == 0x713#20) = true := by decide +kernel
/-- I19, I20, I21. -/
theorem test_iop_tests :
    let s (mc : Word) (b : Byte) := onIop { k0 with tp := 0x700#20, ga := 0x40#20, mc := mc } [(0x40, b)]
    channel (.iJmceMem (.base .ga) 2#8) (s 0x1E0C#16 0x6D#8) (fun c => c.tp == 0x702#20) = true ∧
    channel (.iJmcneMem (.base .ga) 2#8) (s 0xFF0D#16 0x0A#8) (fun c => c.tp == 0x702#20) = true ∧
    channel (.iJbtMem (.base .ga) 7#3 0xFD#8) (s 0#16 0x80#8) (fun c => c.tp == 0x6FD#20) = true := by decide +kernel
/-- I22, I23, I24. -/
theorem test_iop_tsl :
    let s (z : Bool) (b : Byte) : State :=
      let s := onIop { k0 with tp := 0x704#20, ga := 0x40#20 } [(0x40, b)]
      { s with plat := { s.plat with tslJumpWhenZero := z } }
    let i : Instr := .iTslMemData (.base .ga) 0xFF#8 0xFC#8
    runs i (s true 0#8) (fun t => t.iop.ch1.tp == 0x700#20 && t.mem.get 0x40 == 0#8) = true ∧
    runs i (s true 1#8) (fun t => t.iop.ch1.tp == 0x704#20 && t.mem.get 0x40 == 0xFF#8) = true ∧
    runs i (s false 0#8) (fun t => t.iop.ch1.tp == 0x704#20 && t.mem.get 0x40 == 0xFF#8) = true := by decide +kernel
/-- I25, I26, I27, I28. -/
theorem test_iop_control :
    channel (.iWid false true) (onIop { k0 with psw := 2#8 } []) (fun c => c.psw == 1#8) = true ∧
    runs .iSintr (onIop { k0 with psw := 8#8 } []) (fun t => t.iop.ch1.psw == 0x18#8 && t.line .sintr1) = true ∧
    runs .iSintr (onIop k0 []) (fun t => t.iop.ch1.psw == 0x10#8 && !t.line .sintr1) = true ∧
    runs .iHlt (onIop { k0 with psw := 4#8 } [(0x501, 0xFF#8)])
      (fun t => t.mem.get 0x501 == 0#8 && t.iop.ch1.psw == 0#8 && t.iop.ch1.activity == .idle) = true := by decide +kernel
/-- S17: a suspended program's TP and PSW in the parameter block. -/
theorem test_iop_suspend :
    let s := onIop { k0 with tp := 0x12345#20, pp := 0x600#20, psw := 4#8, ca := true } [(0x500, 6#8)]
    (match s.iopAnswer .one with
      | .next t => t.mem.get 0x600 == 0x45#8 && t.mem.get 0x601 == 0x23#8 && t.mem.get 0x602 == 0x10#8
      | _ => false) = true := by decide +kernel
/-- The initialisation vector of 2.10. -/
theorem test_iop_initialise :
    let s := onMem c0 [(0xFFFF6, 1#8), (0xFFFFA, 0x40#8), (0x400, 1#8), (0x404, 0x50#8), (0x501, 0xFF#8)]
    (match s.iopInitialise false with
      | .next t => t.iop.ccp == 0x500#20 && t.mem.get 0x501 == 0#8 && t.iop.initialised && t.iop.ioBus16
      | _ => false) = true := by decide +kernel

/-! ### The vectors: the devices -/

/-- 2.11, the VT37 after the nine writes of its table. -/
def dmaReady : Vt37 :=
  [(0xD, 0#8), (8, 0#8), (0xB, 0x45#8), (0xC, 0#8), (2, 0#8), (2, 0x20#8), (3, 3#8), (3, 0#8), (0xF, 1#8)].foldl
    (fun d w => d.write true w.1 w.2) Vt37.reset

/-- The same with DREQ1, out of SI. -/
def dmaAsked : Vt37 := ({ dmaReady with dreq := 2#4 }).settle

/-- R746: the channel is the one for which the controller has left SI, also when channel 0 asks later by software; of two
requests that come together the lower wins; HLDA without HRQ moves nothing. -/
theorem test_dma_priority :
    dmaAsked.chosen = some 1#2 ∧ ((dmaAsked.write true 9 4#8).settle).chosen = some 1#2 ∧
    ((({ dmaReady with dreq := 2#4 }).write true 9 4#8).settle).chosen = some 0#2 ∧
    (let s : State := { State.reset with vt37 := dmaAsked }
     match ({ s with vt37 := s.vt37.write true 9 4#8 }).dmaGrant 1 false [0x5A#8] with
      | .next t => t.mem.get 0x2000 == 0x5A#8 && t.vt37.chosen == none && t.settleDma.vt37.chosen == some 0#2
      | _ => false) = true ∧
    (match ({ State.reset with vt37 := dmaReady }).dmaGrant 1 false [0x5A#8] with
      | .next t => t.vt37 == dmaReady && t.mem.get 0x2000 == State.reset.mem.get 0x2000
      | _ => false) = true := by
  decide +kernel

/-- 2.11: one cycle, and the fourth and last. -/
theorem test_dma_cycle :
    let s : State := { State.reset with vt37 := dmaAsked }
    (match s.dmaGrant 1 false [0x5A#8] with
      | .next t => t.mem.get 0x2000 == 0x5A#8 && (t.vt37.ch.get 1).car == 0x2001#16 && (t.vt37.ch.get 1).cwr == 2#16
      | _ => false) = true ∧
    (let d := dmaReady.advance 1 |>.advance 1 |>.advance 1 |>.advance 1
     (d.ch.get 1).car = 0x2004#16 ∧ (d.ch.get 1).cwr = 0xFFFF#16) := by decide +kernel
/-- V1: OUT rises after N + 1 clocks. -/
theorem test_timer_mode0 :
    let c := (((({ PitChan.reset with gate := true }).control 0x30#8).writeByte 3#8 0#16).writeByte 0#8 0#16)
    c.out = false ∧ (((c.tick 0#16).tick 0#16).tick 0#16).out = false ∧ ((((c.tick 0#16).tick 0#16).tick 0#16).tick 0#16).out = true ∧
    (c.tick 0#16).ce = 3#16 := by decide +kernel
/-- V5: the latched count is read low byte first. -/
theorem test_timer_latch :
    let d := ({ Vi54.reset with c1 := { PitChan.reset with rcw := 0x38#6, ce := 0x1234#16 } }).write 3 0x40#8 0#16 0#16 0#16
    (d.read 1 0#16).1 = 0x34#8 ∧ ((d.read 1 0#16).2.read 1 0#16).1 = 0x12#8 := by decide +kernel
/-- U2v: ports A and B are outputs and the timer runs. -/
theorem test_ru55_control :
    let d := ((Ru55.reset.write 4 0x10#8).write 5 0x40#8).write 0 0xC3#8
    d.running = true ∧ d.count = 0x10#14 ∧ (d.write 0 0x43#8).running = false := by decide +kernel
/-- 2.11: Specify. -/
theorem test_specify :
    let d := ((Vg72.reset.write 1 3#8).write 1 0xDF#8).write 1 2#8
    d.srt = 0xD#4 ∧ d.hut = 0xF#4 ∧ d.hlt = 1#7 ∧ d.nd = false ∧ d.phase = .idle := by decide +kernel

/-! ### What the vectors leave out: expected values worked out by hand from the rules -/

/-- The reset machine with a VI54 at the ports 40h to 47h, the CA decoder at 48h and 49h, memory from 50h on,
and a CA decoder of one byte at 5Ah. -/
def withPorts : State :=
  { State.reset with plat := { Platform.default with
      hasVm89 := true
      ioMap := [⟨0x40, 8, .device .vi54 1⟩, ⟨0x48, 2, .device .iopCa 0⟩, ⟨0x50, 4, .ram⟩, ⟨0x54, 4, .rom⟩,
                ⟨0x5A, 1, .device .iopCa 0⟩] } }

/-- R412, R520, R521: `1 log2 8 = 3`, exactly and without PE; with tolerance 0 and PE `2^0.5 - 1`, whose mantissa is that
of the root of two, B504F333 F9DE6484 597Dh, less one and shifted. -/
theorem test_transcendental :
    let c : FCtl := { Fpu.reset.ctl 0 with prec := 64, wildN := 0 }
    approxYl2x c 1 (mkExt false 0x4002 (2 ^ 63)) one = FRes.exact three ∧
    approx2xm1 c 0 (mkExt false 0x3FFE (2 ^ 63)) = { FRes.exact (mkExt false 0x3FFD 0xD413CCCFE7799211) with pe := true } := by
  decide +kernel

/-- R434, R437, R521: FYL2X with x = 1 gives a zero of a number y, and of a NAN or an unnormal y no defined result. -/
theorem test_log_of_one (c : FCtl) :
    approxYl2x c 1 one three = FRes.exact (extZero c.looseSign) ∧ approxYl2x c 1 one indefinite = c.undefinedResult ∧
    approxYl2x c 1 one (mkExt false 9 1) = c.undefinedResult := by
  have e : ∀ y, approxYl2x c 1 one y = approxProduct c 1 y (exactLog one).1 (exactLog one).2 (extMant one == 2 ^ 63) :=
    fun y => if_pos (by decide +kernel)
  refine ⟨?_, ?_, ?_⟩ <;> rw [e] <;> unfold approxProduct
  · rw [if_pos (by decide +kernel), if_pos (by decide +kernel)]
  · rw [if_neg (by decide +kernel)]
  · rw [if_neg (by decide +kernel)]

/-- R425, R428, R556: the store of a denormal as a short real sets UE and no DE; with UM = 0 it stores nothing. -/
theorem test_store_of_a_denormal :
    let tiny : Ext80 := 1#80
    (storeReal (Fpu.reset.ctl 0) false tiny).ue = true ∧
    (let s : State := onFpu [tiny] []
     match exec (.fstM32 (.direct 0x10#16)) { s with fpu := { s.fpu with cr := 0x032D#16 } } with
      | .next t => bit t.fpu.sr 4 && !bit t.fpu.sr 1 && t.mem == s.mem
      | _ => false) = true := by decide +kernel

/-- R53, R462, R528: the SR that FNSTSW stores has B = 1, because the VM87 executes it; SR keeps no B afterwards. -/
theorem test_stored_busy :
    (match exec (.fstsw (.direct 0x10#16)) (onFpu [one] []) with
      | .next t => t.mem.get 0x11 == 0xB8#8 && !t.fpu.busy
      | _ => false) = true := by decide +kernel

/-- R130, R131: the memory of the RU55 holds code. A byte that the queue has taken stays as it was; after a transfer of
control the byte that stands there is fetched. -/
theorem test_queue_of_device_bytes :
    let s : State := { State.reset with
      cpu := { c0 with cs := 0x400#16, ahead := [(0x4000, 0x90#8)] }
      plat := { Platform.default with memoryMap := [⟨0x4000, 0x100, .device .ru55Ram 0⟩] } }
    let t := s.write8 0x4000 0xF4#8
    (t.fetchByte 0x4000).1 = 0x90#8 ∧ ((t.jumpNear 0#16).fetchByte 0x4000).1 = 0xF4#8 ∧ (t.cpu.dequeue 1).ahead = [] := by
  decide +kernel

/-- R112: the VM86 fetches the byte at an even address with the one above it, which the queue then holds; the VM88
fetches one byte. -/
theorem test_fetch_of_a_word :
    let s (vm88 : Bool) : State := { State.reset with
      ru55 := { Ru55.reset with ram := [(0, 0x90#8), (1, 0xF4#8)] }
      plat := { Platform.default with vm88 := vm88, memoryMap := [⟨0x4000, 0x100, .device .ru55Ram 0⟩] } }
    ((s false).fetchByte 0x4000).2.cpu.ahead = [(0x4001, 0xF4#8)] ∧ ((s true).fetchByte 0x4000).2.cpu.ahead = [] ∧
    ((s false).fetchByte 0x4001).2.cpu.ahead = [] := by decide +kernel

/-- R41, R310: a request that waits is not taken at the boundary after POP SS, and is taken between the elements of the
string instruction that follows. -/
theorem test_request_after_segment_load :
    (on { c0 with inhibit := true, nmiPending := true }).boundary.cpu.nmiPending = true ∧
    (on { c0 with phase := .element (.movs .byte), nmiPending := true, shadow := true }).boundary.cpu.nmiPending = false := by
  decide +kernel

/-- R781: on the VM88 an RU55 whose chip select is block 00101 of A15-A11 answers the direct port 28h and DX = 2828h, and
neither DX = 0028h nor, on the VM86, the direct port 28h. -/
theorem test_ru55_select :
    let s (b : Bool) : State := { State.reset with plat := { Platform.default with
      vm88 := b, ioMap := [⟨0x2800, 0x800, .device .ru55 0⟩] } }
    let wrote (t : State) : Bool := t.ru55.hold == 0x5A#16
    wrote ((s true).out8 true 0x2C#16 0x5A#8) = true ∧ wrote ((s true).out8 false 0x2C2C#16 0x5A#8) = true ∧
    wrote ((s true).out8 false 0x2C#16 0x5A#8) = false ∧ wrote ((s false).out8 true 0x2C#16 0x5A#8) = false ∧
    (s true).portPlace true 0x30#16 = (.absent, 0x30) := by decide +kernel

/-- R841: the VM87 has a word to write and the VM89 a channel attention to answer, so that both can ask for the bus. -/
theorem test_both_ask_for_the_bus :
    let s : State := { State.reset with
      iop := { Iop.reset with initialised := true, ch1 := { k0 with ca := true } }
      plat := { Platform.default with hasVm87 := true, hasVm89 := true }
      run := { FpuRun.idle with writes := [(0, 0#8)] } }
    s.bothAsk = true := by decide +kernel

/-- R772: a byte read from the disk that nobody has taken when the sector ends is an overrun. -/
theorem test_overrun_at_the_sector_end :
    let d : Vg72 := { Vg72.reset with phase := .execution, cmd := [0x06#8], n := 2#8 }
    bit ((d.event (.byte 1#8)).event .sectorEnd).st1 4 = true ∧
    bit (((d.event (.byte 1#8)).takeData).event .sectorEnd).st1 4 = false := by decide +kernel

/-- R777: Read track with R = 5 and EOT = 2 reads two data fields, and gives R = 1 of the next cylinder. -/
theorem test_read_track :
    let d : Vg72 := { Vg72.reset with drive := Bank4.all { DriveLines.low with ready := true } }
    let d := [0x42#8, 0#8, 3#8, 0#8, 5#8, 2#8, 2#8, 0x1B#8, 0xFF#8].foldl (fun d b => d.write 1 b) d
    (d.event .sectorEnd).phase = .execution ∧ ((d.event .sectorEnd).event .sectorEnd).result =
      [0#8, 0#8, 0#8, 4#8, 0#8, 1#8, 2#8] := by decide +kernel

/-- R518, R519, R521, U12: results below the normal numbers are denormals without UE, whatever UM is; y of FPTAN stays a
normal number. -/
theorem test_small_transcendentals :
    let least := mkExt false 1 (2 ^ 63)
    let c : FCtl := { Fpu.reset.ctl 0 with um := false, wildN := 1 }
    approxAtan c 1 (mkExt false 0x4001 (2 ^ 63)) least = { FRes.exact (mkExt false 0 (2 ^ 61)) with pe := true } ∧
    approxYl2x c 1 (mkExt false 0x3FFF (3 * 2 ^ 62)) least =
      { FRes.exact (mkExt false 0 0x4AE00D1CFDEB43D0) with pe := true } ∧
    extClass (approxTanY { c with wildX := 0#80 } 1 true least).val = .normal := by decide +kernel

/-- U36: a read or a load left half done, then a latch command: the count latched is any value; and any value stands in CE
after a control word that leaves a load. R763: with a constant of 3 OUT of
mode 3 is any level. -/
theorem test_timer_any_value :
    let c : PitChan := { PitChan.reset with rcw := 0x30#6, ce := 0x1234#16, readHigh := true }
    (c.latchCount 0x5678#16).ol = 0x5678#16 ∧ ({ c with readHigh := false }.latchCount 0x5678#16).ol = 0x1234#16 ∧
    (let d : Vi54 := { Vi54.reset with c0 := { c with readHigh := false, writeHigh := true } }
     (d.command 0#8 7#16 0#16 0#16).c0.ol = 7#16 ∧ (d.command 0x30#8 7#16 0#16 0#16).c0.ce = 7#16) ∧
    (let d : PitChan := { PitChan.reset with rcw := 0x36#6, gate := true, counting := true, ce := 3#16, period := 3#16 }
     (d.tick 7#16).out = true ∧ (d.tick 6#16).out = false) := by decide +kernel

/-- R564: the VM89 takes the byte that its queue has read from a device, and does not read it again. -/
theorem test_iop_keeps_a_device_byte :
    let s : State := { withPorts with iop := { withPorts.iop with initialised := true, ioBus16 := true } }
    (s.iopFirstByte { k0 with tagTp := true, tp := 0x49#20, queued := true, kept := some 0x20#8 }).1 = 0x20#8 ∧
    (s.iopFirstByte { k0 with tagTp := true, tp := 0x49#20, kept := some 0x20#8 }).2.iop.ch2.ca = false ∧
    (s.iopFirstByte { k0 with tagTp := true, tp := 0x49#20 }).2.iop.ch2.ca = true := by decide +kernel

/-- R795: an output of the VI54 wired to TEST. -/
theorem test_test_pin_wired :
    let s : State := { State.reset with plat := { Platform.default with testWire := some .timer0 } }
    s.testLevel = false ∧ ({ s with vi54 := { s.vi54 with c0 := { s.vi54.c0 with out := true } } }).testLevel = true := by
  decide +kernel

/-- R606: LPDI has AA = 00 alone. -/
theorem test_lpdi_other_aa :
    (decode89 [0x11#8, 0x08#8, 1#8, 0#8, 2#8, 0#8]).toOption.isSome = true ∧
    (decode89 [0x13#8, 0x08#8, 1#8, 0#8, 2#8, 0#8]).toOption = none := by decide +kernel

/-- R83, R111, R113: a word to the even port of the CA decoder is one CA, for channel 1, on the 16-bit bus, and two on
the 8-bit bus. -/
theorem test_word_to_ca_port :
    let s : State := { withPorts with iop := { withPorts.iop with initialised := true } }
    let cas (t : State) : Bool × Bool := (t.iop.ch1.ca, t.iop.ch2.ca)
    cas (s.ioWrite false .word 0x48#16 0#16) = (true, false) ∧
    cas (({ s with plat := { s.plat with vm88 := true } }).ioWrite true .word 0x48#16 0#16) = (true, true) := by decide +kernel

/-- R781: a cell of the RU55's memory is selected by the low eight bits of the address. -/
theorem test_ru55_memory :
    let s : State := { State.reset with plat := { Platform.default with memoryMap := [⟨0x4000, 0x200, .device .ru55Ram 0⟩] } }
    ((s.write8 0x4005 0x5A#8).read8 0x4105).1 = 0x5A#8 ∧ (s.write8 0x4005 0x5A#8).mem = [] := by decide +kernel

/-- R786: every pulse lowers the counter by two, for an even and an odd N, to 2 at the last; the book's recipe gives the
pulses still to come where the low bit marks the first half; a stop at the end takes back a start at the end. -/
theorem test_ru55_counter :
    let d (n : Byte) := ((Ru55.reset.write 4 n).write 5 0x40#8).write 0 0xC0#8
    let counts (n : Byte) : List Nat := (List.range n.toNat).map fun k =>
      (((List.range k).foldl (fun e _ => e.timerTick) (d n)).counterWord 0#16).toNat % 2 ^ 14
    counts 6#8 = (if Config.ruMarksHalf then [7, 5, 3, 6, 4, 2] else [6, 4, 2, 6, 4, 2]) ∧
    counts 5#8 = (if Config.ruMarksHalf then [9, 7, 5, 4, 2] else [5, 3, 1, 4, 2]) ∧
    (((d 6#8).write 0 0xC0#8).write 0 0x80#8).stopAtEnd = true ∧
    (((d 6#8).write 0 0xC0#8).write 0 0x80#8).startAtEnd = false := by
  dsimp only [Ru55.counterWord]
  refine ⟨?_, ?_, by decide +kernel⟩ <;> cases Config.ruMarksHalf <;> decide +kernel

/-- R760: a new constant puts OUT back to 0. R765: in mode 5 nothing counts before an edge of GATE. R763: while GATE = 0
the OUT of mode 3 is 1, and with GATE = 1 it has the level of its half again. -/
theorem test_timer_gates :
    let after (mode : Byte) (c : PitChan) : PitChan := ((c.control mode).writeByte 3#8 0#16).writeByte 0#8 0#16
    (({ after 0x30#8 { PitChan.reset with gate := true } with out := true }).writeByte 2#8 0#16 |>.writeByte 0#8 0#16).out = false ∧
    ((after 0x3A#8 PitChan.reset).tick 0#16).ce = (after 0x3A#8 PitChan.reset).ce ∧
    (((after 0x3A#8 PitChan.reset).gateTo true).tick 0#16).ce = 3#16 ∧
    (let c := [0#16, 0#16, 0#16, 0#16].foldl PitChan.tick
        (((PitChan.control { PitChan.reset with gate := true } 0x36#8).writeByte 5#8 0#16).writeByte 0#8 0#16)
     c.out = false ∧ (c.gateTo false).out = true ∧ ((c.gateTo false).gateTo true).out = false) := by decide +kernel

/-- R743, R749, R772: the VG72, waiting for a byte of a sector in DMA mode, takes the byte of a read cycle on DACK; the
last cycle pulses EOP, which is its pin TC. R734: with DACK active at 1 the VG72 does not see it. -/
theorem test_dma_serves_the_fdc :
    let f : Vg72 := ({ Vg72.reset with phase := .execution, cmd := [0x05#8], n := 2#8 }).request
    let d : Vt37 := (dmaReady.write true 0xB 0x49#8).write true 0xC 0#8
    let s : State := { State.reset with
      vt37 := { d with dreq := 2#4, chosen := some 1, ch := d.ch.set 1 { d.ch.get 1 with cwr := 0#16 } }, vg72 := f, mem := [(0x2000, 0x77#8)]
      plat := { Platform.default with fdcDma := some (0, 1) } }
    (match s.dmaGrant 1 false [] with
      | .next t => t.vg72.rio == 0x77#8 && t.vg72.full && !t.vg72.drq && t.vt37.eop && t.vg72.tc && !t.vt37.dackPin 1
      | _ => false) = true ∧
    (match ({ s with vt37 := s.vt37.write true 8 0x80#8 }).dmaGrant 1 false [] with
      | .next t => !t.vg72.full && t.vt37.dackPin 1 && !t.vt37.dackPin 0
      | _ => false) = true := by decide +kernel

/-- R670 with U22: a transfer before the first WID is refused by name. R663: two channels of one rank begin with channel
1. -/
theorem test_iop_first_transfers :
    let c : IopChan := { k0 with activity := .transfer, cc := 0xC000#16 }
    let s : State := { State.reset with plat := { Platform.default with hasVm89 := true }
                                        iop := { Iop.reset with initialised := true, ch1 := c, ch2 := c } }
    (match s.iopTransfer .one with | .refused e => e == .iopBeforeWid | _ => false) = true ∧ s.iop.nextChan = .one := by
  decide +kernel

/-- R734, R742: HRQ of a second VT37 on DREQ0 of the first, whose channel 0 is in cascade mode (C0h) with DACK active at
1: the first gives DACK0 alone, and the second moves its byte, in its own page. -/
theorem test_dma_cascade :
    let first : Vt37 := ((Vt37.reset.write true 8 0x80#8).write true 0xB 0xC0#8).write true 0xE 0#8
    let s : State := State.settleDma { State.reset with
      vt37 := first, cascaded := [{ dmaReady with dreq := 2#4 }]
      plat := { Platform.default with cascades := [⟨0, 0, Bank4.all 3#4⟩] } }
    (match s.dmaGrant 1 false [0x5A#8] with
      | .next t => t.mem.get 0x32000 == 0x5A#8 && t.vt37.dack == 1#4 && (t.dmac 1).dack == 2#4 && (t.vt37.ch.get 0).car == 0#16
      | _ => false) = true ∧
    (({ s with cascaded := [dmaReady] }).settleDma.dma 0).hrq = false := by decide +kernel

/-- R777: Format track with SC = 1 takes the four ID bytes of one sector, asks for no more, and gives them back, R one
more. -/
theorem test_format_track :
    let d : Vg72 := { Vg72.reset with drive := Bank4.all { DriveLines.low with ready := true } }
    let d := [0x4D#8, 0#8, 2#8, 1#8, 0x20#8, 0xE5#8].foldl (fun d b => d.write 1 b) d
    let d := [7#8, 1#8, 9#8, 2#8].foldl (fun d b => (d.putData b).event .take) d
    let d := d.event .sectorEnd
    d.drq = false ∧ (d.event .formatEnd).result = [0#8, 0#8, 0#8, 7#8, 1#8, 10#8, 2#8] := by decide +kernel

/-- R369: FSQRT in execution and a WAIT under LOCK: the VM87, which needs no bus, goes on. A write of its result waits.
-/
theorem test_lock_and_wait :
    let s : State := { State.reset with
      cpu := { c0 with phase := .testing, lead := { Leading.none with lock := true } }
      plat := { Platform.default with hasVm87 := true }
      run := { FpuRun.idle with jobs := [{ instr := .fsqrt, cpu := c0, got := [] }] } }
    s.nextAgent.1 = .fpu ∧
    ({ s with run := { FpuRun.idle with writes := [(0, 0#8)] } }).nextAgent.1 = .cpu := by decide +kernel

/-- R563: a word at an even address is one bus cycle of a 16-bit bus, and so one CA; on an 8-bit bus it is two. R579: a
transfer that waits for DRQ inside a cycle answers a CA. -/
theorem test_iop_word_to_ca :
    let s (wide : Bool) : State := { withPorts with iop := { withPorts.iop with initialised := true, ioBus16 := wide } }
    let cas (t : State) : Bool × Bool := (t.iop.ch1.ca, t.iop.ch2.ca)
    cas ((s true).iopWrite16 true 0x48 0#16) = (true, false) ∧ cas ((s false).iopWrite16 true 0x48 0#16) = (true, true) ∧
    ({ k0 with activity := .transfer, cc := 0x1000#16, ca := true, held := [1#8],
               cycle := some { readWord := false, writeWord := false, written := 0 } }).task = .answer := by decide +kernel

/-- R462, D33: an ESC is taken in the CPU's step; the VM87 executes it in a turn of its own, and is busy until then. -/
theorem test_vm87_works_beside :
    let s := State.reset.withFetchWord 16 0xD9E8
    let s : State := { s with plat := { s.plat with vm87Atomic := false }
                              env := { Env.quiet with agenda := [.grantCpu, .grantFpu] } }
    (match step s with
      | .next t => t.testLevel && t.fpu.isEmpty 0 &&
        (match step t with
          | .next u => !u.testLevel && u.fpu.st 0 == one && u.cpu.ip == 2#16
          | _ => false)
      | _ => false) = true := by decide +kernel

/-! ### States and operands that meet the hypotheses of the statements -/

/-- Hypotheses of `AdditionFlags`, `SubtractionFlags`, `JumpsAfterCompareTellTheOrder`, `ShiftsByManyPositions`: the
largest operands of both widths, and the smallest. -/
theorem test_hyps_operands_of_the_width :
    Fits .byte 0xFF#16 ∧ Fits .byte 0#16 ∧ Fits .word 0xFFFF#16 ∧ Fits .word 0#16 := by
  unfold Fits; decide

/-- `RegistersAndMemoryAreLittleEndian`: RAM at the last offset of a segment and at the first. -/
theorem test_hyps_RegistersAndMemory :
    State.reset.isMemory (phys 0xFFFF#16 0xFFFF#16) = true ∧ State.reset.isRam (phys 0xFFFF#16 0xFFFF#16) = true ∧
    State.reset.isRam (phys 0xFFFF#16 (0xFFFF#16 + 1#16)) = true := by decide +kernel

/-- `AccumulatorAndSegmentMoves`, `PopLoadsTheTop`, `PushStoresBelowTheTop`. -/
theorem test_hyps_registers : SReg.es ≠ .cs ∧ SReg.ds ≠ .cs ∧ SReg.ss ≠ .cs ∧ GReg.ax ≠ .sp ∧ GReg.di ≠ .sp := by decide

/-- `InAndOutUseThePort`: a device at the first and at the last of its ports; a word that is two bus cycles, on the
eight-bit bus, at an odd port, where no CA decoder stands and where it stands at the even port alone, and one that is one
CA; RAM, ROM and nothing. -/
theorem test_hyps_InAndOut :
    withPorts.portPlace true 0x40#16 = (.device .vi54 1, 0) ∧ withPorts.portPlace false 0x47#16 = (.device .vi54 1, 7) ∧
    (let place (a : ℕ) := (findRegion .absent a [⟨0x2800, 0x800, .device .ru55 0⟩, ⟨0x30, 8, .device .ru55 0⟩]).1
     (place (0x28 * 257) = .device .ru55 0 ∧ place (0x2F * 257) = .device .ru55 0) ∧
     (place (0x30 * 257) = .absent ∧ place 0x30 = .device .ru55 0) ∧ place (0x40 * 257) = .absent ∧ place 0x40 = .absent) ∧
    ({ withPorts.plat with vm88 := true }).vm88 = true ∧ (0x47#16).getLsbD 0 = true ∧
    (∀ k, portKind withPorts true 0x46#16 ≠ .device .iopCa k) ∧
    ((∃ k, portKind withPorts true 0x5A#16 = .device .iopCa k) ∧ ∀ k, portKind withPorts true (0x5A#16 + 1#16) ≠ .device .iopCa k) ∧
    (withPorts.plat.vm88 = false ∧ (0x48#16).getLsbD 0 = false ∧ portKind withPorts true 0x48#16 = .device .iopCa 0 ∧
      portKind withPorts true (0x48#16 + 1#16) = .device .iopCa 0) ∧
    portKind withPorts true 0x53#16 = .ram ∧ portKind withPorts true 0x54#16 = .rom ∧ portKind withPorts true 0x58#16 = .absent := by
  refine ⟨by decide, by decide, by decide, by decide, by decide, fun k => ?_, ⟨⟨0, by decide⟩, fun k => ?_⟩, by decide, by decide,
    by decide, by decide⟩
  · have h : portKind withPorts true 0x46#16 = .device .vi54 1 := by decide
    rw [h]; simp
  · have h : portKind withPorts true (0x5A#16 + 1#16) = .absent := by decide
    rw [h]; simp

/-- `DivisionsThatFit`: the largest quotients 255 and 65535, and -128 and 127. -/
theorem test_hyps_DivisionsThatFit :
    (on (ab 0x00FF#16 1#16)).OperandIs .byte (.reg .bx) 1#16 ∧
    (dividend (on (ab 0x00FF#16 1#16)) .byte).toNat / 1 < 2 ^ 8 ∧
    (dividend (on { ab 0xFFFF#16 1#16 with dx := 0#16 }) .word).toNat / 1 < 2 ^ 16 ∧
    (let i := signedDividend (on (ab 0xFF80#16 1#16)) .byte
     signedValue .byte 1#16 ≠ 0 ∧ -2 ^ 7 ≤ i.tdiv (signedValue .byte 1#16) ∧ i.tdiv (signedValue .byte 1#16) < 2 ^ 7) ∧
    (let i := signedDividend (on { ab 0x7FFF#16 1#16 with dx := 0#16 }) .word
     signedValue .word 1#16 ≠ 0 ∧ -2 ^ 15 ≤ i.tdiv (signedValue .word 1#16) ∧ i.tdiv (signedValue .word 1#16) < 2 ^ 15) := by
  refine ⟨?_, ?_⟩
  · rfl
  · decide

/-- `DivideErrorEntersTypeZero`: a zero divisor, the quotients 256 and 65536, and -129 and 128. -/
theorem test_hyps_DivideError :
    (0#16).toNat = 0 ∧ 2 ^ 8 ≤ (dividend (on (ab 0x0100#16 1#16)) .byte).toNat / 1 ∧
    2 ^ 16 ≤ (dividend (on { ab 0#16 1#16 with dx := 1#16 }) .word).toNat / 1 ∧ signedValue .byte 0#16 = 0 ∧
    (signedDividend (on (ab 0xFF7F#16 1#16)) .byte).tdiv (signedValue .byte 1#16) < -2 ^ 7 ∧
    2 ^ 7 ≤ (signedDividend (on (ab 0x0080#16 1#16)) .byte).tdiv (signedValue .byte 1#16) := by decide

/-- `ShiftsAndRotates`: CL = 0, and CL = 255. -/
theorem test_hyps_Shifts :
    ((on { c0 with cx := 0xFF00#16 }).cpu.reg8 .cx).toNat = 0 ∧ ((on { c0 with cx := 0x00FF#16 }).cpu.reg8 .cx).toNat = 255 := by
  decide

/-- `StringElements`: no repeat byte, a repeat byte with CX = 1, and with CX = 0. -/
theorem test_hyps_StringElements :
    let r : Cpu := { c0 with lead := { Leading.none with rep := some true } }
    (on c0).cpu.lead.rep = none ∧ (on { r with cx := 1#16 }).cpu.cx ≠ 0#16 ∧
    (on r).cpu.lead.rep ≠ none ∧ (on r).cpu.cx = 0#16 := by decide

/-- `ConditionalJumpsAndLoops`: every condition holds for some flags and fails for some. -/
theorem test_hyps_ConditionalJumps :
    let n := (on c0).cpu.f
    let all := (on { c0 with f := ⟨true, true, true, true, true, true, true, true, true⟩ }).cpu.f
    let s := (on { c0 with f := { Flags.cleared with sf := true } }).cpu.f
    n.ofl = false ∧ n.cf = false ∧ n.zf = false ∧ n.sf = false ∧ n.pf = false ∧ n.sf = n.ofl ∧
    all.ofl = true ∧ all.cf = true ∧ all.zf = true ∧ all.sf = true ∧ all.pf = true ∧ all.sf = all.ofl ∧
    s.sf ≠ s.ofl ∧ s.zf = false := by decide

/-- `SoftwareInterruptsEnter`: INTO with OF = 1 and with OF = 0. -/
theorem test_hyps_SoftwareInterrupts :
    (on { c0 with f := { Flags.cleared with ofl := true } }).cpu.f.ofl = true ∧ (on c0).cpu.f.ofl = false := by decide

/-- `ReturnUndoesEntryAndCall`: RAM under the stack, SP = 0 so that it wraps. -/
theorem test_hyps_ReturnUndoes :
    (∀ k, k < 6 → (on c0).isRam (stackAddr c0.ss (c0.sp - 6#16) k) = true) ∧
    (∀ k, k < 4 → (on c0).isRam (stackAddr c0.ss (c0.sp - 4#16) k) = true) ∧
    (∀ k, k < 2 → (on c0).isRam (stackAddr c0.ss (c0.sp - 2#16) k) = true) := by decide +kernel

/-- A CPU that has taken a LOCK byte. -/
abbrev locked (agenda : List Event) : State :=
  { on { c0 with phase := .leading, lead := { Leading.none with lock := true } } with env := { Env.quiet with agenda := agenda } }

/-- `ProcessorControlAndLeadingBytes`: TEST at both levels without a VM87 and BUSY with one; no VM87; a leading byte;
LOCK with the agendas; a grant that was delayed. -/
theorem test_hyps_ProcessorControl :
    (on c0).plat.hasVm87 = false ∧ (on c0).env.test = false ∧
    (onFpu [] []).plat.hasVm87 = true ∧ ({ Fpu.reset with sr := 0x8080#16 }).sr.getLsbD 15 = true ∧
    (locked []).cpu.phase = .leading ∧ (locked []).cpu.lead.lock = true ∧ (locked []).iop.lockOut = false ∧
    (locked []).env.agenda = [] ∧ (locked [.grantIop]).env.agenda = .grantIop :: [] ∧
    (locked [.grantFpu]).env.agenda = .grantFpu :: [] ∧
    (locked [.dmaGrant 1 false []]).env.agenda = .dmaGrant 1 false [] :: [] ∧
    (let s : State := { on c0 with env := { Env.quiet with delayed := [.dmaGrant 1 false []] } }
     s.env.delayed = .dmaGrant 1 false [] :: [] ∧ s.cpu.lead.lock = false ∧ s.iop.lockOut = false ∧
       s.vt37.yield = false ∧ s.cascaded = []) ∧
    (let busy (w : List Host.Cell) (a : List Event) : State :=
       { locked a with
         cpu := { (locked a).cpu with phase := .testing }, plat := { Platform.default with hasVm87 := true },
         run := { FpuRun.idle with jobs := [{ instr := .fsqrt, cpu := c0, got := [] }], writes := w } }
     (busy [] []).cpu.phase = .testing ∧ (busy [] []).requested = false ∧ (busy [] []).iopReady = false ∧
       (∀ a ∈ [[], [.grantFpu]], (busy [] a).fpuReady = true ∧ (busy [] a).run.needsBus = false) ∧
       (busy [(0, 0#8)] [.grantFpu]).run.needsBus = true) ∧
    (locked [.grantIop]).iopNeedsBus = true := by decide +kernel

/-- A fetched instruction comes with a state. -/
theorem fetched {α : Type} {x : Except α (Instr × Nat × State)} {i : Instr} {n : Nat}
    (h : (x.toOption.map fun p => (p.1, p.2.1)) = some (i, n)) : ∃ u, x = .ok (i, n, u) := by
  cases x with
  | error e => simp [Except.toOption] at h
  | ok z =>
    obtain ⟨j, m, u⟩ := z
    simp only [Except.toOption, Option.map_some, Option.some.injEq, Prod.mk.injEq] at h
    exact ⟨u, by rw [h.1, h.2]⟩

/-- `StepRunsTheDecodedInstruction`: a byte of the RU55's memory that the queue holds, at the first address of the
region. -/
theorem test_hyps_StepRuns_queue :
    let s : State := { State.reset with
      cpu := { c0 with ahead := [(0x4000, 0x90#8)] }
      plat := { Platform.default with memoryMap := [⟨0x4000, 0x100, .device .ru55Ram 0⟩] } }
    findRegion .ram 0x4000 s.plat.memoryMap = (.device .ru55Ram 0, 0) ∧
    s.cpu.ahead.find? (fun x => x.1 == 0x4000) = some (0x4000, 0x90#8) ∧
    s.plat.vm88 = false ∧ findRegion .ram (0x4002 + 1) s.plat.memoryMap = (.device .ru55Ram 0, 3) ∧
    ∀ e ∈ s.cpu.ahead, e.1 ≠ 0x4002 := by decide

/-- `StepRunsTheDecodedInstruction` for the CPU: NOP (90h) fetched as the first instruction and after a leading byte. -/
theorem test_hyps_StepRuns_fetch :
    let s := State.reset.withFetchWord 8 0x90
    let u : State := { s with cpu := { s.cpu with phase := .leading } }
    s.nextAgent.1 = .cpu ∧ s.nextAgent.2.cpu.halted = false ∧ s.nextAgent.2.cpu.phase = .complete ∧
    (∃ v, s.nextAgent.2.fetch86 = .ok (.nop, 1, v)) ∧ s.nextAgent.2.plat.hasVm87 = false ∧ escOf .nop = none ∧
    u.nextAgent.1 = .cpu ∧ u.nextAgent.2.cpu.phase = .leading ∧ ∃ v, u.nextAgent.2.fetch86 = .ok (.nop, 1, v) := by
  refine ⟨by decide +kernel, by decide +kernel, by decide +kernel, fetched (by decide +kernel), by decide +kernel,
    by decide +kernel, by decide +kernel, by decide +kernel, fetched (by decide +kernel)⟩

/-- FLD1 (D9h E8h) with a VM87, beside the CPU and at once. -/
theorem test_hyps_StepRuns_esc :
    let p (atomic : Bool) : State :=
      let s := State.reset.withFetchWord 16 0xD9E8
      { s with plat := { s.plat with hasVm87 := true, vm87Atomic := atomic } }
    (p false).nextAgent.1 = .cpu ∧ (∃ v, (p false).nextAgent.2.fetch86 = .ok (.fld1, 2, v)) ∧
    (p false).nextAgent.2.plat.hasVm87 = true ∧ (p false).nextAgent.2.plat.vm87Atomic = false ∧
    (∃ x y rm, escOf .fld1 = some (x, y, rm)) ∧ (p true).nextAgent.1 = .cpu ∧
    (p true).nextAgent.2.plat.vm87Atomic = true := by
  refine ⟨by decide +kernel, fetched (by decide +kernel), by decide +kernel, by decide +kernel, ⟨_, _, _, rfl⟩,
    by decide +kernel, by decide +kernel⟩

/-- The VM87 reading an operand and writing a result; busy and not; an ESC that waits and one that does not; a turn of
the VM87 with its operand complete, and with no operand. -/
theorem test_hyps_StepRuns_fpu :
    let s : State := { State.reset with plat := { Platform.default with hasVm87 := true } }
    let job (i : Instr) (got : List Byte) : FpuJob := { instr := i, cpu := c0, got := got }
    let at_ (j : FpuJob) : State :=
      { s with run := { FpuRun.idle with jobs := [j] }, env := { Env.quiet with agenda := [.grantFpu] } }
    (let j := job (.fldM32 (.direct 0#16)) [0#8]
     (at_ j).nextAgent.1 = .fpu ∧ (at_ j).nextAgent.2.run.jobs = j :: [] ∧ (at_ j).nextAgent.2.run.writes = [] ∧
       j.source = some (.direct 0#16, 4) ∧ j.got.length < 4) ∧
    (let w := { s with run := { FpuRun.idle with writes := [(0, 1#8), (1, 2#8)] }, env := { Env.quiet with agenda := [.grantFpu] } }
     w.nextAgent.1 = .fpu ∧ w.nextAgent.2.run.writes ≠ [] ∧ s.isRam 0 = true) ∧
    s.testLevel = false ∧ (at_ (job .fld1 [])).testLevel = true ∧
    (∃ x y rm, escOf .fld1 = some (x, y, rm) ∧ escNoWait x y rm = false) ∧
    (∃ x y rm, escOf .finit = some (x, y, rm) ∧ escNoWait x y rm = true) ∧
    (∀ j ∈ [job .fld1 [], job (.fldM32 (.direct 0#16)) [0#8, 0#8, 0x80#8, 0x3F#8]],
      (at_ j).nextAgent.1 = .fpu ∧ (at_ j).nextAgent.2.run.writes = [] ∧ (at_ j).nextAgent.2.run.jobs = j :: [] ∧
      ∀ m need, j.source = some (m, need) → need ≤ j.got.length) := by
  refine ⟨by decide +kernel, by decide +kernel, by decide, by decide, ⟨_, _, _, rfl, by decide⟩,
    ⟨_, _, _, rfl, by decide⟩, ?_⟩
  intro j hj
  simp only [List.mem_cons, List.not_mem_nil, or_false] at hj
  obtain rfl | rfl := hj
  · exact ⟨by decide, by decide, by decide, by intro m n h; cases h⟩
  · exact ⟨by decide, by decide, by decide, by intro m n h; cases h; decide⟩

/-- The other clauses for the CPU: between two elements, inside WAIT, halted. -/
theorem test_hyps_StepRuns_other :
    (on { c0 with phase := .element (.movs .byte) }).nextAgent.1 = .cpu ∧
    (on { c0 with phase := .element (.movs .byte) }).nextAgent.2.cpu.phase = .element (.movs .byte) ∧
    (on { c0 with phase := .testing }).nextAgent.1 = .cpu ∧ (on { c0 with phase := .testing }).nextAgent.2.cpu.phase = .testing ∧
    (on { c0 with halted := true }).nextAgent.1 = .cpu ∧ (on { c0 with halted := true }).nextAgent.2.cpu.halted = true := by
  decide +kernel

/-- The clause for the VM89: HLT (20h 48h) at TP. -/
theorem test_hyps_StepRuns_iop :
    let s := State.reset.withFetchWord 16 0x2048
    let t := s.nextAgent.2
    let c := t.iop.chan t.iop.nextChan
    s.nextAgent.1 = .iop ∧ t.iop.initialised = true ∧ c.task = .program ∧ ∃ u, t.fetch89 c = .ok (.iHlt, 2, u) := by
  refine ⟨by decide +kernel, by decide +kernel, by decide +kernel, fetched (by decide +kernel)⟩

/-- `BoundaryTakesRequestsInOrder`: each clause. -/
theorem test_hyps_Boundary :
    let e : Cpu := { c0 with f := { Flags.cleared with ifl := true } }
    let asks (s : State) : State := { s with env := { Env.quiet with intr := some 0xFF#8 } }
    (on c0).cpu.phase = .complete ∧ (on { c0 with inhibit := true }).cpu.inhibit = true ∧
    ((on c0).cpu.inhibit = false ∧ (on c0).cpu.nmiPending = false ∧ (on c0).cpu.f.ifl = false) ∧
    (on e).intr = none ∧ (on { c0 with nmiPending := true }).cpu.nmiPending = true ∧
    ((asks (on e)).cpu.f.ifl = true ∧ (asks (on e)).intr = some 0xFF#8 ∧ (asks (on e)).cpu.nmiPending = false) := by decide

/-- `RequestsInterruptLongInstructions`: each clause. -/
theorem test_hyps_RequestsInterrupt :
    let el : Cpu := { c0 with phase := .element (.movs .byte) }
    let te : Cpu := { c0 with phase := .testing }
    ((on el).requested = false ∧ (on el).cpu.stepPending = false) ∧ (on { el with nmiPending := true }).requested = true ∧
    ((on te).requested = false ∧ (on te).cpu.stepPending = false) ∧ (on { te with stepPending := true }).cpu.stepPending = true ∧
    (on { c0 with nmiPending := true }).cpu.nmiPending = true ∧ ((on c0).cpu.f.ifl = false ∧ (on c0).cpu.nmiPending = false) := by
  decide

/-- `StepKeepsMemoryCanonical`: a state in canonical form whose next step completes, with bytes listed. -/
theorem test_hyps_StepKeeps :
    let s := State.reset.withFetchWord 8 0x50
    s.MemoryWf ∧ (match step s with | .next t => t.cpu.sp == 0xFFFE#16 | _ => false) = true := by
  refine ⟨⟨by decide +kernel, by decide +kernel, by decide +kernel, by decide +kernel⟩, by decide +kernel⟩

/-- A machine with a ROM from F0000h on and nothing below, and RAM and nothing in the two I/O spaces. -/
def withRom : State :=
  { State.reset with plat := { Platform.default with
      memoryMap := [⟨0xF0000, 0x10000, .rom⟩, ⟨0x80000, 0x70000, .absent⟩]
      ioMap := [⟨0, 0x10, .ram⟩], remoteMap := [⟨0x10, 0x10, .absent⟩] } }

/-- `StepStoresInRamAlone`: the first and last byte of the ROM, the first absent byte; and the step completes. -/
theorem test_hyps_StepStores :
    let s := withRom.withFetchWord 8 0x50
    (match step s with | .next t => t.cpu.sp == 0xFFFE#16 | _ => false) = true ∧ s.isRam 0xF0000 = false ∧
    s.isRam 0xFFFFF = false ∧ s.isRam 0x80000 = false ∧ s.isRam 0x7FFFF = true ∧
    (findRegion .absent 0xF s.plat.ioMap).1 = .ram ∧ (findRegion .absent 0x10 s.plat.ioMap).1 ≠ .ram ∧
    (findRegion .ram 0x10 s.plat.remoteMap).1 ≠ .ram ∧ (findRegion .ram 0xF s.plat.remoteMap).1 = .ram := by
  refine ⟨by decide +kernel, by decide +kernel, by decide +kernel, by decide +kernel, by decide +kernel, by decide +kernel,
    by decide +kernel, by decide +kernel, by decide +kernel⟩

/-- `EncodingsOfTheCpuDecode`, `EncodingsOfTheIopDecode`: the longest instructions and the shortest. -/
theorem test_hyps_Encodings :
    (Instr.wf (.movRmImm (.mem (.disp16 .bxSi 0xFFFF#16)) (.w 0xFFFF#16)) = true ∧
      Instr.isIop (.movRmImm (.mem (.disp16 .bxSi 0xFFFF#16)) (.w 0xFFFF#16)) = false) ∧
    (Instr.wf .nop = true ∧ Instr.isIop .nop = false) ∧ (Instr.wf .fld1 = true ∧ Instr.isIop .fld1 = false) ∧
    (Instr.wf (.iLpdiPtr .tp 0xFFFF#16 0xFFFF#16) = true ∧ Instr.isIop (.iLpdiPtr .tp 0xFFFF#16 0xFFFF#16) = true) ∧
    (Instr.wf .iNop = true ∧ Instr.isIop .iNop = true) := by decide +kernel

/-- A VM87 with every register in use. -/
abbrev full (cr : Word) : Fpu := { Fpu.reset with tag := 0#16, cr := cr }

/-- `CoprocessorStack`: a free register, with DE masked and not masked, a denormalised operand and one that is not; a
full register with IE masked, and with IE not masked. -/
theorem test_hyps_CoprocessorStack :
    (Fpu.reset.setTop (Fpu.reset.top - 1)).isEmpty 0 = true ∧
    ((ofReal false 1).den = true ∧ (ofReal false 0x3F800000).den = false) ∧ Fpu.reset.masked 1 = true ∧
    (let f : Fpu := { Fpu.reset with cr := 0x033D#16 }
     (f.setTop (f.top - 1)).isEmpty 0 = true ∧ f.masked 1 = false ∧ f.masked 0 = true) ∧
    (((full 0x033F#16).setTop ((full 0x033F#16).top - 1)).isEmpty 0 = false ∧ (full 0x033F#16).masked 0 = true) ∧
    (((full 0x033E#16).setTop ((full 0x033E#16).top - 1)).isEmpty 0 = false ∧ (full 0x033E#16).masked 0 = false) := by decide

/-- A VM87 is there and is not busy, its stack empty, and with the given values; it executes beside the CPU with the
bytes of an operand. -/
theorem test_hyps_FpuReady :
    (onFpu [] []).FpuReady ∧ (onFpu [one, three] []).FpuReady ∧ (onFpu [] []).plat.hasVm87 = true ∧
    (onFpu [] []).fpu.busy = false ∧
    (let s : State := { onFpu [one] [] with run := { FpuRun.idle with feed := some [0#8, 0#8, 0x80#8, 0x3F#8] } }
     s.FpuReady ∧ s.SourceIs 0 4 0x3F800000) :=
  ⟨⟨rfl, by decide +kernel⟩, ⟨rfl, by decide +kernel⟩, rfl, by decide +kernel,
    ⟨rfl, by decide +kernel⟩, by decide, by decide⟩

/-- `CoprocessorLoads`, `CoprocessorStores`, `CoprocessorArithmetic`, `CoprocessorSpecialOperations`: operands that are
numbers, and an empty register, which reads as the indefinite code. -/
theorem test_hyps_operands :
    extClass ((onFpu [one, three] []).fpu.operand 0) ≠ .bad ∧ extClass ((onFpu [one, three] []).fpu.operand 1) ≠ .bad ∧
    extClass ((onFpu [] []).fpu.operand 7) ≠ .bad ∧ extClass (BitVec.ofNat 80 0) ≠ .bad ∧
    (Opnd.ofReg ((onFpu [one, three] []).fpu.operand 0)).cls ≠ .bad ∧
    (Opnd.ofReg ((onFpu [one, three] []).fpu.operand 1)).cls ≠ .bad := by decide +kernel

/-- `CoprocessorLoads`: the smallest and the largest exponent of a number, an infinity and a NAN, and the digits 0 and
9. -/
theorem test_hyps_CoprocessorLoads :
    (0x7F800000 / 2 ^ fractionBits false % 2 ^ exponentBits false = 2 ^ exponentBits false - 1 ∧
      0x7FFFFFFFFFFFFFFF / 2 ^ fractionBits true % 2 ^ exponentBits true = 2 ^ exponentBits true - 1) ∧
    (1 / 2 ^ fractionBits false % 2 ^ exponentBits false ≠ 2 ^ exponentBits false - 1 ∧
      0x7FEFFFFFFFFFFFFF / 2 ^ fractionBits true % 2 ^ exponentBits true ≠ 2 ^ exponentBits true - 1) ∧
    (∀ i, i < 18 → 0x80000000000000000009 / 16 ^ i % 16 ≤ 9) ∧ ∀ i, i < 18 → 0x999999999999999999 / 16 ^ i % 16 ≤ 9 := by
  decide +kernel

/-- The magnitude of a number from its bits. -/
theorem magnitude_of (v : Ext80) (e m : ℕ) (he : v.toNat / 2 ^ 64 % 2 ^ 15 = e) (h0 : e ≠ 0) (hm : v.toNat % 2 ^ 64 = m) :
    extMagnitude v = (m : ℝ) * 2 ^ ((e : ℤ) - 16446) := by
  simp only [extMagnitude, he, hm, h0, if_false]

theorem magnitude_one : extMagnitude one = 1 := by
  rw [magnitude_of one 16383 (2 ^ 63) (by decide) (by decide) (by decide)]; norm_num

theorem magnitude_two : extMagnitude two = 2 := by
  rw [magnitude_of two 16384 (2 ^ 63) (by decide) (by decide) (by decide)]; norm_num

/-- One half. -/
def pointFive : Ext80 := mkExt false 0x3FFE (2 ^ 63)

theorem magnitude_pointFive : extMagnitude pointFive = 1 / 2 := by
  rw [magnitude_of pointFive 16382 (2 ^ 63) (by decide) (by decide) (by decide)]; norm_num

theorem magnitude_word : extMagnitude (extOfIntValue 32768) = (32768 : ℕ) := by
  rw [magnitude_of _ 16398 (2 ^ 63) (by decide) (by decide) (by decide)]; norm_num

theorem magnitude_decimal : extMagnitude (extOfIntValue (10 ^ 18)) = ((10 ^ 18 : ℕ) : ℝ) := by
  rw [magnitude_of _ 16442 (10 ^ 18 * 2 ^ 4) (by decide +kernel) (by decide) (by decide +kernel)]; norm_num

/-- A whole number rounds to itself. -/
theorem rounds_whole (n : ℕ) : RoundsTo 0 false (n : ℝ) 1 (n : ℝ) := ⟨⟨n, by simp⟩, by simp⟩

/-- A power of two. -/
def powerOfTwo (e : ℕ) : Ext80 := mkExt false e (2 ^ 63)

theorem magnitude_power (e : ℕ) (h : e ≠ 0) (g : e < 2 ^ 15) : extMagnitude (powerOfTwo e) = 2 ^ ((e : ℤ) - 16383) := by
  have t : (powerOfTwo e).toNat = e * 2 ^ 64 + 2 ^ 63 := by
    unfold powerOfTwo mkExt
    rw [BitVec.toNat_ofNat, Nat.mod_eq_of_lt g]
    norm_num [bitNat]
    omega
  rw [magnitude_of _ e (2 ^ 63) (by rw [t]; omega) h (by rw [t]; omega)]
  have m : ((2 ^ 63 : ℕ) : ℝ) = 2 ^ (63 : ℤ) := by norm_num
  have s : (e : ℤ) - 16383 = 63 + ((e : ℤ) - 16446) := by ring
  rw [m, s, zpow_add₀ (by norm_num)]

/-- `CoprocessorStores`, the clause of a real: a power of two, shortened, is itself; those of the least exponent, of one
below it, of the largest and of one above it; a denormal; an unnormal on each side of the least normal number. -/
theorem test_hyps_CoprocessorStores_real :
    (∀ (long : Bool) (rc e : ℕ), e ≠ 0 → e < 2 ^ 15 → let x := extMagnitude (powerOfTwo e)
      ∃ k : ℤ, (2 : ℝ) ^ k ≤ x ∧ x < 2 ^ (k + 1) ∧ RoundsTo rc false x (2 ^ (k - fractionBits long)) x) ∧
    (∀ e ∈ [16256, 16257, 16510, 16511], extClass (powerOfTwo e) = .normal ∧ extSign (powerOfTwo e) = false) ∧
    (extMagnitude (powerOfTwo 16511) = 2 ^ (exponentBias false + 1) ∧
      extMagnitude (powerOfTwo 16510) = 2 ^ exponentBias false ∧
      extMagnitude (powerOfTwo 16257) = 2 ^ (1 - exponentBias false) ∧
      extMagnitude (powerOfTwo 16256) < 2 ^ (1 - exponentBias false)) ∧
    extClass 1#80 = .denormal ∧
    (extClass (mkExt false 16257 (2 ^ 62)) = .unnormal ∧ extMagnitude (mkExt false 16257 (2 ^ 62)) < 2 ^ (1 - exponentBias false)) ∧
    (extClass (mkExt false 16258 (2 ^ 62)) = .unnormal ∧ extMagnitude (mkExt false 16258 (2 ^ 62)) = 2 ^ (1 - exponentBias false)) := by
  have two0 : (2 : ℝ) ≠ 0 := by norm_num
  refine ⟨fun long rc e h g => ?_, by decide +kernel, ⟨?_, ?_, ?_, ?_⟩, by decide, ⟨by decide +kernel, ?_⟩, by decide +kernel, ?_⟩
  · dsimp only
    rw [magnitude_power e h g]
    refine ⟨(e : ℤ) - 16383, le_rfl, zpow_lt_zpow_right₀ (by norm_num) (by omega), ⟨2 ^ fractionBits long, ?_⟩, ?_⟩
    · push_cast
      rw [← zpow_natCast, ← zpow_add₀ two0]
      congr 1
      ring
    · have p : (0 : ℝ) < 2 ^ ((e : ℤ) - 16383 - fractionBits long) := by positivity
      have q : (0 : ℝ) ≤ 2 ^ ((e : ℤ) - 16383 - fractionBits long) / 2 := by positivity
      split
      · refine ⟨by simpa using q, fun c => absurd c ?_⟩
        simp only [sub_self, abs_zero]
        exact (half_pos p).ne
      · simp [p]
      · simp [p]
      · simp [p]
  · rw [magnitude_power _ (by decide) (by decide)]; rfl
  · rw [magnitude_power _ (by decide) (by decide)]; rfl
  · rw [magnitude_power _ (by decide) (by decide)]; rfl
  · rw [magnitude_power _ (by decide) (by decide)]
    exact zpow_lt_zpow_right₀ (by norm_num) (by decide)
  · rw [magnitude_of _ 16257 (2 ^ 62) (by decide) (by decide) (by decide),
      show ((2 ^ 62 : ℕ) : ℝ) = 2 ^ (62 : ℤ) by norm_num, ← zpow_add₀ two0]
    exact zpow_lt_zpow_right₀ (by norm_num) (by decide)
  · rw [magnitude_of _ 16258 (2 ^ 62) (by decide) (by decide) (by decide),
      show ((2 ^ 62 : ℕ) : ℝ) = 2 ^ (62 : ℤ) by norm_num, ← zpow_add₀ two0]
    rfl

/-- `CoprocessorStores`: the whole numbers 1, 2^15 and 10^18, which the formats hold or do not hold. -/
theorem test_hyps_CoprocessorStores :
    (∀ n ∈ [1, 32768, 10 ^ 18], ∃ v, extClass v = .normal ∧
      RoundsTo (Fpu.reset.ctl 0).rc (extSign v) (extMagnitude v) 1 (n : ℕ)) ∧
    1 < 2 ^ (16 - 1) ∧ ¬32768 < 2 ^ (16 - 1) ∧ ¬10 ^ 18 < 10 ^ 18 := by
  refine ⟨fun n hn => ?_, by decide, by decide, by decide⟩
  · simp only [List.mem_cons, List.not_mem_nil, or_false] at hn
    obtain rfl | rfl | rfl := hn
    · exact ⟨one, by decide, by
        rw [magnitude_one, show extSign one = false by decide, Nat.cast_one]
        exact Nat.cast_one (R := ℝ) ▸ rounds_whole 1⟩
    · exact ⟨extOfIntValue 32768, by decide, by
        rw [magnitude_word, show extSign (extOfIntValue 32768) = false by decide]; exact rounds_whole _⟩
    · exact ⟨extOfIntValue (10 ^ 18), by decide +kernel, by
        rw [magnitude_decimal, show extSign (extOfIntValue (10 ^ 18)) = false by decide +kernel]; exact rounds_whole _⟩

theorem in_range {x : ℝ} (h : 1 ≤ x) (g : x < 4) : InRange x := by
  refine ⟨le_trans (zpow_le_one_of_nonpos₀ (by norm_num) (by norm_num)) h, lt_of_lt_of_le g ?_⟩
  calc (4 : ℝ) = 2 ^ (2 : ℤ) := by norm_num
    _ ≤ 2 ^ (16383 : ℤ) := zpow_le_zpow_right₀ (by norm_num) (by norm_num)

/-- `CoprocessorArithmetic`: 2 and 1 with 64 bits, their sum, difference, product and quotient. -/
theorem test_hyps_CoprocessorArithmetic :
    (1 ≤ (Fpu.reset.ctl 0).prec ∧ (Fpu.reset.ctl 0).prec ≤ 64) ∧ (extClass two = .normal ∧ extClass one = .normal) ∧
    InRange |extNumber two + extNumber one| ∧ InRange |extNumber two - extNumber one| ∧
    InRange (extMagnitude two * extMagnitude one) ∧ InRange (extMagnitude two / extMagnitude one) := by
  have h1 : extNumber one = 1 := by rw [extNumber, show extSign one = false by decide, magnitude_one]; simp
  have h2 : extNumber two = 2 := by rw [extNumber, show extSign two = false by decide, magnitude_two]; simp
  rw [h1, h2, magnitude_one, magnitude_two]
  refine ⟨by decide, by decide, ?_, ?_, ?_, ?_⟩ <;> exact in_range (by norm_num) (by norm_num)

/-- `CoprocessorSpecialOperations`: 1 under the root; FSCALE to the ends of the exponent; FPREM of 1 by 1, which leaves
0; FYL2X of the largest power of two and 1, with the largest tolerance; F2XM1 and FPTAN of 1/2; FPATAN of 1/2 and 1. -/
theorem test_hyps_CoprocessorSpecial :
    (extClass one = .normal ∧ extSign one = false) ∧
    (∀ k : ℤ, k = 16383 ∨ k = -16382 → k.natAbs ≤ 2 ^ 15 ∧ 1 ≤ (extExp one : ℤ) + k ∧ (extExp one : ℤ) + k ≤ 32766) ∧
    extMagnitude one < 2 ^ 63 * extMagnitude one ∧ extMagnitude one - (1 : ℕ) * extMagnitude one = 0 ∧
    ((1024 ≤ 1024 ∧ (16383 : ℤ) ≠ 0 ∧ (-16382 : ℤ) ≤ 16383 ∧ (16383 : ℤ) ≤ 16383) ∧
      (2 : ℝ) ^ (-16380 : ℤ) ≤ extMagnitude one * |((16383 : ℤ) : ℝ)| ∧
      extMagnitude one * |((16383 : ℤ) : ℝ)| < 2 ^ (16380 : ℤ)) ∧
    (extClass pointFive = .normal ∧ extSign pointFive = false ∧ extMagnitude pointFive ≤ 1 / 2 ∧ extMagnitude pointFive < extMagnitude one) := by
  rw [magnitude_one, magnitude_pointFive]
  refine ⟨by decide, ?_, by norm_num, by norm_num, ⟨by norm_num, ?_, ?_⟩, by decide, by decide, by norm_num, by norm_num⟩
  · rintro k (rfl | rfl) <;> decide
  · exact le_trans (zpow_le_one_of_nonpos₀ (by norm_num) (by norm_num)) (by norm_num)
  · calc 1 * |((16383 : ℤ) : ℝ)| < 2 ^ (14 : ℤ) := by norm_num
      _ ≤ 2 ^ (16380 : ℤ) := zpow_le_zpow_right₀ (by norm_num) (by norm_num)

/-- A number from an eighth to 16 lies inside the range of the clauses of the transcendental instructions. -/
theorem inside_of {x : ℝ} (h : 1 / 8 ≤ x) (g : x < 16) : (2 : ℝ) ^ (-16380 : ℤ) ≤ x ∧ x < 2 ^ (16380 : ℤ) := by
  constructor
  · calc (2 : ℝ) ^ (-16380 : ℤ) ≤ 2 ^ (-3 : ℤ) := zpow_le_zpow_right₀ (by norm_num) (by norm_num)
      _ = 1 / 8 := by norm_num
      _ ≤ x := h
  · calc x < 16 := g
      _ = 2 ^ (4 : ℤ) := by norm_num
      _ ≤ 2 ^ (16380 : ℤ) := zpow_le_zpow_right₀ (by norm_num) (by norm_num)

theorem magnitude_pointTwoFive : extMagnitude (powerOfTwo 16381) = 1 / 4 := by
  rw [magnitude_power _ (by decide) (by decide)]; norm_num

/-- `CoprocessorSpecialOperations`, the values inside the ranges: F2XM1 of 1/2, FPTAN of 1/2, FPATAN of 1/2 and 1, FYL2X
of 2, FYL2XP1 of 1/4, with the largest tolerance. -/
theorem test_hyps_CoprocessorSpecial_values :
    let inside (y : ℝ) : Prop := (2 : ℝ) ^ (-16380 : ℤ) ≤ y ∧ y < 2 ^ (16380 : ℤ)
    1024 ≤ 1024 ∧ extMagnitude pointFive ≤ 1 / 2 ∧ inside ((2 : ℝ) ^ extMagnitude pointFive - 1) ∧
    extMagnitude pointFive < Real.pi / 4 ∧ extMagnitude pointFive < extMagnitude one ∧
    inside (Real.arctan (extMagnitude pointFive / extMagnitude one)) ∧
    (extMagnitude two ≠ 1 ∧ inside (extMagnitude one * |Real.logb 2 (extMagnitude two)|) ∧ extMant three ≠ 2 ^ 63) ∧
    extMagnitude (powerOfTwo 16381) < 1 - 1 / Real.sqrt 2 ∧
    inside (extMagnitude one * |Real.logb 2 (1 + extNumber (powerOfTwo 16381))|) := by
  have q : extNumber (powerOfTwo 16381) = 1 / 4 := by
    rw [extNumber, if_neg (by decide +kernel), magnitude_pointTwoFive]
  rw [q, magnitude_one, magnitude_two, magnitude_pointFive, magnitude_pointTwoFive]
  have root : (2 : ℝ) ^ (1 / 2 : ℝ) = Real.sqrt 2 := (Real.sqrt_eq_rpow 2).symm
  have low : (1.4 : ℝ) < Real.sqrt 2 := Real.lt_sqrt_of_sq_lt (by norm_num)
  have high : Real.sqrt 2 < 1.5 := (Real.sqrt_lt' (by norm_num)).mpr (by norm_num)
  refine ⟨le_rfl, le_rfl, inside_of ?_ ?_, ?_, by norm_num, inside_of ?_ ?_, ⟨by norm_num, inside_of ?_ ?_, by decide +kernel⟩,
    ?_, inside_of ?_ ?_⟩
  · rw [root]; linarith
  · rw [root]; linarith
  · have := Real.pi_gt_three; linarith
  · have t := Real.two_mul_arctan (x := 1 / 2 / 1) (by norm_num) (by norm_num)
    have m : Real.arctan 1 < Real.arctan (2 * (1 / 2 / 1) / (1 - (1 / 2 / 1) ^ 2)) := Real.arctan_strictMono (by norm_num)
    rw [Real.arctan_one, ← t] at m
    have := Real.pi_gt_three
    linarith
  · have := Real.arctan_lt_pi_div_two (1 / 2 / 1); have := Real.pi_lt_four; linarith
  · rw [Real.logb_self_eq_one (by norm_num)]; norm_num
  · rw [Real.logb_self_eq_one (by norm_num)]; norm_num
  · have : 1 / Real.sqrt 2 < 1 / 1.4 := one_div_lt_one_div_of_lt (by norm_num) low
    norm_num at this ⊢
    linarith
  · have b := Real.logb_pow 2 (1 + 1 / 4 : ℝ) 8
    have m : Real.logb 2 2 ≤ Real.logb 2 ((1 + 1 / 4 : ℝ) ^ 8) :=
      Real.logb_le_logb_of_le (by norm_num) (by norm_num) (by norm_num)
    rw [Real.logb_self_eq_one (by norm_num), b] at m
    have := le_abs_self (Real.logb 2 (1 + 1 / 4))
    push_cast at m
    linarith
  · have m : Real.logb 2 (1 + 1 / 4 : ℝ) ≤ Real.logb 2 2 := Real.logb_le_logb_of_le (by norm_num) (by norm_num) (by norm_num)
    have p : 0 ≤ Real.logb 2 (1 + 1 / 4 : ℝ) := Real.logb_nonneg (by norm_num) (by norm_num)
    rw [Real.logb_self_eq_one (by norm_num)] at m
    rw [abs_of_nonneg p]
    linarith

/-- `CoprocessorComparisons`: a NAN; an infinity, which is not comparable in the projective mode, and finite operands; two
numbers; a denormal against a number, with DE masked and not masked; a NAN against a number. -/
theorem test_hyps_CoprocessorComparisons :
    let a := Opnd.ofReg one
    let small := Opnd.ofReg 1#80
    ((Opnd.ofReg (extInf true)).cls = .infinity ∧ a.cls ≠ .infinity ∧ a.cls ≠ .nan ∧ (Opnd.ofReg (extInf true)).cls ≠ .nan) ∧
    ((fpCompare false small a).1 = false ∧ (fpCompare false small a).2.1 = true ∧ Fpu.reset.masked 1 = true ∧
      (full 0x033D#16).masked 1 = false) ∧
    (Opnd.ofReg indefinite).cls = .nan ∧ (fpCompare false a a).1 = false ∧ (fpCompare false a a).2.1 = false ∧
    (fpCompare false a (Opnd.ofReg indefinite)).1 = true ∧ Fpu.reset.masked 0 = true := by decide

/-- `CoprocessorStores`: the outcomes of a conversion: invalid, overflow, underflow, inexact, exact. -/
theorem test_hyps_conversions :
    let c := Fpu.reset.ctl 0
    (storeInt c 16 (extOfIntValue 32768)).ie = true ∧ (storeReal c false (mkExt false 0x7FFE (2 ^ 63))).oe = true ∧
    (storeReal c false (mkExt false 1 (2 ^ 63))).ue = true ∧ (storeReal c false (mkExt false 0x3FFF (2 ^ 64 - 1))).pe = true ∧
    storeInt c 16 (extOfIntValue 32767) = SRes.exact 32767 ∧ Fpu.reset.masked 0 = true ∧ (full 0x0300#16).masked 3 = false := by
  decide +kernel

/-- `CoprocessorSpecialOperations`: the clauses of FYL2X with x = 1. -/
theorem test_hyps_log_of_one :
    (extClass indefinite).zeroLike = false ∧ extClass indefinite ≠ .normal ∧ extClass (extZero true) = .zero ∧
    extClass three = .normal := by decide +kernel

/-- `CoprocessorStackMoves`, `CoprocessorSpecialOperations`, `CoprocessorComparisons`: ST(0) and ST(i) in use, and empty.
-/
theorem test_hyps_in_use :
    (onFpu [one, three] []).fpu.isEmpty 0 = false ∧ (onFpu [one, three] []).fpu.isEmpty 1 = false ∧
    (onFpu [] []).fpu.isEmpty 0 = true := by decide +kernel

/-- `CoprocessorComparisons`: each class that FXAM tells. -/
theorem test_hyps_classes :
    extClass (extZero true) = .zero ∧ extClass (mkExt false 1 0) = .pseudoZero ∧ extClass (mkExt false 0 1) = .denormal ∧
    extClass (mkExt false 1 1) = .unnormal ∧ extClass (mkExt false 0x7FFE (2 ^ 63)) = .normal ∧
    extClass (extInf false) = .infinity ∧ extClass indefinite = .nan := by decide +kernel

/-- `CoprocessorConditions`: the first and the last condition; each clause of the response. -/
theorem test_hyps_CoprocessorConditions :
    let f := full 0x0300#16
    let g := full 0x033F#16
    let r := FRes.exact one
    (0 < 6 ∧ 5 < 6) ∧ ((FRes.invalid one).ie = true ∧ f.masked 0 = false ∧ g.masked 0 = true) ∧
    (r.ie = false ∧ ({ r with de := true }).de = true ∧ f.masked 1 = false) ∧
    (r.de = false ∧ ({ r with ze := true }).ze = true ∧ f.masked 2 = false) ∧
    (r.ie = false ∧ (r.de = true → f.masked 1 = true) ∧ (r.ze = true → f.masked 2 = true)) ∧
    (({ r with de := true, ze := true }).de = true ∧ g.masked 1 = true ∧ g.masked 2 = true) ∧
    (({ r with oe := true, pe := true }).oe = true ∧ g.masked 3 = true ∧ f.masked 3 = false) ∧
    (({ r with ue := true, pe := true }).ue = true ∧ g.masked 4 = true ∧ f.masked 4 = false) := by decide

/-- `CoprocessorIntegersAreExact`: the ends of the ranges. -/
theorem test_hyps_CoprocessorIntegers :
    (0x7FFF < 2 ^ 16 ∧ 0x7FFF ≠ 2 ^ (16 - 1)) ∧ (0x8001 < 2 ^ 16 ∧ 0x8001 ≠ 2 ^ (16 - 1)) ∧
    (2 ^ 64 - 1 < 2 ^ 64 ∧ 2 ^ 64 - 1 ≠ 2 ^ (64 - 1)) ∧ (Fpu.reset.ctl 0).prec = 64 ∧
    ((2 ^ 31 - 1 : Int).natAbs < 2 ^ 31 ∧ (-(2 ^ 31 - 1) : Int).natAbs < 2 ^ 31) ∧
    ((2 ^ 31 - 1 : Int) + 1 ≠ 0 ∧ (2 ^ 31 - 1 : Int) - 1 ≠ 0 ∧ (2 ^ 31 - 1 : Int) * (-(2 ^ 31 - 1)) ≠ 0) := by decide

/-- `IopJumpsAndCalls`: a register and a byte on each side of each condition. -/
theorem test_hyps_IopJumps :
    let c : IopChan := { k0 with bc := 1#16, mc := 0xFF0D#16 }
    c.reg16 .bc ≠ 0#16 ∧ c.reg16 .ix = 0#16 ∧ agrees c.mc 0x0D#8 ∧ ¬agrees c.mc 0x0C#8 ∧
    (0x80#8 : Byte).getLsbD 7 = true ∧ (0x80#8 : Byte).getLsbD 0 = false := by
  refine ⟨by decide, by decide, ?_, ?_, by decide, by decide⟩
  · unfold agrees; decide
  · unfold agrees; decide

/-- `IopProcessorControl`: TSL jumps or stores, for both polarities of the platform. -/
theorem test_hyps_IopTsl :
    (0#16 = 0#16 ↔ Platform.default.tslJumpWhenZero = true) ∧ ¬((1#16 : Word) = 0#16 ↔ Platform.default.tslJumpWhenZero = true) ∧
    ((1#16 : Word) = 0#16 ↔ ({ Platform.default with tslJumpWhenZero := false }).tslJumpWhenZero = true) := by decide

/-- `ChannelStartLoadsThePointers`: program 5 of 95_test_vectors.md, whose command byte 13h starts in the system space.
-/
theorem test_hyps_ChannelStart :
    let s := onMem c0 [(0x500, 0x13#8), (0x503, 6#8)]
    let t : State := { s with iop := { s.iop with initialised := true, ccp := 0x500#20 } }
    (t.iop.chan .one).activity = .idle ∧
    (∀ k, k < 6 → t.cellKind false (iopCell false (t.iop.block .one + k)) = .ram) ∧
    (t.cellByte false (iopCell false (t.iop.block .one))).toNat % 8 = 3 := by decide +kernel

/-- `TransferCycleCopiesAByte`: from memory to memory, GA the source and GB the source, both pointers stepping. -/
theorem test_hyps_TransferCycle :
    let ok (s : State) : Prop :=
      let c := s.iop.chan .one
      (c.widDone = true ∧ c.cycle = none ∧ c.suspending = false ∧ c.held = [] ∧ c.psw.toNat % 4 = 0) ∧
      (c.cc.getLsbD 13 = false ∧ c.syn = 0 ∧ c.cc.toNat % 4 = 0 ∧ c.cc.getLsbD 3 = false ∧ c.cc.getLsbD 4 = false ∧
        c.cc.getLsbD 5 = false ∧ c.cc.getLsbD 6 = false ∧ c.cc.getLsbD 7 = false) ∧
      s.cellKind c.src.1 (iopCell c.src.1 c.src.2) = .ram ∧ s.cellKind c.dst.1 (iopCell c.dst.1 c.dst.2) = .ram
    (ok (onIop { k0 with widDone := true, ga := 0xFFFFF#20, gb := 0#20, cc := 0xC000#16 } []) ∧
      (onIop { k0 with cc := 0xC000#16 } []).iop.ch1.srcIsGb = false) ∧
    ok (onIop { k0 with widDone := true, ga := 0xFFFFF#20, gb := 0#20, cc := 0xC400#16 } []) ∧
      (onIop { k0 with cc := 0xC400#16 } []).iop.ch1.srcIsGb = true := by decide +kernel

/-- `DmaCycleMovesAByte`: channel 1 of the vectors' VT37 under fixed priority, with one byte to go and no device
anywhere, and the same as the second of two controllers. -/
theorem test_hyps_DmaCycle :
    (dmaReady.chosen = none ∧ dmaAsked.chosen = some 1#2 ∧ dmaAsked.pending 1 = true ∧ dmaAsked.winner = some 1#2 ∧
      dmaAsked.cr.getLsbD 4 = false ∧ dmaAsked.lastServed = none ∧
      (let d : Vt37 := ({ dmaAsked with lastServed := some 3 }).write true 8 0x10#8
       d.cr.getLsbD 4 = true ∧ d.lastServed = some 3 ∧ d.winner = some 1#2 ∧ (0#2 - 3#2 - 1#2).toNat < (1#2 - 3#2 - 1#2).toNat)) ∧
    let s : State := { State.reset with vt37 := dmaAsked }
    let d := s.dma 0
    (d.chosen = some 1#2 ∧ s.plat.fdcDma ≠ some (0, 1#2) ∧ d.cr.getLsbD 0 = false ∧ d.cr.getLsbD 4 = false) ∧
    ((d.ch.get 1).dmaMode = .single ∧ (d.ch.get 1).type = .write) ∧ ((d.advance 1).ch.get 1).type ≠ .illegal ∧
    (let first : Vt37 := ((Vt37.reset.write true 8 0x80#8).write true 0xB 0xC0#8).write true 0xE 0#8
     let u : State := State.settleDma { State.reset with
       vt37 := first, cascaded := [{ dmaReady with dreq := 2#4 }]
       plat := { Platform.default with cascades := [⟨0, 0, Bank4.all 3#4⟩] } }
     (u.dma 0).chosen = some 0#2 ∧ ((u.dma 0).ch.get 0).dmaMode = .cascade ∧ (u.dma 0).cr.getLsbD 0 = false ∧
     (u.dma 0).cr.getLsbD 7 = true ∧ (u.dma 0).dackZero = false ∧
     ((u.dmaServe 0 0).dma 1).chosen = some 1#2 ∧ (((u.dmaServe 0 0).dma 1).ch.get 1).dmaMode ≠ .cascade) := by
  decide +kernel

/-- No device stands on the default platform. -/
theorem test_hyps_NoDevices : State.reset.NoDevices := by
  refine ⟨fun a d k => ?_, fun a d k => ?_, fun a d k => ?_⟩ <;>
    simp [State.reset, State.resetOn, Platform.default, findRegion]

/-- `TimerCountsAndLatches`: the constants 1 and FFFFh with GATE = 1; one period, N and N + 1; a count to latch in mode
0. -/
theorem test_hyps_Timer :
    (wordOf 1#8 0#8).toNat ≠ 0 ∧ (wordOf 0xFF#8 0xFF#8).toNat ≠ 0 ∧ ({ PitChan.reset with gate := true }).gate = true ∧
    (1 ≤ [0#16].length ∧ [0#16].length ≤ (wordOf 1#8 0#8).toNat ∧ (wordOf 1#8 0#8).toNat < [0#16, 0#16].length) ∧
    (let c : PitChan := { PitChan.reset with rcw := 0x30#6 }
     c.rw = 3 ∧ c.mode ≠ 3 ∧ c.countLatched = false ∧ c.statusLatched = false ∧ c.readHigh = false ∧ c.writeHigh = false) := by
  decide +kernel

/-- `PortsOfTheDevices`: the RU55 in each alternative with its ports as outputs and as inputs, and the VG72 between two
commands, with no interrupt that waits for Sense interrupt status. -/
theorem test_hyps_Ports :
    let d (v : Byte) : Ru55 := { Ru55.reset with ctl := v }
    ((d 0#8).alt < 2 ∧ (d 0#8).ctl.getLsbD 0 = false ∧ (d 0#8).ctl.getLsbD 1 = false) ∧
    ((d 7#8).alt < 2 ∧ (d 7#8).ctl.getLsbD 0 = true ∧ (d 7#8).ctl.getLsbD 1 = true) ∧
    (2 ≤ (d 0x18#8).alt ∧ (d 0x18#8).ctl.getLsbD 0 = false ∧ (d 0x18#8).ctl.getLsbD 4 = true) ∧
    (2 ≤ (d 0x1C#8).alt ∧ (d 0x1C#8).ctl.getLsbD 0 = false) ∧ Vg72.reset.phase = .idle ∧
    Vg72.reset.unsensed = false := by decide

end Sys2Proof.Tests
end

/-! SUPPORT and CERTIFICATES. Registers, memory words, effective addresses and immediates: byte registers as halves of word
registers, words of memory read back, the rows of the address table. -/

namespace Sys2Proof.Certificates.Registers

open Sys2Proof.Machine

/-! ### Byte registers (10_state.md R20, R21) -/

@[simp] theorem lowByte_withLow (w : Word) (b : Byte) : lowByte (withLow w b) = b := lowByte_wordOf _ _
@[simp] theorem highByte_withLow (w : Word) (b : Byte) : highByte (withLow w b) = highByte w := highByte_wordOf _ _
@[simp] theorem lowByte_withHigh (w : Word) (b : Byte) : lowByte (withHigh w b) = lowByte w := lowByte_wordOf _ _
@[simp] theorem highByte_withHigh (w : Word) (b : Byte) : highByte (withHigh w b) = b := highByte_wordOf _ _

/-- A byte register read after a write of a byte register: the one written, or the one as before, in the same word
register or in another. -/
theorem reg8_setReg8 (c : Cpu) (r q : GReg) (b : Byte) :
    (c.setReg8 r b).reg8 q = if q = r then b else c.reg8 q := by
  cases r <;> cases q <;> simp [Cpu.setReg8, Cpu.reg8]

/-- A byte register is in no pointer or index register. -/
theorem pointers_setReg8 (c : Cpu) (r : GReg) (b : Byte) :
    (c.setReg8 r b).sp = c.sp ∧ (c.setReg8 r b).bp = c.bp ∧ (c.setReg8 r b).si = c.si ∧
      (c.setReg8 r b).di = c.di := by
  cases r <;> exact ⟨rfl, rfl, rfl, rfl⟩

/-! ### Words of memory (20_memory.md R101, R103, R104) -/

theorem phys_eq (seg off : Word) : phys seg off = (16 * seg.toNat + off.toNat) % 2 ^ 20 := by
  rw [phys, Nat.mul_comm]

theorem readMem_byte_memory {s : State} {seg off : Word} (h : s.isMemory (phys seg off) = true) :
    s.readMem .byte seg off = (zext (s.byteAt (phys seg off)), s) := by
  simp only [State.readMem, s.read8_memory h]

/-- A write stores the bytes of the value alone, and the CPU stays. -/
theorem writeMem_stores (s : State) (w : Width) (seg off v : Word) :
    s.Stores (s.writeMem w seg off v) s.cpu (widthBytes w) (fun k => phys seg (off + BitVec.ofNat 16 k)) v.toNat := by
  obtain ⟨⟨cpu, beyond⟩, stored⟩ := s.writeMem_spec w seg off v
  exact ⟨cpu, stored, beyond⟩

theorem isMemory_of_isRam {s : State} {a : Nat} (h : s.isRam a = true) : s.isMemory a = true := by
  rw [State.isMemory, h, Bool.true_or]

/-- RAM reads back the word that was written. -/
theorem readMem_writeMem_word (s : State) (seg off v : Word) (lo : s.isRam (phys seg off) = true)
    (hi : s.isRam (phys seg (off + 1#16)) = true) : ((s.writeMem .word seg off v).readMem .word seg off).1 = v := by
  obtain ⟨⟨_, _, _, _, _, plat, _⟩, _, stored, _⟩ := s.writeMem_spec .word seg off v
  have loByte : (s.writeMem .word seg off v).byteAt (phys seg off) = lowByte v := by
    have first := stored 0 (by decide) (by simpa using lo)
    dsimp only at first
    rwa [BitVec.add_zero, pow_zero, Nat.div_one, ← lowByte_eq] at first
  have hiByte : (s.writeMem .word seg off v).byteAt (phys seg (off + 1#16)) = highByte v := by
    have second := stored 1 (by decide) hi
    rwa [pow_one, ← highByte_eq] at second
  have reads := (s.writeMem .word seg off v).read16p_memory (lo := phys seg off) (hi := phys seg (off + 1#16))
    (isMemory_of_isRam (by rwa [State.isRam_congr plat])) (isMemory_of_isRam (by rwa [State.isRam_congr plat]))
  rw [State.readMem, State.read16, reads, loByte, hiByte, wordOf_bytes]

/-! ### Effective addresses (R105, R106, R135) -/

theorem eaParts_eq (c : Cpu) (e : EaRow) : eaParts c e = (c.baseIndex e, eaSegment e) := by
  cases e <;> rfl

/-- The override stands in the place of the default segment register (R106). -/
theorem segFor_eq (c : Cpu) (r : SReg) :
    c.segFor r = match c.lead.seg with | some q => c.sreg q | none => c.sreg r := by
  unfold Cpu.segFor
  cases c.lead.seg <;> rfl

/-! ### Immediates (30_encoding.md R157) -/

theorem zext_eq (b : Byte) : zext b = b.zeroExtend 16 := by
  apply BitVec.eq_of_toNat_eq
  have := b.isLt
  simp only [zext, wordOf, BitVec.toNat_ofNat, BitVec.truncate_eq_setWidth, BitVec.toNat_setWidth]
  omega

/-- Settles O1: registers, memory words, the address table and immediates, each by the lemmas above. -/
theorem registersAndMemoryAreLittleEndian : Obligations.RegistersAndMemoryAreLittleEndian := by
  refine ⟨fun c r q => ?_, fun s w seg off v => ?_, fun c m k => ?_, fun b v => ?_⟩
  · exact ⟨reg8_setReg8 c r q, pointers_setReg8 c r, c.reg16_setReg16 r q, (wordOf_bytes _).symm,
      (wordOf_bytes _).symm, (wordOf_bytes _).symm, (wordOf_bytes _).symm⟩
  · exact ⟨phys_eq seg off, readMem_byte_memory, s.read16p_memory, writeMem_stores s w seg off v,
      readMem_writeMem_word s seg off v⟩
  · refine ⟨rfl, rfl, rfl, rfl, rfl, segFor_eq c, fun a => ⟨rfl, rfl⟩, fun e => ?_⟩
    rw [eaParts_eq]
    exact ⟨rfl, rfl, fun d => ⟨rfl, rfl⟩, fun d => ⟨rfl, rfl⟩⟩
  · exact ⟨rfl, rfl, rfl, rfl, rfl, zext_eq b, rfl, zext_eq b, rfl, zext_eq b, rfl, rfl⟩

end Sys2Proof.Certificates.Registers

/-! SUPPORT and CERTIFICATES. The flags of an addition and of a subtraction: the model's computation on natural numbers
against the signed reading of the operands. -/

namespace Sys2Proof.Certificates.Arithmetic

open Sys2Proof.Machine

/-! ### Widths -/

theorem bitsOf_eq (w : Width) : bitsOf w = 8 * widthBytes w := by cases w <;> rfl

theorem modOf_eq (w : Width) : modOf w = 2 ^ (8 * widthBytes w) := by rw [modOf, bitsOf_eq]

theorem halfOf_eq (w : Width) : halfOf w = 2 ^ (8 * widthBytes w - 1) := by rw [halfOf, bitsOf_eq]

theorem fits_lt {w : Width} {v : Word} (h : Fits w v) : v.toNat < modOf w := by
  cases w with
  | byte => exact h rfl
  | word => exact v.isLt

theorem trunc_toNat (w : Width) (n : Nat) : (trunc w n).toNat = n % modOf w := by
  cases w with
  | byte => simp only [trunc, modOf, bitsOf, BitVec.toNat_ofNat]; omega
  | word => simp only [trunc, modOf, bitsOf, BitVec.toNat_ofNat]; omega

theorem trunc_fits (w : Width) (n : Nat) : Fits w (trunc w n) := fun h => by
  rw [trunc_toNat, h]; exact Nat.mod_lt _ (by decide)

/-- The value of a bit is 0 or 1. -/
theorem bitNat_eq (c : Bool) : bitNat c = c.toNat := by cases c <;> rfl

/-- A value of the width as a signed number (41_arithmetic.md R230): the upper half of the values is negative. -/
theorem signedValue_eq {w : Width} {v : Word} (h : Fits w v) :
    signedValue w v = if v.toNat < halfOf w then (v.toNat : Int) else v.toNat - (modOf w : Int) := by
  cases w with
  | byte =>
    have lt : v.toNat < 256 := h rfl
    simp only [signedValue, BitVec.toInt_eq_toNat_cond, halfOf, modOf, bitsOf, BitVec.truncate_eq_setWidth,
      BitVec.toNat_setWidth]
    split_ifs <;> omega
  | word =>
    have lt := v.isLt
    simp only [signedValue, BitVec.toInt_eq_toNat_cond, halfOf, modOf, bitsOf]
    split_ifs <;> omega

/-! ### SF, ZF and PF -/

theorem ones_eq_sum (v n : Nat) : ones v n = ((List.range n).map fun i => (v.testBit i).toNat).sum := by
  induction n with
  | zero => rfl
  | succ n ih =>
    have top : v / 2 ^ n % 2 = (v.testBit n).toNat := (Nat.toNat_testBit v n).symm
    simp only [ones, List.range_succ, List.map_append, List.sum_append, ih, top, List.map_cons, List.map_nil,
      List.sum_cons, List.sum_nil]
    omega

/-- The top bit of a value of the width. -/
theorem msb_eq {w : Width} {v : Word} (h : Fits w v) : msb w v = v.getLsbD (8 * widthBytes w - 1) := by
  have lt := fits_lt h
  rw [msb, Nat.mod_eq_of_lt lt, BitVec.getLsbD, Nat.testBit_eq_decide_div_mod_eq, decide_eq_decide]
  cases w with
  | byte => simp only [halfOf, modOf, bitsOf, widthBytes] at *; omega
  | word => simp only [halfOf, modOf, bitsOf, widthBytes] at *; omega

theorem isZero_iff {w : Width} {v : Word} (h : Fits w v) : isZero w v = true ↔ v = 0#16 := by
  rw [isZero, Nat.mod_eq_of_lt (fits_lt h), beq_iff_eq, ← BitVec.toNat_inj]
  rfl

theorem parity_iff (v : Word) : parity v = true ↔ onesOf v % 2 = 0 := by
  rw [parity, ones_eq_sum, beq_iff_eq]
  rfl

/-- SF, ZF and PF tell of a result of the width what R29, R31 and R32 say. -/
theorem tellsOf_szp (f : Flags) {w : Width} {r : Word} (h : Fits w r) : TellsOf (f.szp w r) w r :=
  ⟨msb_eq h, isZero_iff h, parity_iff r⟩

/-! ### Carries, borrows and the signed range -/

/-- A carry into the top bit without a carry out of it, or the reverse, is there exactly when the signed sum is out of
range. -/
theorem carries_differ_iff {w : Width} {a b : Word} (c : Bool) (ha : Fits w a) (hb : Fits w b) :
    ¬(halfOf w ≤ a.toNat % halfOf w + b.toNat % halfOf w + c.toNat ↔ modOf w ≤ a.toNat + b.toNat + c.toNat) ↔
      signedValue w a + signedValue w b + (c.toNat : Int) < -(halfOf w : Int) ∨
        (halfOf w : Int) ≤ signedValue w a + signedValue w b + (c.toNat : Int) := by
  have la := fits_lt ha
  have lb := fits_lt hb
  have lc := c.toNat_le
  rw [signedValue_eq ha, signedValue_eq hb]
  cases w with
  | byte => simp only [halfOf, modOf, bitsOf] at *; split_ifs <;> omega
  | word => simp only [halfOf, modOf, bitsOf] at *; split_ifs <;> omega

/-- The same of the two borrows and the signed difference. -/
theorem borrows_differ_iff {w : Width} {a b : Word} (c : Bool) (ha : Fits w a) (hb : Fits w b) :
    ¬(a.toNat % halfOf w < b.toNat % halfOf w + c.toNat ↔ a.toNat < b.toNat + c.toNat) ↔
      signedValue w a - signedValue w b - (c.toNat : Int) < -(halfOf w : Int) ∨
        (halfOf w : Int) ≤ signedValue w a - signedValue w b - (c.toNat : Int) := by
  have la := fits_lt ha
  have lb := fits_lt hb
  have lc := c.toNat_le
  rw [signedValue_eq ha, signedValue_eq hb]
  cases w with
  | byte => simp only [halfOf, modOf, bitsOf] at *; split_ifs <;> omega
  | word => simp only [halfOf, modOf, bitsOf] at *; split_ifs <;> omega

/-- Two computed conditions differ: OF by its definition. -/
theorem bne_decide_iff (p q : Prop) [Decidable p] [Decidable q] : (decide p != decide q) = true ↔ ¬(p ↔ q) := by
  rw [bne_iff_ne, ne_eq, decide_eq_decide]

/-- OF of an addition (10_state.md R33). -/
theorem add_ofl_iff (f : Flags) (w : Width) (a b : Word) (c : Bool) :
    (f.add w a b c).ofl = true ↔
      ¬(halfOf w ≤ a.toNat % halfOf w + b.toNat % halfOf w + c.toNat ↔ modOf w ≤ a.toNat + b.toNat + c.toNat) := by
  rw [← bitNat_eq]
  exact bne_decide_iff _ _

/-- OF of a subtraction. -/
theorem sub_ofl_iff (f : Flags) (w : Width) (a b : Word) (c : Bool) :
    (f.sub w a b c).ofl = true ↔
      ¬(a.toNat % halfOf w < b.toNat % halfOf w + c.toNat ↔ a.toNat < b.toNat + c.toNat) := by
  rw [← bitNat_eq]
  exact bne_decide_iff _ _

/-- The result of a subtraction: the difference modulo 2^N. -/
theorem subResult_toNat (w : Width) {a b : Word} (c : Bool) (hb : Fits w b) :
    ((subResult w a b c).toNat : Int) = ((a.toNat : Int) - b.toNat - c.toNat) % (modOf w : Int) := by
  have lb := fits_lt hb
  have lc := c.toNat_le
  rw [subResult, trunc_toNat, bitNat_eq]
  cases w with
  | byte => simp only [modOf, bitsOf] at *; omega
  | word => simp only [modOf, bitsOf] at *; omega

/-- Settles O2, width by width: OF by its two carries, and these against the signed sum. -/
theorem additionFlags : Obligations.AdditionFlags := by
  intro f w a b c ha hb
  dsimp only
  have of := add_ofl_iff f w a b c
  have range := carries_differ_iff c ha hb
  push_cast [halfOf_eq] at range
  rw [halfOf_eq, modOf_eq] at of
  refine ⟨?_, ?_, ?_, tellsOf_szp _ (trunc_fits w _), of, ?_, rfl, rfl, rfl⟩
  · rw [addResult, trunc_toNat, bitNat_eq, modOf_eq]
  · rw [← modOf_eq, ← bitNat_eq]; exact decide_eq_true_iff
  · rw [← bitNat_eq]; exact decide_eq_true_iff
  · rw [of, ← modOf_eq]; exact range

/-- Settles O3, as the addition, with borrows for carries. -/
theorem subtractionFlags : Obligations.SubtractionFlags := by
  intro f w a b c ha hb
  dsimp only
  have of := sub_ofl_iff f w a b c
  have range := borrows_differ_iff c ha hb
  push_cast [halfOf_eq] at range
  rw [halfOf_eq] at of
  refine ⟨?_, ?_, ?_, tellsOf_szp _ (trunc_fits w _), of, of.trans range, rfl, rfl, rfl⟩
  · have r := subResult_toNat w c hb (a := a)
    push_cast [modOf_eq] at r
    exact r
  · rw [← bitNat_eq]; exact decide_eq_true_iff
  · rw [← bitNat_eq]; exact decide_eq_true_iff

end Sys2Proof.Certificates.Arithmetic

/-! SUPPORT and CERTIFICATES. The boundary between two instructions: one lemma per entry of the boundary procedure, what an
entry leaves of the CPU, and the order in which they are taken. -/

namespace Sys2Proof.Certificates.Boundary

open Sys2Proof.Machine

/-! ### What an entry leaves (60_exceptions.md R812) -/

/-- An entry closes the interrupt gate. -/
theorem enters_ifl {s t : State} {c : Cpu} {n : Byte} (h : s.Enters t c n) : t.cpu.f.ifl = false := by
  obtain ⟨_, _, _, cpu, _⟩ := h
  exact congrArg (fun d : Cpu => d.f.ifl) cpu

/-- An entry leaves the sampled TF for the single step, which comes last. -/
theorem enters_stepPending {s t : State} {c : Cpu} {n : Byte} (h : s.Enters t c n) :
    t.cpu.stepPending = c.stepPending := by
  obtain ⟨_, _, _, cpu, _⟩ := h
  have kept := congrArg Cpu.stepPending cpu
  exact kept

/-! ### The three entries (R811) -/

theorem takeNmi_none {s : State} (h : s.cpu.nmiPending = false) : s.takeNmi = s := by
  rw [State.takeNmi, h, if_neg Bool.false_ne_true]

theorem takeNmi_enters {s : State} (h : s.cpu.nmiPending = true) :
    s.Enters s.takeNmi { s.cpu with nmiPending := false } 2#8 := by
  rw [State.takeNmi, if_pos h]
  exact State.interrupt_spec { s with cpu := { s.cpu with nmiPending := false } } 2#8

theorem takeIntr_none {s : State} (h : s.cpu.f.ifl = false ∨ s.intr = none) : s.takeIntr = s := by
  unfold State.takeIntr
  rcases h with closed | none
  · split
    · rw [closed, if_neg Bool.false_ne_true]
    · rfl
  · rw [none]

theorem takeIntr_enters {s : State} {n : Byte} (gate : s.cpu.f.ifl = true) (h : s.intr = some n) :
    s.acknowledge.Enters s.takeIntr s.cpu n := by
  rw [State.takeIntr, h]
  simp only [gate, if_true]
  exact State.interrupt_spec s.acknowledge n

/-- The last entry: a single step where TF was sampled as 1, else nothing. -/
theorem takeStep_spec (s : State) :
    if s.cpu.stepPending = true then s.Enters s.takeStep { s.cpu with stepPending := false } 1#8
    else s.takeStep = s := by
  split
  · rename_i pending
    rw [State.takeStep, if_pos pending]
    exact State.interrupt_spec { s with cpu := { s.cpu with stepPending := false } } 1#8
  · rename_i none
    rw [State.takeStep, if_neg none]

/-! ### The procedure at the end of an instruction -/

/-- After MOV sr or POP sr nothing is recognised (R41). -/
theorem boundary_inhibited {s : State} (h : s.cpu.phase = .complete) (inhibit : s.cpu.inhibit = true) :
    s.boundary = { s with cpu :=
      { (withoutLead s).cpu with inhibit := false, shadow := true, stepPending := false } } := by
  unfold State.boundary
  rw [h]
  simp only [inhibit, if_true]
  rfl

/-- Else the three entries are tried in the order NMI, INTR, single step. -/
theorem boundary_takes {s : State} (h : s.cpu.phase = .complete) (inhibit : s.cpu.inhibit = false) :
    s.boundary = (withoutLead s).takeNmi.takeIntr.takeStep := by
  have start : withoutLead s = { s with cpu := { s.cpu with lead := Leading.none, shadow := s.cpu.inhibit } } := by
    rw [inhibit]; rfl
  unfold State.boundary
  rw [h, start]
  exact if_neg (by rw [inhibit]; exact Bool.false_ne_true)

/-- The request lines do not depend on the leading bytes. -/
theorem intr_withoutLead (s : State) : (withoutLead s).intr = s.intr := by
  have line : (withoutLead s).line = s.line := by
    funext l
    cases l <;> rfl
  unfold State.intr
  rw [line]
  rfl

/-- Settles O34: each request is an entry that closes the gate for the next and leaves the single step to the last. -/
theorem boundaryTakesRequestsInOrder : Obligations.BoundaryTakesRequestsInOrder := by
  intro s complete
  dsimp only
  refine ⟨fun inhibit => ?_, fun inhibit nmi nothing => ?_, fun inhibit nmi => ?_, fun n inhibit nmi offered => ?_⟩
  · rw [boundary_inhibited complete inhibit]
    exact ⟨rfl, ⟨rfl, rfl⟩, rfl, ⟨rfl, rfl⟩, rfl, rfl, .refl _, fun _ => rfl⟩
  · have idle : (withoutLead s).takeIntr = withoutLead s := takeIntr_none (by rw [intr_withoutLead]; exact nothing)
    rw [boundary_takes complete inhibit, takeNmi_none (s := withoutLead s) nmi, idle]
    exact takeStep_spec (withoutLead s)
  · have enters := takeNmi_enters (s := withoutLead s) nmi
    refine ⟨(withoutLead s).takeNmi, enters, ?_⟩
    rw [boundary_takes complete inhibit, takeIntr_none (.inl (enters_ifl enters))]
    have step := takeStep_spec (withoutLead s).takeNmi
    rwa [enters_stepPending enters] at step
  · obtain ⟨gate, request⟩ := offered
    have enters := takeIntr_enters (s := withoutLead s) gate (by rw [intr_withoutLead]; exact request)
    refine ⟨(withoutLead s).takeIntr, enters, ?_⟩
    rw [boundary_takes complete inhibit, takeNmi_none (s := withoutLead s) nmi]
    have step := takeStep_spec (withoutLead s).takeIntr
    rwa [enters_stepPending enters] at step

end Sys2Proof.Certificates.Boundary

/-! SUPPORT and CERTIFICATES. The register stack of the VM87 and its response to conditions: fields of a register after a
write of one of them, one equation per stack operation and register, and what a load and a delivery are made of. -/

namespace Sys2Proof.Certificates.Coprocessor

open Sys2Proof.Machine

/-! ### Fields of a register -/

theorem fieldNat_testBit {n : Nat} (v : BitVec n) (lo len k : Nat) :
    (fieldNat v lo len).testBit k = (decide (k < len) && v.getLsbD (lo + k)) := by
  rw [fieldNat, Nat.testBit_mod_two_pow, Nat.testBit_div_two_pow, BitVec.getLsbD, Nat.add_comm]

/-- A bit of a register after one of its fields has been replaced. -/
theorem setField_getLsbD {n : Nat} (v : BitVec n) {lo len : Nat} (x k : Nat) (h : lo + len ≤ n) :
    (setField v lo len x).getLsbD k = if lo ≤ k ∧ k < lo + len then x.testBit (k - lo) else v.getLsbD k := by
  have low : v.toNat % 2 ^ lo < 2 ^ lo := Nat.mod_lt _ (by positivity)
  have mid : x % 2 ^ len < 2 ^ len := Nat.mod_lt _ (by positivity)
  have e : v.toNat / 2 ^ (lo + len) * 2 ^ (lo + len) + x % 2 ^ len * 2 ^ lo + v.toNat % 2 ^ lo =
      2 ^ lo * (2 ^ len * (v.toNat / 2 ^ (lo + len)) + x % 2 ^ len) + v.toNat % 2 ^ lo := by rw [pow_add]; ring
  rw [setField, BitVec.getLsbD_ofNat, e, Nat.testBit_two_pow_mul_add _ low, Nat.testBit_two_pow_mul_add _ mid,
    Nat.testBit_mod_two_pow, Nat.testBit_mod_two_pow, Nat.testBit_div_two_pow]
  by_cases below : k < lo
  · simp [below, show ¬lo ≤ k by omega, show k < n by omega, BitVec.getLsbD]
  · by_cases inside : k < lo + len
    · simp [below, inside, show lo ≤ k by omega, show k < n by omega, show k - lo < len by omega]
    · rw [if_neg below, if_neg (by omega), if_neg (by omega), show k - lo - len + (lo + len) = k by omega]
      by_cases size : k < n
      · simp [size, BitVec.getLsbD]
      · simp [size, BitVec.getLsbD_of_ge v k (by omega)]

theorem fieldNat_setField_same {n : Nat} (v : BitVec n) {lo len : Nat} (x : Nat) (h : lo + len ≤ n) :
    fieldNat (setField v lo len x) lo len = x % 2 ^ len := by
  apply Nat.eq_of_testBit_eq
  intro k
  rw [fieldNat_testBit, setField_getLsbD v x _ h, Nat.testBit_mod_two_pow]
  by_cases c : k < len <;> simp [c]

theorem fieldNat_congr {n : Nat} {v w : BitVec n} {lo len : Nat}
    (h : ∀ k, lo ≤ k → k < lo + len → v.getLsbD k = w.getLsbD k) : fieldNat v lo len = fieldNat w lo len := by
  apply Nat.eq_of_testBit_eq
  intro k
  rw [fieldNat_testBit, fieldNat_testBit]
  by_cases c : k < len
  · rw [h _ (by omega) (by omega)]
  · simp [c]

theorem fieldNat_setField_ne {n : Nat} (v : BitVec n) {lo lo' len : Nat} (x : Nat) (h : lo + len ≤ n)
    (apart : lo' + len ≤ lo ∨ lo + len ≤ lo') : fieldNat (setField v lo len x) lo' len = fieldNat v lo' len :=
  fieldNat_congr fun k hk hk' => by rw [setField_getLsbD v x _ h, if_neg (by omega)]

/-! ### The registers of the stack (10_state.md R50-R52) -/

theorem top_congr {f g : Fpu} (h : ∀ k, 11 ≤ k → k < 14 → g.sr.getLsbD k = f.sr.getLsbD k) : g.top = f.top := by
  rw [Fpu.top, Fpu.top, fieldNat_congr h]

@[simp] theorem top_setTop (f : Fpu) (t : BitVec 3) : (f.setTop t).top = t := by
  rw [Fpu.top, Fpu.setTop, fieldNat_setField_same _ _ (by norm_num), Nat.mod_eq_of_lt t.isLt, BitVec.ofNat_toNat,
    BitVec.setWidth_eq]

@[simp] theorem cr_setTop (f : Fpu) (t : BitVec 3) : (f.setTop t).cr = f.cr := rfl
@[simp] theorem cr_put (f : Fpu) (i : BitVec 3) (v : Ext80) : (f.put i v).cr = f.cr := rfl
@[simp] theorem sr_put (f : Fpu) (i : BitVec 3) (v : Ext80) : (f.put i v).sr = f.sr := rfl
@[simp] theorem top_put (f : Fpu) (i : BitVec 3) (v : Ext80) : (f.put i v).top = f.top := rfl
@[simp] theorem top_setTag (f : Fpu) (i : BitVec 3) (t : Nat) : (f.setTag i t).top = f.top := rfl

/-- The stack pointer is bits 13-11 of SR; the other bits stay. -/
theorem sr_setTop (f : Fpu) (t : BitVec 3) {k : Nat} (h : k < 11 ∨ 14 ≤ k) :
    (f.setTop t).sr.getLsbD k = f.sr.getLsbD k := by
  rw [Fpu.setTop, setField_getLsbD _ _ _ (by norm_num), if_neg (by omega)]

theorem st_setTop (f : Fpu) (t i : BitVec 3) : (f.setTop t).st i = f.ar.get (t + i) := by
  rw [Fpu.st, Fpu.number, top_setTop, Fpu.setTop]

theorem tagOf_setTop (f : Fpu) (t i : BitVec 3) : (f.setTop t).tagOf i = fieldNat f.tag (2 * (t + i).toNat) 2 := by
  rw [Fpu.tagOf, Fpu.number, top_setTop, Fpu.setTop]

theorem number_inj (f : Fpu) {i j : BitVec 3} : f.number i = f.number j ↔ i = j := by
  rw [Fpu.number, Fpu.number, BitVec.add_right_inj]

theorem st_put (f : Fpu) (i j : BitVec 3) (v : Ext80) : (f.put i v).st j = if j = i then v else f.st j := by
  rw [Fpu.st, Fpu.number, top_put, Fpu.put, Bank8.get_set, ← Fpu.number, ← Fpu.st]
  exact if_congr (number_inj f) rfl rfl

theorem st_setTag (f : Fpu) (i j : BitVec 3) (t : Nat) : (f.setTag i t).st j = f.st j := rfl

/-- A tag read after a write of one tag. -/
theorem tag_after_write (f : Fpu) (i j : BitVec 3) {t : Nat} (h : t < 4) :
    fieldNat (setField f.tag (2 * (f.number i).toNat) 2 t) (2 * (f.number j).toNat) 2 = if j = i then t else f.tagOf j := by
  have hi := (f.number i).isLt
  by_cases e : j = i
  · rw [e, if_pos rfl, fieldNat_setField_same _ _ (by omega), Nat.mod_eq_of_lt (by simpa using h)]
  · have ne : (f.number j).toNat ≠ (f.number i).toNat := fun c => e ((number_inj f).mp (BitVec.eq_of_toNat_eq c))
    rw [if_neg e, fieldNat_setField_ne _ _ (by omega) (by omega), Fpu.tagOf]

theorem extTag_lt (v : Ext80) : extTag v < 4 := by
  unfold extTag
  split
  · norm_num
  · norm_num
  · norm_num
  · split <;> norm_num
  · norm_num

theorem tagOf_put (f : Fpu) (i j : BitVec 3) (v : Ext80) :
    (f.put i v).tagOf j = if j = i then extTag v else f.tagOf j :=
  tag_after_write f i j (extTag_lt v)

theorem tagOf_setTag (f : Fpu) (i j : BitVec 3) {t : Nat} (h : t < 4) :
    (f.setTag i t).tagOf j = if j = i then t else f.tagOf j :=
  tag_after_write f i j h

/-! ### A push, and the pop that undoes it (R51) -/

/-- A value pushed on the stack. -/
def pushed (f : Fpu) (v : Ext80) : Fpu := (f.setTop (f.top - 1)).put 0 v

theorem under_top (t i : BitVec 3) : t - 1 + (i + 1) = t + i := by ring

theorem succ_ne_zero {i : BitVec 3} (h : i ≠ 7#3) : i + 1 ≠ 0 := by
  revert h; revert i; decide

@[simp] theorem pushed_top (f : Fpu) (v : Ext80) : (pushed f v).top = f.top - 1 := by
  rw [pushed, top_put, top_setTop]

@[simp] theorem pushed_cr (f : Fpu) (v : Ext80) : (pushed f v).cr = f.cr := rfl

theorem pushed_sr (f : Fpu) (v : Ext80) {k : Nat} (h : k < 11 ∨ 14 ≤ k) :
    (pushed f v).sr.getLsbD k = f.sr.getLsbD k := sr_setTop f _ h

@[simp] theorem pushed_st_zero (f : Fpu) (v : Ext80) : (pushed f v).st 0 = v := by rw [pushed, st_put, if_pos rfl]

@[simp] theorem pushed_tagOf_zero (f : Fpu) (v : Ext80) : (pushed f v).tagOf 0 = extTag v := by
  rw [pushed, tagOf_put, if_pos rfl]

theorem pushed_st_succ (f : Fpu) (v : Ext80) {i : BitVec 3} (h : i ≠ 7#3) : (pushed f v).st (i + 1) = f.st i := by
  rw [pushed, st_put, if_neg (succ_ne_zero h), st_setTop, under_top, Fpu.st, Fpu.number]

theorem pushed_tagOf_succ (f : Fpu) (v : Ext80) {i : BitVec 3} (h : i ≠ 7#3) :
    (pushed f v).tagOf (i + 1) = f.tagOf i := by
  rw [pushed, tagOf_put, if_neg (succ_ne_zero h), tagOf_setTop, under_top, Fpu.tagOf, Fpu.number]

theorem pop_top (f : Fpu) : f.pop.top = f.top + 1 := by rw [Fpu.pop, top_setTop]

theorem pop_st (f : Fpu) (i : BitVec 3) : f.pop.st i = f.st (i + 1) := by
  rw [Fpu.pop, st_setTop, ← st_setTag f 0 (i + 1) 3, Fpu.st, Fpu.number, top_setTag, add_assoc, add_comm 1 i]

theorem pop_tagOf (f : Fpu) (i : BitVec 3) : f.pop.tagOf i = if i = 7#3 then 3 else f.tagOf (i + 1) := by
  have wrap : i + 1 = 0 ↔ i = 7#3 := by revert i; decide
  have e : f.pop.tagOf i = (f.setTag 0 3).tagOf (i + 1) := by
    rw [Fpu.pop, tagOf_setTop, Fpu.tagOf, Fpu.number, top_setTag, add_assoc, add_comm 1 i]
  rw [e, tagOf_setTag f 0 (i + 1) (by norm_num)]
  exact if_congr wrap rfl rfl

/-- pop() undoes a push, but for the register that it leaves, which is empty. -/
theorem pop_pushed (f : Fpu) (v : Ext80) :
    (pushed f v).pop.top = f.top ∧ (pushed f v).pop.isEmpty 7 = true ∧
      ∀ i, i ≠ 7#3 → (pushed f v).pop.st i = f.st i ∧ (pushed f v).pop.tagOf i = f.tagOf i := by
  refine ⟨?_, ?_, fun i h => ⟨?_, ?_⟩⟩
  · rw [pop_top, pushed_top, sub_add_cancel]
  · rw [Fpu.isEmpty, pop_tagOf]; rfl
  · rw [pop_st, pushed_st_succ f v h]
  · rw [pop_tagOf, if_neg h, pushed_tagOf_succ f v h]

/-! ### Raising a condition (R53, R420) -/

@[simp] theorem raise_ar (f : Fpu) (k : Nat) : (f.raise k).ar = f.ar := by rw [(f.raise_spec k).1]
@[simp] theorem raise_tag (f : Fpu) (k : Nat) : (f.raise k).tag = f.tag := by rw [(f.raise_spec k).1]
@[simp] theorem raise_cr (f : Fpu) (k : Nat) : (f.raise k).cr = f.cr := by rw [(f.raise_spec k).1]

/-- The flag is set, and where its own mask is 0 the request, and BUSY unless IEM gates it. -/
theorem raise_sr (f : Fpu) {k : Nat} (h : k < 6) (j : Nat) :
    (f.raise k).sr.getLsbD j = (f.sr.getLsbD j || decide (j = k) ||
      (!f.cr.getLsbD k && (decide (j = 7) || (decide (j = 15) && !f.cr.getLsbD 7)))) := by
  rw [(f.raise_spec k).2]
  by_cases own : f.cr.getLsbD k = true
  · rw [if_pos (show bit f.cr k = true from own), setBit_getLsbD _ _ _ _ (by omega), own]
    by_cases e : j = k <;> simp [e]
  · rw [if_neg (show ¬bit f.cr k = true from own), setBit_getLsbD _ _ _ _ (by omega),
      setBit_getLsbD _ _ _ _ (by omega), setBit_getLsbD _ _ _ _ (by omega), bit, setBit_getLsbD _ _ _ _ (by omega),
      if_neg (show ¬15 = k by omega), bit, Bool.eq_false_iff.mpr own]
    by_cases busy : j = 15
    · subst busy; simp [show ¬15 = k by omega]
    · rw [if_neg busy, decide_eq_false busy]
      by_cases request : j = 7
      · subst request; simp
      · rw [if_neg request, decide_eq_false request]
        by_cases e : j = k <;> simp [e]

@[simp] theorem raise_top (f : Fpu) {k : Nat} (h : k < 6) : (f.raise k).top = f.top :=
  top_congr fun j lo hi => by
    rw [raise_sr f h, decide_eq_false (show ¬j = k by omega), decide_eq_false (show ¬j = 7 by omega),
      decide_eq_false (show ¬j = 15 by omega)]
    simp

/-- A masked condition does not touch BUSY. -/
theorem raise_busy_masked (f : Fpu) {k : Nat} (h : k < 6) (m : f.masked k = true) :
    (f.raise k).sr.getLsbD 15 = f.sr.getLsbD 15 := by
  rw [raise_sr f h, decide_eq_false (show ¬15 = k by omega)]
  simp only [Fpu.masked, bit, Bool.or_eq_true] at m
  rcases m with m | m <;> simp [m]

/-- An unmasked condition raises its flag, the request and BUSY, and the registers stay. -/
theorem raise_unmasked (f : Fpu) {k : Nat} (h : k < 6) (m : f.masked k = false) :
    (f.raise k).ar = f.ar ∧ (f.raise k).tag = f.tag ∧ (f.raise k).top = f.top ∧ (f.raise k).cr = f.cr ∧
      (f.raise k).sr.getLsbD k = true ∧ (f.raise k).sr.getLsbD 7 = true ∧ (f.raise k).sr.getLsbD 15 = true := by
  simp only [Fpu.masked, bit, Bool.or_eq_false_iff] at m
  obtain ⟨iem, own⟩ := m
  refine ⟨raise_ar f k, raise_tag f k, raise_top f h, raise_cr f k, ?_, ?_, ?_⟩ <;> simp [raise_sr f h, iem, own]

/-! ### The cases of a load (R426, R422, D24) -/

section Load

variable (f : Fpu) (o : Opnd) {empty : Bool}

theorem load_fault_masked (h : (f.setTop (f.top - 1)).isEmpty 0 = false ∨ empty = true) (m : f.masked 0 = true) :
    f.load o empty = pushed (f.raise 0) indefinite := by
  have fault : (empty || !(f.setTop (f.top - 1)).isEmpty 0) = true := by
    rcases h with h | h <;> rw [h] <;> simp only [Bool.not_false, Bool.or_true, Bool.true_or]
  rw [pushed, raise_top f (by norm_num)]
  simp only [Fpu.load, fault, m, if_true]

theorem load_fault_unmasked (h : (f.setTop (f.top - 1)).isEmpty 0 = false ∨ empty = true) (m : f.masked 0 = false) :
    f.load o empty = f.raise 0 := by
  have fault : (empty || !(f.setTop (f.top - 1)).isEmpty 0) = true := by
    rcases h with h | h <;> rw [h] <;> simp only [Bool.not_false, Bool.or_true, Bool.true_or]
  simp only [Fpu.load, fault, m, if_true, Bool.false_eq_true, if_false]

theorem load_denormal_unmasked (h : (f.setTop (f.top - 1)).isEmpty 0 = true) (den : o.den = true)
    (m : f.masked 1 = false) : f.load o false = f.raise 1 := by
  simp only [Fpu.load, h, den, m, Bool.not_true, Bool.or_false, Bool.false_eq_true, if_false, Bool.not_false,
    Bool.and_true, if_true]

theorem load_free (h : (f.setTop (f.top - 1)).isEmpty 0 = true) (m : o.den = true → f.masked 1 = true) :
    f.load o false = pushed (if o.den then f.raise 1 else f) o.v := by
  have keeps : (o.den && !f.masked 1) = false := by
    cases den : o.den
    · rfl
    · rw [m den]; rfl
  have top : (if o.den then f.raise 1 else f).top = f.top := by
    split
    · exact raise_top f (by norm_num)
    · rfl
  rw [pushed, top]
  simp only [Fpu.load, h, keeps, Bool.not_true, Bool.or_false, Bool.false_eq_true, if_false]

end Load

/-- The registers have moved up by one, the new top aside; the control register and BUSY stay. -/
def Moved (f g : Fpu) : Prop :=
  g.top = f.top - 1 ∧ g.cr = f.cr ∧ (∀ i, i ≠ 7#3 → g.st (i + 1) = f.st i ∧ g.tagOf (i + 1) = f.tagOf i) ∧
    g.sr.getLsbD 15 = f.sr.getLsbD 15

theorem moved_pushed (f : Fpu) (v : Ext80) : Moved f (pushed f v) :=
  ⟨pushed_top f v, pushed_cr f v, fun _ h => ⟨pushed_st_succ f v h, pushed_tagOf_succ f v h⟩, pushed_sr f v (by norm_num)⟩

/-- Raising a condition leaves every register and tag under its name. -/
theorem raise_st_tagOf (f : Fpu) {k : Nat} (h : k < 6) (i : BitVec 3) :
    (f.raise k).st i = f.st i ∧ (f.raise k).tagOf i = f.tagOf i := by
  rw [Fpu.st, Fpu.tagOf, Fpu.number, raise_top f h, raise_ar, raise_tag]
  exact ⟨rfl, rfl⟩

/-- A masked condition, noted before a push, does not change how the registers move. -/
theorem moved_pushed_raise (f : Fpu) (v : Ext80) {k : Nat} (h : k < 6) (m : f.masked k = true) :
    Moved f (pushed (f.raise k) v) := by
  obtain ⟨top, cr, regs, busy⟩ := moved_pushed (f.raise k) v
  refine ⟨by rw [top, raise_top f h], cr.trans (raise_cr f k), fun i hi => ?_, busy.trans (raise_busy_masked f h m)⟩
  rw [(regs i hi).1, (regs i hi).2]
  exact raise_st_tagOf f h i

/-- The flags and the request after a condition and a push. -/
theorem pushed_raise_sr (f : Fpu) (v : Ext80) {k j : Nat} (h : k < 6) (hj : j < 8) :
    (pushed (f.raise k) v).sr.getLsbD j =
      (f.sr.getLsbD j || decide (j = k) || (!f.cr.getLsbD k && decide (j = 7))) := by
  rw [pushed_sr _ v (by omega), raise_sr f h, decide_eq_false (show ¬j = 15 by omega), Bool.false_and, Bool.or_false]

/-- Settles O41: a load is a push after what it notes, or a condition alone. -/
theorem coprocessorStack : Obligations.CoprocessorStack := by
  intro f o empty
  dsimp only
  refine ⟨fun free source den => ?_, fun free source den m => ?_, fun fault m => ?_, fun fault m => ?_⟩
  · subst source
    rw [load_free f o free den]
    cases d : o.den with
    | false =>
      refine ⟨moved_pushed f o.v, pushed_st_zero f _, pushed_tagOf_zero f _, pushed_sr f _ (by norm_num), ?_, ?_,
        pop_pushed f _⟩
      · rw [Bool.or_false]; exact pushed_sr f _ (by norm_num)
      · rw [Bool.false_and, Bool.or_false]; exact pushed_sr f _ (by norm_num)
    | true =>
      obtain ⟨popTop, popEmpty, popRest⟩ := pop_pushed (f.raise 1) o.v
      refine ⟨moved_pushed_raise f o.v (by norm_num) (den d), pushed_st_zero _ _, pushed_tagOf_zero _ _, ?_, ?_, ?_,
        popTop.trans (raise_top f (by norm_num)), popEmpty, fun i h => ?_⟩
      · exact (pushed_raise_sr f o.v (by norm_num) (by norm_num)).trans (by simp)
      · exact (pushed_raise_sr f o.v (by norm_num) (by norm_num)).trans (by simp)
      · exact (pushed_raise_sr f o.v (by norm_num) (by norm_num)).trans (by simp)
      · obtain ⟨st, tag⟩ := raise_st_tagOf f (k := 1) (by norm_num) i
        exact ⟨(popRest i h).1.trans st, (popRest i h).2.trans tag⟩
  · subst source
    rw [load_denormal_unmasked f o free den m]
    exact raise_unmasked f (by norm_num) m
  · rw [load_fault_masked f o fault m]
    refine ⟨moved_pushed_raise f _ (by norm_num) m, pushed_st_zero _ _, (pushed_tagOf_zero _ _).trans (by decide),
      ?_, ?_, ?_⟩
    · exact (pushed_raise_sr f _ (by norm_num) (by norm_num)).trans (by simp)
    · exact (pushed_raise_sr f _ (by norm_num) (by norm_num)).trans (by simp)
    · exact (pushed_raise_sr f _ (by norm_num) (by norm_num)).trans (by simp)
  · rw [load_fault_unmasked f o fault m]
    exact ⟨raise_unmasked f (by norm_num) m, (raise_sr f (by norm_num) 1).trans (by simp)⟩

/-! ### Delivering a result (R425, R428, R429) -/

/-- A condition that a result may have. -/
def raiseIf (f : Fpu) (b : Bool) (k : Nat) : Fpu := if b then f.raise k else f

@[simp] theorem raiseIf_ar (f : Fpu) (b : Bool) (k : Nat) : (raiseIf f b k).ar = f.ar := by
  unfold raiseIf; split <;> simp

@[simp] theorem raiseIf_tag (f : Fpu) (b : Bool) (k : Nat) : (raiseIf f b k).tag = f.tag := by
  unfold raiseIf; split <;> simp

@[simp] theorem raiseIf_cr (f : Fpu) (b : Bool) (k : Nat) : (raiseIf f b k).cr = f.cr := by
  unfold raiseIf; split <;> simp

/-- The flag of a condition that is there is set. -/
theorem raiseIf_sets {f : Fpu} {b : Bool} {k : Nat} (h : k < 6) (hb : b = true) :
    (raiseIf f b k).sr.getLsbD k = true := by
  rw [raiseIf, if_pos hb, raise_sr f h]; simp

/-- No condition takes a flag back. -/
theorem raiseIf_keeps {f : Fpu} (b : Bool) {k j : Nat} (h : k < 6) (hj : f.sr.getLsbD j = true) :
    (raiseIf f b k).sr.getLsbD j = true := by
  unfold raiseIf
  split
  · rw [raise_sr f h, hj]; simp
  · exact hj

/-- A condition touches no other flag. -/
theorem raiseIf_other (f : Fpu) (b : Bool) {k j : Nat} (h : k < 6) (hj : j < 6) (ne : j ≠ k) :
    (raiseIf f b k).sr.getLsbD j = f.sr.getLsbD j := by
  unfold raiseIf
  split
  · rw [raise_sr f h, decide_eq_false ne, decide_eq_false (show ¬j = 7 by omega),
      decide_eq_false (show ¬j = 15 by omega)]
    simp
  · rfl

/-- A condition is there and stops the result: its response is unmasked. -/
def Stops (f : Fpu) (b : Bool) (k : Nat) : Bool := b && !f.masked k

/-- What is noted before a result is delivered: an unmasked overflow or underflow hides an inexact result. -/
def noted (f : Fpu) (r : FRes) : Fpu :=
  raiseIf (raiseIf (raiseIf (raiseIf (raiseIf f r.de 1) r.ze 2) r.oe 3) r.ue 4)
    (r.pe && !(Stops f r.oe 3 || Stops f r.ue 4)) 5

theorem stops_false {f : Fpu} {b : Bool} {k : Nat} (h : b = true → f.masked k = true) : Stops f b k = false := by
  unfold Stops
  cases b
  · rfl
  · rw [h rfl]; rfl

theorem deliver_delivers (f : Fpu) (r : FRes) (put : Fpu → Ext80 → Fpu) (ie : r.ie = false)
    (de : r.de = true → f.masked 1 = true) (ze : r.ze = true → f.masked 2 = true) :
    f.deliver r put = put (noted f r) r.val := by
  have noDe : (r.de && !f.masked 1) = false := stops_false de
  have noZe : (r.ze && !f.masked 2) = false := stops_false ze
  simp only [Fpu.deliver, ie, noDe, noZe, Bool.false_eq_true, if_false]
  rfl

/-- Settles O50: raising is the bits of SR that it writes; a delivery notes the conditions one after the other. -/
theorem coprocessorConditions : Obligations.CoprocessorConditions := by
  refine ⟨fun f k h => ⟨rfl, raise_ar f k, raise_tag f k, raise_cr f k, raise_sr f h⟩, fun f r put => ⟨?_, ?_, ?_, ?_, ?_⟩⟩
  · intro ie m
    simp only [Fpu.deliver, ie, m, if_true, Bool.false_eq_true, if_false]
  · intro ie m
    simp only [Fpu.deliver, ie, m, if_true]
  · intro ie de m
    simp only [Fpu.deliver, ie, de, m, Bool.false_eq_true, if_false, Bool.not_false, Bool.and_true, if_true]
  · intro ie de ze m
    simp only [Fpu.deliver, ie, de, ze, m, Bool.false_eq_true, if_false, Bool.not_false, Bool.and_true, if_true]
    rfl
  · intro ie de ze
    refine ⟨noted f r, deliver_delivers f r put ie de ze, by simp [noted], by simp [noted], by simp [noted],
      fun h => ?_, fun h => ?_, fun h => ?_, fun h => ?_, fun pe oe ue => ?_, fun hidden => ?_⟩
    · exact raiseIf_keeps _ (by norm_num) (raiseIf_keeps _ (by norm_num) (raiseIf_keeps _ (by norm_num)
        (raiseIf_keeps _ (by norm_num) (raiseIf_sets (by norm_num) h))))
    · exact raiseIf_keeps _ (by norm_num) (raiseIf_keeps _ (by norm_num) (raiseIf_keeps _ (by norm_num)
        (raiseIf_sets (by norm_num) h)))
    · exact raiseIf_keeps _ (by norm_num) (raiseIf_keeps _ (by norm_num) (raiseIf_sets (by norm_num) h))
    · exact raiseIf_keeps _ (by norm_num) (raiseIf_sets (by norm_num) h)
    · exact raiseIf_sets (by norm_num) (by rw [pe, stops_false oe, stops_false ue]; rfl)
    · have stops : (r.pe && !(Stops f r.oe 3 || Stops f r.ue 4)) = false := by
        rcases hidden with ⟨h, m⟩ | ⟨h, m⟩ <;> simp [Stops, h, m]
      rw [noted, stops, raiseIf, if_neg Bool.false_ne_true, raiseIf_other, raiseIf_other, raiseIf_other, raiseIf_other]
      all_goals norm_num

end Sys2Proof.Certificates.Coprocessor

/-! CERTIFICATE. The state after RESET, part by part. -/

namespace Sys2Proof.Certificates.Reset

open Sys2Proof.Machine

/-- IEM is 1 after RESET, so that every condition is masked. -/
theorem reset_masked (k : Nat) : Fpu.reset.masked k = true := by
  have iem : bit Fpu.reset.cr 7 = true := by decide
  rw [Fpu.masked, iem, Bool.true_or]

/-- Every tag is 11. -/
theorem reset_isEmpty : ∀ i : BitVec 3, Fpu.reset.isEmpty i = true := by decide

/-- With every channel masked and no software request no channel is pending. -/
theorem reset_winner : Vt37.reset.winner = none := by decide

/-- Settles O32: the values of the reset state, with its tags, masks and memories by the lemmas named. -/
theorem resetLeavesTheGivenValues : Obligations.ResetLeavesTheGivenValues := by
  dsimp only [Obligations.ResetLeavesTheGivenValues]
  refine ⟨rfl, rfl, rfl, rfl, rfl, rfl, by decide, rfl, rfl, rfl, rfl, by decide, by decide, by decide,
    fun k _ => reset_masked k, reset_isEmpty, rfl, by decide, rfl, rfl, rfl, rfl, rfl, rfl, reset_winner, rfl, rfl, rfl,
    rfl, rfl, State.reset_memoryWf⟩

end Sys2Proof.Certificates.Reset

/-! SUPPORT. Which bytes of devices the queue of the CPU holds after a fetch and when an instruction starts (20_memory.md
R112, R130): those it held before, and those that follow the bytes fetched. -/

namespace Sys2Proof.Certificates.Queue

open Sys2Proof.Machine

/-- The bytes of devices that the queue holds after `t`, beside those that it held in `s`, satisfy `p`. -/
def Held (s t : State) (p : Nat → Prop) : Prop := ∀ e ∈ t.cpu.ahead, e ∈ s.cpu.ahead ∨ p e.1

theorem Held.same {s t : State} {p : Nat → Prop} (h : t.cpu.ahead = s.cpu.ahead) : Held s t p :=
  fun _ he => .inl (h ▸ he)

theorem Held.trans {s t u : State} {p q r : Nat → Prop} (h : Held s t p) (g : Held t u q) (hp : ∀ a, p a → r a)
    (hq : ∀ a, q a → r a) : Held s u r := fun e he => by
  rcases g e he with old | new
  · exact (h e old).imp_right (hp e.1)
  · exact .inr (hq e.1 new)

/-- The queue takes one byte. -/
theorem Held.hold {s t : State} (h : t.cpu = s.cpu) (a : Nat) (b : Byte) :
    Held s { t with cpu := t.cpu.hold a b } (· = a) := fun e he => by
  simp only [Cpu.hold, h, List.mem_append, List.mem_singleton] at he
  rcases he with old | rfl
  · exact .inl old
  · exact .inr rfl

/-! ### Addresses in the queue -/

theorem inQueue_iff (cs ip : Word) (a n : Nat) :
    inQueue cs ip a n = true ↔ ∃ j < n, a = phys cs (ip + BitVec.ofNat 16 j) := by
  induction n with
  | zero => simp [inQueue]
  | succ n ih =>
    rw [inQueue, Bool.or_eq_true, ih, beq_iff_eq]
    constructor
    · rintro (last | ⟨j, hj, e⟩)
      · exact ⟨n, Nat.lt_succ_self n, last.symm⟩
      · exact ⟨j, Nat.lt_succ_of_lt hj, e⟩
    · rintro ⟨j, hj, e⟩
      rcases Nat.lt_succ_iff_lt_or_eq.mp hj with lt | rfl
      · exact .inr ⟨j, lt, e⟩
      · exact .inl e.symm

theorem ofNat_succ (off : Word) (j : Nat) : off + 1#16 + BitVec.ofNat 16 j = off + BitVec.ofNat 16 (j + 1) := by
  rw [BitVec.add_assoc, BitVec.ofNat_add_ofNat, Nat.add_comm]

/-- Above an even address stands the byte at the next offset of the segment: an even offset is not FFFFh. -/
theorem phys_above {cs off : Word} (h : phys cs off % 2 = 0) : phys cs off + 1 = phys cs (off + 1#16) := by
  have parity : off.toNat % 2 = 0 := by unfold phys at h; omega
  have last : off ≠ 0xFFFF#16 := by rintro rfl; exact absurd parity (by decide)
  have lt := phys_lt cs off
  rw [phys_next last, Nat.mod_eq_of_lt (by omega)]

/-! ### The cycles of a fetch -/

theorem plat_of_sameBeyondBus {s t : State} (h : s.SameBeyondBus t) : t.plat = s.plat := by
  obtain ⟨_, _, _, _, plat, _⟩ := h
  exact plat

/-- A fetch leaves CS and IP. -/
theorem fetchedAhead_place {s t : State} (h : s.FetchedAhead t) : t.cpu.cs = s.cpu.cs ∧ t.cpu.ip = s.cpu.ip := by
  rw [h.1]; exact ⟨rfl, rfl⟩

theorem takeAhead_held (s : State) (a : Nat) : Held s (s.takeAhead a) (· = a) := by
  unfold State.takeAhead
  split
  · exact .hold (s.devRead_spec _ _).1 a _
  · exact .same rfl

/-- The byte above comes with a byte at an even address alone. -/
theorem takeAbove_held (s : State) (a : Nat) :
    Held s (s.takeAbove a) fun x => x = a + 1 ∧ s.fetchesWord a = true := by
  unfold State.takeAbove
  split
  · exact .same rfl
  · rename_i word
    have word : s.fetchesWord a = true := by simpa using word
    split
    · exact (Held.hold (s := s) (t := s.bump) rfl (a + 1) _).trans (.same rfl) (fun x h => ⟨h, word⟩) (fun _ h => h)
    · exact (takeAhead_held s (a + 1)).trans (.same rfl) (fun x h => ⟨h, word⟩) (fun _ h => h)

theorem fetchesWord_even {s : State} {a : Nat} (h : s.fetchesWord a = true) : a % 2 = 0 := by
  simp only [State.fetchesWord, Bool.and_eq_true, beq_iff_eq] at h
  exact h.2

/-- The byte at an offset brings at most the byte at the next offset. -/
theorem fetchByte_held (s : State) (cs off : Word) :
    Held s (s.fetchByte (phys cs off)).2 (· = phys cs (off + 1#16)) := by
  unfold State.fetchByte
  split
  · exact .same rfl
  · have read : Held s (s.codeByte (phys cs off)).2 fun _ => False :=
      .same (congrArg Cpu.ahead (s.codeByte_quiet _).1)
    refine read.trans (takeAbove_held _ _) (fun _ h => h.elim) ?_
    rintro _ ⟨rfl, word⟩
    exact phys_above (fetchesWord_even word)

/-- After the byte `k` of a fetch the queue holds of devices at most the bytes 1 to `k + 1`. -/
theorem fetchBytes_held (s : State) (off : Word) (n : Nat) {k : Nat} (h : k < (s.fetchBytes off n).length) :
    Held s (s.fetchBytes off n)[k].2 fun a => ∃ j, 1 ≤ j ∧ j ≤ k + 1 ∧ a = phys s.cpu.cs (off + BitVec.ofNat 16 j) := by
  induction n generalizing s off k with
  | zero => exact absurd h (by simp [State.fetchBytes])
  | succ n ih =>
    have first := fetchByte_held s s.cpu.cs off
    have cs : (s.fetchByte (phys s.cpu.cs off)).2.cpu.cs = s.cpu.cs :=
      (fetchedAhead_place (s.fetchByte_spec (phys s.cpu.cs off))).1
    cases k with
    | zero => exact first.trans (.same rfl) (fun a e => ⟨1, le_refl 1, le_refl 1, e⟩) (fun _ e => e)
    | succ k =>
      have rest := ih (s.fetchByte (phys s.cpu.cs off)).2 (off + 1#16) (k := k) (by simpa [State.fetchBytes] using h)
      refine first.trans rest (fun a e => ⟨1, le_refl 1, by omega, e⟩) ?_
      rintro a ⟨j, lo, hi, e⟩
      rw [cs, ofNat_succ] at e
      exact ⟨j + 1, by omega, by omega, e⟩

theorem fetchBytes_length (s : State) (off : Word) (n : Nat) : (s.fetchBytes off n).length = n := by
  induction n generalizing s off with
  | zero => rfl
  | succ n ih => simp only [State.fetchBytes, List.length_cons, ih]

/-- After a fetch the queue holds of devices what it held, and bytes of the instruction and the one that follows it. -/
theorem fetch86_held {s u : State} {i : Instr} {n : Nat} (h : s.fetch86 = .ok (i, n, u)) :
    Held s u fun a => ∃ j, j ≤ n + 1 ∧ (n = 0 ∨ j ≤ n) ∧ a = phys s.cpu.cs (s.cpu.ip + BitVec.ofNat 16 j) := by
  unfold State.fetch86 at h
  dsimp only at h
  split at h
  · rename_i r _
    simp only [Except.ok.injEq, Prod.mk.injEq] at h
    obtain ⟨_, rfl, rfl⟩ := h
    have lt : maxLength - r.length - 1 < (s.fetchBytes s.cpu.ip maxLength).length := by
      rw [fetchBytes_length]; unfold maxLength; omega
    rw [List.getD_eq_getElem _ _ lt]
    refine (fetchBytes_held s s.cpu.ip maxLength lt).trans (.same rfl) ?_ (fun _ e => e)
    rintro a ⟨j, lo, hi, e⟩
    exact ⟨j, by omega, by omega, e⟩
  · cases h

/-! ### The prefetch -/

theorem prefetch_held (s : State) (off : Word) (n : Nat) :
    Held s (s.prefetch off n) fun a => ∃ j < n, a = phys s.cpu.cs (off + BitVec.ofNat 16 j) := by
  induction n generalizing s off with
  | zero => exact .same rfl
  | succ n ih =>
    have later : ∀ t : State, t.cpu.cs = s.cpu.cs → Held t (t.prefetch (off + 1#16) n) fun a =>
        ∃ j < n + 1, a = phys s.cpu.cs (off + BitVec.ofNat 16 j) := fun t cs =>
      (ih t (off + 1#16)).trans (.same rfl) (fun a ⟨j, hj, e⟩ =>
        ⟨j + 1, Nat.succ_lt_succ hj, by rw [e, cs, ofNat_succ]⟩) (fun _ e => e)
    unfold State.prefetch
    dsimp only
    split
    · exact later s rfl
    · rename_i room
      split
      · have here := (Held.same rfl : Held s s.bump fun _ => False).trans (takeAhead_held s.bump (phys s.cpu.cs off))
          (r := (· = phys s.cpu.cs off)) (fun _ h => h.elim) (fun _ e => e)
        have ahead := s.bump.takeAhead_spec (phys s.cpu.cs off)
        have above := State.takeAbove_spec (s.bump.takeAhead (phys s.cpu.cs off)) (phys s.cpu.cs off)
        have cs : ((s.bump.takeAhead (phys s.cpu.cs off)).takeAbove (phys s.cpu.cs off)).cpu.cs = s.cpu.cs :=
          (fetchedAhead_place (ahead.trans above)).1
        have plat : (s.bump.takeAhead (phys s.cpu.cs off)).plat = s.plat := plat_of_sameBeyondBus ahead.2.2
        refine (here.trans (takeAbove_held _ _) (r := fun a => ∃ j < n + 1, a = phys s.cpu.cs (off + BitVec.ofNat 16 j))
          (fun a e => ⟨0, Nat.succ_pos n, by rw [e, BitVec.add_zero]⟩) ?_).trans (later _ cs) (fun _ e => e) (fun _ e => e)
        rintro a ⟨rfl, word⟩
        have word : s.fetchesWord (phys s.cpu.cs off) = true := by
          rw [State.fetchesWord, plat] at word; exact word
        refine ⟨1, ?_, phys_above (fetchesWord_even word)⟩
        simp only [word, Bool.true_and, Bool.or_eq_true, beq_iff_eq, not_or] at room
        omega
      · exact .same rfl

/-- When an instruction starts, the queue holds of devices bytes that it held before and that are not the instruction's,
and bytes that follow the instruction (R130). -/
theorem begun_held {s u : State} {i : Instr} {n : Nat} (h : s.fetch86 = .ok (i, n, u)) :
    ∀ e ∈ (u.begun n).cpu.ahead, e ∈ s.cpu.ahead ∧ inQueue s.cpu.cs s.cpu.ip e.1 n = false ∨
      inQueue s.cpu.cs (s.cpu.ip + BitVec.ofNat 16 n) e.1 s.queueLen = true := by
  have fetched := (State.fetch86_spec h).1
  obtain ⟨cs, ip⟩ := fetchedAhead_place fetched
  have len : u.queueLen = s.queueLen := by
    have plat : u.plat = s.plat := plat_of_sameBeyondBus fetched.2.2
    rw [State.queueLen, State.queueLen, plat]
  have room : 2 ≤ s.queueLen := by unfold State.queueLen; split <;> norm_num
  intro e he
  rcases prefetch_held { u with cpu := u.cpu.dequeue n } (u.cpu.ip + BitVec.ofNat 16 n) u.queueLen e he with kept | new
  · simp only [Cpu.dequeue, List.mem_filter, Bool.not_eq_true', cs, ip] at kept
    obtain ⟨held, out⟩ := kept
    rcases fetch86_held h e held with old | ⟨j, hj, hn, at_j⟩
    · exact .inl ⟨old, out⟩
    · have past : n ≤ j := by
        by_contra lt
        exact absurd ((inQueue_iff _ _ _ _).mpr ⟨j, not_le.mp lt, at_j⟩) (by rw [out]; exact Bool.false_ne_true)
      refine .inr ((inQueue_iff _ _ _ _).mpr ⟨j - n, by omega, ?_⟩)
      rw [at_j, BitVec.add_assoc, BitVec.ofNat_add_ofNat, Nat.add_sub_cancel' past]
  · rw [← ip, ← cs, ← len]
    exact .inr ((inQueue_iff _ _ _ _).mpr new)

/-! ### One byte of a device -/

/-- A byte that the queue holds is not read again (R130). -/
theorem fetchByte_of_held {s : State} {e : Host.Cell} (h : s.cpu.ahead.find? (fun x => x.1 == e.1) = some e) :
    s.fetchByte e.1 = (e.2, s) := by
  have held : s.cpu.held e.1 = some e := h
  rw [State.fetchByte, held]

/-- A cycle that brings the byte of a device leaves it in the queue. -/
theorem takeAhead_holds {s : State} {a : Nat} {d : Dev} {k off : Nat}
    (dev : findRegion .ram a s.plat.memoryMap = (.device d k, off)) : ∃ b, (a, b) ∈ (s.takeAhead a).cpu.ahead := by
  unfold State.takeAhead
  rw [dev]
  cases held : s.cpu.held a with
  | none => exact ⟨_, List.mem_append_right _ (List.mem_singleton.mpr rfl)⟩
  | some e =>
    have here : e.1 = a := by simpa using List.find?_some held
    exact ⟨e.2, by rw [← here]; exact List.mem_of_find?_eq_some held⟩

theorem takeAbove_holds {s : State} {a : Nat} {d : Dev} {k off : Nat} (word : s.fetchesWord a = true)
    (dev : findRegion .ram (a + 1) s.plat.memoryMap = (.device d k, off)) :
    ∃ b, (a + 1, b) ∈ (s.takeAbove a).cpu.ahead := by
  unfold State.takeAbove
  rw [word, if_neg (by simp)]
  split
  · exact ⟨_, List.mem_append_right _ (List.mem_singleton.mpr rfl)⟩
  · exact takeAhead_holds dev

/-- With a byte at an even address the VM86 takes the one above it, of the same word (R112). -/
theorem fetchByte_takes_above {s : State} {a : Nat} {d : Dev} {k off : Nat} (vm86 : s.plat.vm88 = false)
    (even : a % 2 = 0) (dev : findRegion .ram (a + 1) s.plat.memoryMap = (.device d k, off))
    (absent : ∀ e ∈ s.cpu.ahead, e.1 ≠ a) : ∃ b, (a + 1, b) ∈ (s.fetchByte a).2.cpu.ahead := by
  have held : s.cpu.held a = none := List.find?_eq_none.mpr fun e he => by simpa using absent e he
  have plat : (s.codeByte a).2.plat = s.plat := plat_of_sameBeyondBus (s.codeByte_quiet a).2.2
  rw [State.fetchByte, held]
  refine takeAbove_holds ?_ (by rw [plat]; exact dev)
  rw [State.fetchesWord, plat, vm86, even]
  rfl

end Sys2Proof.Certificates.Queue

/-! SUPPORT. The VM87 beside the CPU (47_vm87_instructions.md R462): what taking an ESC adds, what one of its read cycles
brings, and what one of its write cycles stores. -/

namespace Sys2Proof.Certificates.Escape

open Sys2Proof.Machine

theorem plat_of_quiet {s t : State} (h : s.Quiet t) : t.plat = s.plat := by
  obtain ⟨_, _, _, _, _, _, plat, _⟩ := h
  exact plat

/-- What a read of the bus leaves beside the VM87. -/
theorem sameBesideFpu_of_quiet {s t : State} (h : s.Quiet t) : s.SameBesideFpu t := by
  obtain ⟨cpu, _, ⟨_, run⟩, iop, io, env, plat, devices⟩ := h
  exact ⟨by rw [cpu], run, iop, io, env, plat, devices⟩

/-- What any access of the bus leaves beside the VM87. -/
theorem sameBesideFpu_of_busy {s t : State} (h : s.Busy t) : s.SameBesideFpu t := by
  obtain ⟨cpu, ⟨_, run⟩, iop, io, env, plat, devices⟩ := h
  exact ⟨cpu, run, iop, io, env, plat, devices⟩

/-! ### Taking an ESC -/

theorem fpuIssue_refused {s : State} (i : Instr) {x second : Nat} {rm : RM} (busy : s.testLevel = true)
    (waits : escNoWait x second rm = false) : s.fpuIssue i x second rm = .refused .escWhileBusy := by
  unfold State.fpuIssue
  rw [busy, waits]
  rfl

theorem add_jobs (r : FpuRun) (drop : Bool) (j : FpuJob) :
    (r.add drop j).jobs = if drop then [j] else r.jobs ++ [j] := by
  cases drop <;> rfl

/-- The VM87 takes the instruction with the CPU as it stands, after those that it has taken, or FNINIT alone. -/
theorem fpuIssue_taken {s : State} (i : Instr) {x second : Nat} {rm : RM}
    (free : s.testLevel = false ∨ escNoWait x second rm = true) :
    ∃ t j, s.fpuIssue i x second rm = .next t ∧ j.instr = i ∧ j.cpu = s.cpu ∧ t.cpu = s.cpu ∧ t.fpu = s.fpu ∧
      t.mem = s.mem ∧ (t.run.jobs = s.run.jobs ++ [j] ∨ escInit x second = true ∧ t.run.jobs = [j]) := by
  have goes : (s.testLevel && !escNoWait x second rm) = false := by
    rcases free with h | h <;> rw [h]
    · rfl
    · exact Bool.and_false _
  cases rm with
  | reg r =>
    have taken : s.fpuIssue i x second (.reg r) =
        .next { s with run := s.run.add (escInit x second) { instr := i, cpu := s.cpu, got := [] } } := by
      unfold State.fpuIssue
      rw [goes]
      rfl
    refine ⟨_, { instr := i, cpu := s.cpu, got := [] }, taken, rfl, rfl, rfl, rfl, rfl, ?_⟩
    rw [add_jobs]
    cases escInit x second
    · exact .inl rfl
    · exact .inr ⟨rfl, rfl⟩
  | mem m =>
    obtain ⟨got, taken⟩ : ∃ got, s.fpuIssue i x second (.mem m) = .next { (s.readOp .word m).2 with
        run := (s.readOp .word m).2.run.add false { instr := i, cpu := s.cpu, got := got } } := by
      unfold State.fpuIssue
      rw [goes]
      exact ⟨_, rfl⟩
    obtain ⟨cpu, mem, ⟨fpu, run⟩, _⟩ := s.readOp_quiet .word m
    refine ⟨_, { instr := i, cpu := s.cpu, got := got }, taken, rfl, rfl, cpu, fpu, mem, .inl ?_⟩
    rw [add_jobs, run]
    rfl

/-! ### A read cycle -/

/-- The bytes that one read cycle brings: a word, or the last byte. -/
def cycleBytes (s : State) (a : Nat) (word : Bool) : List Byte :=
  let l := s.read8 (a % 2 ^ 20)
  if word then [l.1, (l.2.read8 ((a + 1) % 2 ^ 20)).1] else [l.1]

/-- The state after it. -/
def cycleState (s : State) (a : Nat) (word : Bool) : State :=
  let l := s.read8 (a % 2 ^ 20)
  if word then (l.2.read8 ((a + 1) % 2 ^ 20)).2 else l.2

theorem cycleState_quiet (s : State) (a : Nat) (word : Bool) : s.Quiet (cycleState s a word) := by
  have low := s.read8_quiet (a % 2 ^ 20)
  cases word
  · exact low
  · exact low.trans (State.read8_quiet _ _)

theorem cycleBytes_length (s : State) (a : Nat) (word : Bool) : (cycleBytes s a word).length = if word then 2 else 1 := by
  cases word <;> rfl

/-- Where a memory answers, the cycle brings the byte that stands there. -/
theorem cycleBytes_memory (s : State) (a : Nat) (word : Bool) {k : Nat} (h : k < (cycleBytes s a word).length)
    (m : s.isMemory ((a + k) % 2 ^ 20) = true) : (cycleBytes s a word).getD k 0#8 = s.byteAt ((a + k) % 2 ^ 20) := by
  have low := s.read8_quiet (a % 2 ^ 20)
  have first : s.isMemory (a % 2 ^ 20) = true → (s.read8 (a % 2 ^ 20)).1 = s.byteAt (a % 2 ^ 20) := fun h => by
    rw [s.read8_memory h]
  cases word with
  | false =>
    obtain rfl : k = 0 := by rw [cycleBytes_length] at h; simpa using h
    exact first m
  | true =>
    obtain rfl | rfl : k = 0 ∨ k = 1 := by rw [cycleBytes_length, if_pos rfl] at h; omega
    · exact first m
    · have here : (s.read8 (a % 2 ^ 20)).2.isMemory ((a + 1) % 2 ^ 20) = true := by
        rw [State.isMemory_congr (plat_of_quiet low)]; exact m
      refine (congrArg Prod.fst (State.read8_memory _ here)).trans (low.bytes _)

/-- A read cycle of the VM87 by the two functions above. -/
theorem fpuReadOn_eq (s : State) (j : FpuJob) (rest : List FpuJob) (m : MemOp) (need : Nat) :
    let a := phys (j.cpu.memSeg m) (j.cpu.ea m) + j.got.length
    let word := decide (j.got.length + 1 < need)
    s.fpuReadOn j rest m need = { cycleState s a word with
      run := { s.run with jobs := { j with got := j.got ++ cycleBytes s a word } :: rest } } := by
  dsimp only
  have run := (cycleState_quiet s (phys (j.cpu.memSeg m) (j.cpu.ea m) + j.got.length)
    (decide (j.got.length + 1 < need))).2.2.1.2
  rw [← run]
  unfold State.fpuReadOn
  by_cases more : j.got.length + 1 < need
  · simp only [List.length_append, List.length_singleton, more, if_true, decide_true, cycleState, cycleBytes,
      List.append_assoc, List.singleton_append]
  · simp only [List.length_append, List.length_singleton, more, if_false, decide_false, cycleState, cycleBytes,
      Bool.false_eq_true]

/-- The next bytes of the source operand come to those read; nothing else of the VM87 changes, nor any byte of memory. -/
theorem fpuReadOn_brings (s : State) (j : FpuJob) (rest : List FpuJob) (m : MemOp) {need : Nat}
    (h : j.got.length < need) :
    let a := phys (j.cpu.memSeg m) (j.cpu.ea m) + j.got.length
    let t := s.fpuReadOn j rest m need
    ∃ bs : List Byte, bs.length = min 2 (need - j.got.length) ∧
      (∀ k, k < bs.length → s.isMemory ((a + k) % 2 ^ 20) = true → bs.getD k 0#8 = s.byteAt ((a + k) % 2 ^ 20)) ∧
      t.run = { s.run with jobs := { j with got := j.got ++ bs } :: rest } ∧ t.fpu = s.fpu ∧ s.SameBytes t ∧
      s.SameBesideFpu { t with run := s.run } := by
  dsimp only
  rw [fpuReadOn_eq]
  generalize phys (j.cpu.memSeg m) (j.cpu.ea m) + j.got.length = a
  have quiet := cycleState_quiet s a (decide (j.got.length + 1 < need))
  obtain ⟨_, run, iop⟩ := sameBesideFpu_of_quiet quiet
  refine ⟨cycleBytes s a (decide (j.got.length + 1 < need)), ?_, fun k => cycleBytes_memory s a _, rfl,
    quiet.2.2.1.1, quiet.bytes, by rw [quiet.1], rfl, iop⟩
  rw [cycleBytes_length]
  split
  · rename_i more
    have := of_decide_eq_true more
    omega
  · rename_i last
    have : ¬j.got.length + 1 < need := fun c => last (decide_eq_true c)
    omega

/-! ### A write cycle -/

/-- Bytes written at their addresses, one after the other. -/
def written (s : State) : List Host.Cell → State
  | [] => s
  | c :: r => written (s.write8 (c.1 % 2 ^ 20) c.2) r

/-- A write cycle of the VM87 writes the first two queued bytes, or the last. -/
theorem fpuWriteOn_eq (s : State) :
    s.fpuWriteOn = written { s with run := { s.run with writes := s.run.writes.drop 2 } } (s.run.writes.take 2) := by
  unfold State.fpuWriteOn
  split
  · rename_i none
    rw [none]
    show s = { s with run := { s.run with writes := [] } }
    rw [← none]
  · rename_i one; rw [one]; rfl
  · rename_i two; rw [two]; rfl

theorem written_busy (s : State) (l : List Host.Cell) : s.Busy (written s l) := by
  induction l generalizing s with
  | nil => exact .refl s
  | cons c r ih => exact (s.write8_spec _ _).1.trans (ih _)

theorem isRam_write8 (s : State) (a b : Nat) (v : Byte) : (s.write8 a v).isRam b = s.isRam b := by
  obtain ⟨⟨_, _, _, _, _, plat, _⟩, _⟩ := s.write8_spec a v
  exact State.isRam_congr plat b

/-- A byte of memory after a write of one. -/
theorem byteAt_write8 (s : State) (a b : Nat) (v : Byte) :
    (s.write8 a v).byteAt b = if b = a ∧ s.isRam a = true then v else s.byteAt b := by
  rw [State.byteAt, (s.write8_spec a v).2]
  by_cases ram : s.isRam a = true
  · rw [if_pos ram, Memory.get_put]; simp only [ram, and_true]; rfl
  · rw [if_neg ram, if_neg (fun h => ram h.2)]; rfl

/-- A byte to which none of the addresses belongs stays. -/
theorem written_other (s : State) (l : List Host.Cell) {x : Nat} (h : ∀ c ∈ l, x ≠ c.1 % 2 ^ 20) :
    (written s l).byteAt x = s.byteAt x := by
  induction l generalizing s with
  | nil => rfl
  | cons c r ih =>
    obtain ⟨here, later⟩ := List.forall_mem_cons.mp h
    rw [written, ih _ later, byteAt_write8, if_neg (fun e => here e.1)]

/-- Where no RAM answers nothing is stored (R119). -/
theorem written_no_ram (s : State) (l : List Host.Cell) {x : Nat} (h : s.isRam x = false) :
    (written s l).byteAt x = s.byteAt x := by
  induction l generalizing s with
  | nil => rfl
  | cons c r ih =>
    rw [written, ih _ (by rw [isRam_write8]; exact h), byteAt_write8, if_neg]
    rintro ⟨rfl, ram⟩
    rw [h] at ram
    exact Bool.false_ne_true ram

/-- Where RAM answers a byte is stored, if no other one goes to the same address. -/
theorem written_ram (s : State) (l : List Host.Cell) {c : Host.Cell} (hc : c ∈ l)
    (ram : s.isRam (c.1 % 2 ^ 20) = true) (alone : ∀ d ∈ l, d.1 % 2 ^ 20 = c.1 % 2 ^ 20 → d = c) :
    (written s l).byteAt (c.1 % 2 ^ 20) = c.2 := by
  induction l generalizing s with
  | nil => exact absurd hc List.not_mem_nil
  | cons d r ih =>
    rw [written]
    by_cases again : c ∈ r
    · exact ih _ again (by rw [isRam_write8]; exact ram) fun e he => alone e (List.mem_cons_of_mem _ he)
    · obtain rfl : c = d := (List.mem_cons.mp hc).resolve_right again
      rw [written_other _ r fun e he same => again (alone e (List.mem_cons_of_mem _ he) same.symm ▸ he), byteAt_write8,
        if_pos ⟨rfl, ram⟩]

/-- The first two queued bytes are written and leave the queue; nothing else changes (R462). -/
theorem fpuWriteOn_writes (s : State) :
    let t := s.fpuWriteOn
    let now := s.run.writes.take 2
    t.run = { s.run with writes := s.run.writes.drop 2 } ∧ t.fpu = s.fpu ∧ s.SameBesideFpu { t with run := s.run } ∧
    (∀ x, (∀ c ∈ now, x ≠ c.1 % 2 ^ 20) → t.byteAt x = s.byteAt x) ∧
    ∀ c ∈ now, (s.isRam (c.1 % 2 ^ 20) = false → t.byteAt (c.1 % 2 ^ 20) = s.byteAt (c.1 % 2 ^ 20)) ∧
      (s.isRam (c.1 % 2 ^ 20) = true → (∀ d ∈ now, d.1 % 2 ^ 20 = c.1 % 2 ^ 20 → d = c) →
        t.byteAt (c.1 % 2 ^ 20) = c.2) := by
  dsimp only
  rw [fpuWriteOn_eq]
  generalize s.run.writes.take 2 = now
  have busy := written_busy { s with run := { s.run with writes := s.run.writes.drop 2 } } now
  obtain ⟨cpu, run, rest⟩ := sameBesideFpu_of_busy busy
  exact ⟨run, busy.2.1.1, ⟨cpu, rfl, rest⟩, fun x => written_other _ now,
    fun c hc => ⟨fun rom => written_no_ram _ now rom, fun ram => written_ram _ now hc ram⟩⟩

end Sys2Proof.Certificates.Escape

/-! SUPPORT and CERTIFICATE. One step of the machine: what each agent's turn is, and the state in which an instruction of
the VM89 starts. -/

namespace Sys2Proof.Certificates.Step

open Sys2Proof.Machine Sys2Proof.Certificates.Queue Sys2Proof.Certificates.Escape

/-- A step is a turn of the next agent and the end of the turn. -/
theorem step_of_agent {s : State} {a : Agent} (h : s.nextAgent.1 = a) :
    step s = onNext (agentTurn exec a s.nextAgent.2) s.turnDone := by
  rw [step, turn, h]

/-! ### A turn of the CPU (60_exceptions.md R811) -/

section Cpu

variable (run : Meaning) {s : State}

theorem cpuTurn_halted (halted : s.cpu.halted = true) : cpuTurn run s = .next s.haltedStep.endGrant := by
  rw [cpuTurn, if_pos halted]

theorem cpuTurn_element (halted : s.cpu.halted = false) {i : Instr} (phase : s.cpu.phase = .element i) :
    cpuTurn run s = onNext (run i s.again) State.cpuDone := by
  rw [cpuTurn, halted, if_neg Bool.false_ne_true, phase]

theorem cpuTurn_testing (halted : s.cpu.halted = false) (phase : s.cpu.phase = .testing) :
    cpuTurn run s = onNext (run .wait s.again) State.cpuDone := by
  rw [cpuTurn, halted, if_neg Bool.false_ne_true, phase]

/-- At an instruction boundary, and after a leading byte, the CPU fetches. -/
theorem cpuTurn_fetched (halted : s.cpu.halted = false) (phase : s.cpu.phase = .complete ∨ s.cpu.phase = .leading)
    {i : Instr} {n : Nat} {u : State} (fetch : s.fetch86 = .ok (i, n, u)) :
    cpuTurn run s = onNext (cpuInstruction run i (u.begun n)) State.cpuDone := by
  rw [cpuTurn, halted, if_neg Bool.false_ne_true]
  rcases phase with phase | phase <;> rw [phase] <;> dsimp only <;> rw [fetch]

/-- What is no ESC of a VM87 that works beside the CPU is executed. -/
theorem cpuInstruction_executed {i : Instr}
    (h : s.plat.hasVm87 = false ∨ s.plat.vm87Atomic = true ∨ escOf i = none) : cpuInstruction run i s = run i s := by
  unfold cpuInstruction
  split
  · rename_i beside
    simp only [Bool.and_eq_true, Bool.not_eq_true'] at beside
    rcases h with h | h | h
    · rw [h] at beside; exact absurd beside.1 Bool.false_ne_true
    · rw [h] at beside; exact absurd beside.2.symm Bool.false_ne_true
    · rw [h]
  · rfl

/-- An ESC of a VM87 that works beside the CPU is taken by it (47_vm87_instructions.md R462). -/
theorem cpuInstruction_issued {i : Instr} {x second : Nat} {rm : RM} (there : s.plat.hasVm87 = true)
    (beside : s.plat.vm87Atomic = false) (esc : escOf i = some (x, second, rm)) :
    cpuInstruction run i s = s.fpuIssue i x second rm := by
  rw [cpuInstruction, there, beside, esc]
  rfl

end Cpu

/-- The state in which an instruction of the CPU starts, from the one before its fetch. -/
theorem begun_of_fetch {s u : State} {i : Instr} {n : Nat} (fetch : s.fetch86 = .ok (i, n, u)) :
    (u.begun n).cpu = { s.cpu with ip := s.cpu.ip + BitVec.ofNat 16 n, instrAddr := s.cpu.ip,
                                   stepPending := s.cpu.f.tf, phase := .complete, ahead := (u.begun n).cpu.ahead } ∧
      (u.begun n).mem = s.mem ∧ (u.begun n).plat = s.plat := by
  obtain ⟨cpu, mem, beyond⟩ := (State.fetch86_spec fetch).1
  obtain ⟨cpu', mem', beyond'⟩ := u.begun_spec n
  refine ⟨?_, mem'.trans mem, (plat_of_sameBeyondBus beyond').trans (plat_of_sameBeyondBus beyond)⟩
  rw [cpu']
  rw [cpu]

/-! ### A turn of the VM87 (47_vm87_instructions.md R462) -/

section Fpu

variable (run : Meaning) {s : State} {j : FpuJob} {r : List FpuJob}

theorem fpuTurn_writes (h : s.run.writes ≠ []) : fpuTurn run s = .next s.fpuWriteOn := by
  unfold fpuTurn
  split
  · rfl
  · rename_i none _; exact absurd none h
  · rename_i none _; exact absurd none h

theorem fpuTurn_reads (writes : s.run.writes = []) (jobs : s.run.jobs = j :: r) {m : MemOp} {need : Nat}
    (source : j.source = some (m, need)) (more : j.got.length < need) :
    fpuTurn run s = .next (s.fpuReadOn j r m need) := by
  rw [fpuTurn, writes, jobs]
  dsimp only
  rw [source]
  exact if_pos more

/-- With its operand read, or without one, the instruction is executed. -/
theorem fpuTurn_executes (writes : s.run.writes = []) (jobs : s.run.jobs = j :: r)
    (ready : ∀ m need, j.source = some (m, need) → need ≤ j.got.length) :
    fpuTurn run s = onNext (run j.instr (s.fpuEnter j r)) fun t => t.fpuLeave s.cpu := by
  rw [fpuTurn, writes, jobs]
  dsimp only
  cases source : j.source with
  | none => rfl
  | some p => exact if_neg (Nat.not_lt.mpr (ready p.1 p.2 source))

end Fpu

/-! ### An instruction of the VM89 (48_vm89_iop.md R564, R596) -/

theorem iopTurn_program (run : Meaning) {s : State} (init : s.iop.initialised = true)
    (task : (s.iop.chan s.iop.nextChan).task = .program) {i : Instr} {n : Nat} {u : State}
    (fetch : s.fetch89 (s.iop.chan s.iop.nextChan) = .ok (i, n, u)) :
    iopTurn run s = onNext (run i (u.iopBegun s.iop.nextChan i n))
      fun v => v.iopAfter s.iop.nextChan (s.iop.chan s.iop.nextChan).armed := by
  rw [iopTurn, init, task]
  simp only [Bool.not_true, Bool.false_eq_true, if_false]
  rw [iopInstruction, fetch]

/-- Two channels that are the same but for a request by CA and the look-ahead byte. -/
theorem chan_core_eq {c d : IopChan} (h : c.core = d.core) : c = { d with ca := c.ca, look := c.look, kept := c.kept } := by
  obtain ⟨_⟩ := c; obtain ⟨_⟩ := d; simp [IopChan.core] at h ⊢; simp [h]

theorem chan_core {p q : Iop} (h : p.core = q.core) (n : ChanNo) : (p.chan n).core = (q.chan n).core := by
  cases n
  · exact congrArg Iop.ch1 h
  · exact congrArg Iop.ch2 h

theorem wide_core {p q : Iop} (h : p.core = q.core) (io : Bool) : p.wide io = q.wide io := by
  have sys : p.core.sysBus16 = q.core.sysBus16 := by rw [h]
  have own : p.core.ioBus16 = q.core.ioBus16 := by rw [h]
  cases io
  · exact sys
  · exact own

/-- Keeping the byte after an instruction changes no register and no memory. -/
theorem iopKeep_leaves (s : State) (n : ChanNo) : (s.iopKeep n).iop.core = s.iop.core ∧ (s.iopKeep n).mem = s.mem := by
  unfold State.iopKeep
  dsimp only
  split
  · obtain ⟨_, mem, _, iop, _⟩ := s.iopRead8_quiet (s.iop.chan n).tagTp (s.iop.chan n).tp.toNat
    refine ⟨Eq.trans ?_ iop, mem⟩
    cases n <;> rfl
  · exact ⟨rfl, rfl⟩

theorem iopTake_ch (s : State) (n : ChanNo) (i : Instr) (k : Nat) :
    (s.iopTake n i k).ch = { s.iop.chan n with
      tp := (s.iop.chan n).tp + BitVec.ofNat 20 k, look := [], kept := none,
      queued := s.iop.keepsByte { s.iop.chan n with tp := (s.iop.chan n).tp + BitVec.ofNat 20 k } i } := by
  cases n <;> rfl

/-- The channel that starts an instruction: TP points past it, and the queue keeps a byte as R564 says. -/
theorem iopBegun_ch {p : Iop} {u : State} (h : u.iop.core = p.core) (n : ChanNo) (i : Instr) (k : Nat) :
    (u.iopBegun n i k).ch.core = { p.chan n with
      tp := (p.chan n).tp + BitVec.ofNat 20 k, ca := false, look := [], kept := none,
      queued := decide (((p.chan n).tp + BitVec.ofNat 20 k).toNat % 2 = 1) &&
        (if (p.chan n).tagTp = true then p.ioBus16 else p.sysBus16) && !isLpdi i } := by
  have keep := (iopKeep_leaves (u.iopTake n i k) n).1
  have cur : (u.iopBegun n i k).iop.cur = (u.iopTake n i k).iop.cur := by
    have := congrArg Iop.cur keep
    exact this
  have start : (u.iopBegun n i k).ch.core = (u.iopTake n i k).ch.core := by
    rw [State.ch, cur]
    exact chan_core keep _
  have wide : p.wide (p.chan n).tagTp = if (p.chan n).tagTp = true then p.ioBus16 else p.sysBus16 := rfl
  rw [start, iopTake_ch, Iop.keepsByte, chan_core_eq (chan_core h n), wide_core h, wide]
  rfl

/-! ### The end of a turn -/

theorem dmac_watchNmi (s t : State) (k : Nat) : (s.watchNmi t).dmac k = t.dmac k := by
  unfold State.watchNmi
  split
  · split
    · cases k <;> rfl
    · rfl
  · rfl

/-- The VT37s look at their requests, which changes DREQ and the channel chosen alone. -/
theorem turnDone_dmac (s t : State) (k : Nat) : ∃ c q, (s.turnDone t).dmac k = { t.dmac k with chosen := c, dreq := q } := by
  obtain ⟨c, q, looked⟩ := (s.watchNmi t).looked_settleDma k
  rw [dmac_watchNmi] at looked
  exact ⟨c, q, looked⟩

/-! ### The steps, agent by agent -/

/-- The step of the CPU, in each of the phases in which it finds itself. -/
theorem step_cpu (s : State) (i : Instr) (n : Nat) (cpu : s.nextAgent.1 = .cpu) :
    let t := s.nextAgent.2
    (∀ u, t.cpu.halted = false → (t.cpu.phase = .complete ∨ t.cpu.phase = .leading) → t.fetch86 = .ok (i, n, u) →
      (t.plat.hasVm87 = false ∨ t.plat.vm87Atomic = true ∨ escOf i = none →
        step s = onNext (onNext (exec i (u.begun n)) State.cpuDone) s.turnDone) ∧
      (∀ x second rm, t.plat.hasVm87 = true → t.plat.vm87Atomic = false → escOf i = some (x, second, rm) →
        step s = onNext (onNext ((u.begun n).fpuIssue i x second rm) State.cpuDone) s.turnDone)) ∧
    (t.cpu.halted = false → t.cpu.phase = .element i →
      step s = onNext (onNext (exec i t.again) State.cpuDone) s.turnDone) ∧
    (t.cpu.halted = false → t.cpu.phase = .testing →
      step s = onNext (onNext (exec .wait t.again) State.cpuDone) s.turnDone) ∧
    (t.cpu.halted = true → step s = .next (s.turnDone t.haltedStep.endGrant)) := by
  dsimp only
  rw [step_of_agent cpu, agentTurn]
  refine ⟨fun u running phase fetch => ?_, fun running phase => ?_, fun running phase => ?_, fun halted => ?_⟩
  · obtain ⟨_, _, plat⟩ := begun_of_fetch fetch
    rw [cpuTurn_fetched exec running phase fetch]
    rw [← plat]
    exact ⟨fun h => by rw [cpuInstruction_executed exec h],
      fun x second rm there beside esc => by rw [cpuInstruction_issued exec there beside esc]⟩
  · rw [cpuTurn_element exec running phase]
  · rw [cpuTurn_testing exec running phase]
  · rw [cpuTurn_halted exec halted]
    rfl

/-- Settles O31: each clause is the turn of an agent, or one of the lemmas on the queue, the VM87 or the VM89. -/
theorem stepRunsTheDecodedInstruction : Obligations.StepRunsTheDecodedInstruction := by
  refine ⟨fun s i n cpu => ?_, fun s e d k off _ held => fetchByte_of_held held,
    fun s a d k off vm86 even dev absent => fetchByte_takes_above vm86 even dev absent, fun s => rfl,
    fun s t => ⟨rfl, turnDone_dmac s t⟩,
    fun s i x second rm _ => ⟨fpuIssue_refused i, fpuIssue_taken i⟩, fun s j r fpu => ?_, fun s j r m need fpu => ?_,
    fun s j r m need more => fpuReadOn_brings s j r m more, fun s fpu writes => ?_, fpuWriteOn_writes,
    fun s i n u iop => ?_⟩
  · obtain ⟨fetched, element, testing, halted⟩ := step_cpu s i n cpu
    refine ⟨fun u running phase fetch => ?_, element, testing, halted⟩
    obtain ⟨cpuFetch, memFetch, beyond⟩ := (State.fetch86_spec fetch).1
    obtain ⟨cpuBegun, memBegun, _⟩ := begun_of_fetch fetch
    exact ⟨cpuFetch, memFetch, beyond, cpuBegun, begun_held fetch, memBegun, fetched u running phase fetch⟩
  · intro t writes jobs ready
    rw [step_of_agent fpu, agentTurn, fpuTurn_executes exec writes jobs ready]
    rfl
  · intro t writes jobs source more
    rw [step_of_agent fpu, agentTurn, fpuTurn_reads exec writes jobs source more]
    rfl
  · rw [step_of_agent fpu, agentTurn, fpuTurn_writes exec writes]
    rfl
  · intro t ch c init task fetch
    obtain ⟨cpu, mem, beyond⟩ := (State.fetch89_spec fetch).1
    have ⟨_, core, _⟩ := beyond
    refine ⟨cpu, mem, beyond, ?_, iopBegun_ch core ch i n, (iopKeep_leaves _ ch).2.trans mem⟩
    rw [step_of_agent iop, agentTurn, iopTurn_program exec init task fetch]

end Sys2Proof.Certificates.Step

/-! SUPPORT and CERTIFICATES. What one step can do to the memories: every operation of every agent leaves the platform,
keeps the canonical form and stores where RAM answers alone. -/

namespace Sys2Proof.Certificates.Storage

open Sys2Proof.Machine

/-- From `s` to `t` bytes are stored where RAM answers alone (20_memory.md R119), in the canonical form of the memories
(log 1), and the platform is the same. -/
structure InRam (s t : State) : Prop where
  plat : t.plat = s.plat
  wf : s.MemoryWf → t.MemoryWf
  system : ∀ a, s.isRam a = false → t.byteAt a = s.byteAt a
  io : ∀ x, (findRegion .absent x s.plat.ioMap).1 ≠ .ram → t.iomem.get x = s.iomem.get x
  remote : ∀ x, (findRegion .ram x s.plat.remoteMap).1 ≠ .ram → t.remote.get x = s.remote.get x

/-- The same of an answer, where it is a next state. -/
def Answers (s : State) : Result → Prop
  | .next t => InRam s t
  | .fault _ => True
  | .refused _ => True

namespace InRam

variable {s t u : State}

theorem refl (s : State) : InRam s s := ⟨rfl, id, fun _ _ => rfl, fun _ _ => rfl, fun _ _ => rfl⟩

theorem trans (h : InRam s t) (g : InRam t u) : InRam s u where
  plat := g.plat.trans h.plat
  wf := g.wf ∘ h.wf
  system a ram := (g.system a (by rwa [State.isRam_congr h.plat])).trans (h.system a ram)
  io x ram := (g.io x (by rwa [h.plat])).trans (h.io x ram)
  remote x ram := (g.remote x (by rwa [h.plat])).trans (h.remote x ram)

/-! ### From the laws of the operations -/

/-- No byte of the three spaces is stored. -/
theorem unchanged (h : InRam s t) (mem : u.mem = t.mem) (io : t.SameIo u) (plat : u.plat = t.plat)
    (wf : t.MemoryWf → u.MemoryWf) : InRam s u :=
  h.trans ⟨plat, wf, fun a _ => by rw [State.byteAt, mem, State.byteAt], fun _ _ => by rw [io.1],
    fun _ _ => by rw [io.2]⟩

/-- The memories and the platform are the same. -/
theorem same (h : InRam s t)
    (e : (u.mem, u.iomem, u.remote, u.ru55.ram, u.plat) = (t.mem, t.iomem, t.remote, t.ru55.ram, t.plat)) :
    InRam s u := by
  simp only [Prod.mk.injEq] at e
  obtain ⟨mem, io, remote, ram, plat⟩ := e
  exact h.unchanged mem ⟨io, remote⟩ plat fun wf => wf.congr mem ⟨io, remote⟩ ram

theorem beyond (h : InRam s t) (mem : u.mem = t.mem) (b : t.SameBeyondBus u) (wf : t.MemoryWf → u.MemoryWf) :
    InRam s u := by
  obtain ⟨_, _, io, _, plat, _⟩ := b
  exact h.unchanged mem io plat wf

/-- Cycles that read. -/
theorem quiet (h : InRam s t) (q : t.Quiet u) (wf : t.MemoryWf → u.MemoryWf) : InRam s u :=
  h.beyond q.2.1 q.2.2 wf

/-- A store of `n` bytes in system memory. -/
theorem stored {n v : Nat} {f : Nat → Nat} (h : InRam s t) (st : t.StoredAt u n f v) (b : t.SameBeyondBus u)
    (wf : t.MemoryWf → u.MemoryWf) : InRam s u := by
  obtain ⟨others, _, noRam⟩ := st
  obtain ⟨_, _, io, _, plat, _⟩ := b
  refine h.trans ⟨plat, wf, fun a ram => ?_, fun _ _ => by rw [io.1], fun _ _ => by rw [io.2]⟩
  by_cases named : ∃ k, k < n ∧ a = f k
  · obtain ⟨k, hk, rfl⟩ := named
    exact noRam k hk ram
  · exact others a fun k hk e => named ⟨k, hk, e⟩

/-- A cell of the VM89's spaces where no RAM answers keeps its byte under a store. -/
theorem cellByte_of_stored {io io' : Bool} {n a v x : Nat} (st : t.CellsStored u io n a v)
    (ram : t.cellKind io' x ≠ .ram) :
    u.cellByte io' x = t.cellByte io' x := by
  obtain ⟨others, named⟩ := st
  by_cases c : io' = io ∧ ∃ k, k < n ∧ x = iopCell io (a + k)
  · obtain ⟨rfl, k, hk, rfl⟩ := c
    rw [named k hk, if_neg ram]
  · exact others io' x fun e k hk e' => c ⟨e, k, hk, e'⟩

/-- A store of `n` bytes in a space of the VM89. -/
theorem cells {io : Bool} {n a v : Nat} (h : InRam s t) (c : t.Calm u) (st : t.CellsStored u io n a v)
    (wf : t.MemoryWf → u.MemoryWf) : InRam s u := by
  obtain ⟨_, _, _, far, _, plat, _⟩ := c
  have near := fun x => cellByte_of_stored (io' := true) (x := x) st
  simp only [State.cellByte, State.cellKind, State.iopIo, State.farIo, plat, if_true] at near far
  refine h.trans ⟨plat, wf, fun a ram => ?_, fun x ram => ?_, fun x ram => ?_⟩
  · exact cellByte_of_stored (io' := false) st (by simpa [State.isRam, State.cellKind] using ram)
  all_goals
    cases own : t.plat.iopRemote
    all_goals simp only [own, if_true, Bool.false_eq_true, if_false] at near far
  · exact near x ram
  · rw [far]
  · rw [far]
  · exact near x ram

/-! ### One byte -/

theorem devRead (h : InRam s t) (d : Dev) (r : Nat) : InRam s (t.devRead d r).2 := by
  obtain ⟨_, mem, _, _, io, _, plat⟩ := t.devRead_spec d r
  exact h.unchanged mem io plat (State.devRead_wf d r)

theorem devWrite (h : InRam s t) (d : Dev) (r : Nat) (v : Byte) : InRam s (t.devWrite d r v) := by
  obtain ⟨_, mem, _, _, io, _, plat⟩ := t.devWrite_spec d r v
  exact h.unchanged mem io plat (State.devWrite_wf d r v)

theorem read8 (h : InRam s t) (a : Nat) : InRam s (t.read8 a).2 := h.quiet (t.read8_quiet a) (State.read8_wf a)

theorem write8 (h : InRam s t) {a : Nat} (v : Byte) (ha : a < 2 ^ 20) : InRam s (t.write8 a v) := by
  obtain ⟨⟨_, beyond⟩, mem⟩ := t.write8_spec a v
  exact h.stored (.of_mem mem) beyond fun wf => State.write8_wf v wf ha

/-- A byte stored where an address is taken modulo 2^20. -/
theorem write8_mod (h : InRam s t) (a : Nat) (v : Byte) : InRam s (t.write8 (a % 2 ^ 20) v) :=
  h.write8 v (Nat.mod_lt a (by norm_num))

theorem in8 (h : InRam s t) (direct : Bool) (p : Word) : InRam s (t.in8 direct p).2 :=
  h.quiet (t.in8_quiet direct p) (State.in8_wf direct p)

theorem out8 (h : InRam s t) (direct : Bool) (p : Word) (v : Byte) : InRam s (t.out8 direct p v) := by
  obtain ⟨⟨_, mem, _, _, same, _, plat, _⟩, io⟩ := t.out8_spec direct p v
  refine h.trans ⟨plat, State.out8_wf direct p v, fun a _ => by rw [State.byteAt, mem, State.byteAt], fun x noRam => ?_,
    fun _ _ => congrArg (Memory.get · _) same.2⟩
  by_cases there : x = p.toNat
  · rw [io, if_neg fun ram => noRam (there ▸ State.portPlace_ram ram)]
  · exact t.out8_same direct p v there

/-! ### The CPU's accesses -/

theorem readMem (h : InRam s t) (w : Width) (seg off : Word) : InRam s (t.readMem w seg off).2 :=
  h.quiet (t.readMem_quiet w seg off) (State.readMem_wf w seg off)

theorem readRm (h : InRam s t) (w : Width) (rm : RM) : InRam s (t.readRm w rm).2 :=
  h.quiet (t.readRm_quiet w rm) (State.readRm_wf w rm)

theorem readOp (h : InRam s t) (w : Width) (m : MemOp) : InRam s (t.readOp w m).2 := h.readMem w _ _

theorem readFar (h : InRam s t) (m : MemOp) : InRam s (t.readFar m).2 := (h.readMem .word _ _).readMem .word _ _

theorem writeMem (h : InRam s t) (w : Width) (seg off v : Word) : InRam s (t.writeMem w seg off v) := by
  obtain ⟨⟨_, beyond⟩, stored⟩ := t.writeMem_spec w seg off v
  exact h.stored stored beyond (State.writeMem_wf w seg off v)

theorem setReg (h : InRam s t) (w : Width) (r : GReg) (v : Word) : InRam s (t.setReg w r v) := h.same rfl

theorem writeRm (h : InRam s t) (c : Cpu) (w : Width) (rm : RM) (v : Word) : InRam s (t.writeRm c w rm v) := by
  cases rm with
  | reg r => exact h.setReg w r v
  | mem m => exact h.writeMem w _ _ v

theorem ioRead (h : InRam s t) (direct : Bool) (w : Width) (p : Word) : InRam s (t.ioRead direct w p).2 :=
  h.quiet (t.ioRead_quiet direct w p) (State.ioRead_wf direct w p)

theorem ioWrite (h : InRam s t) (direct : Bool) (w : Width) (p v : Word) : InRam s (t.ioWrite direct w p v) := by
  have low := h.out8 direct p (lowByte v)
  cases w with
  | byte => exact low
  | word =>
    unfold State.ioWrite
    dsimp only
    split
    · exact low
    · exact low.out8 direct _ _

theorem push16 (h : InRam s t) (v : Word) : InRam s (t.push16 v) := by
  obtain ⟨_, stored, beyond⟩ := t.push16_spec v
  exact h.stored stored beyond (State.push16_wf v)

theorem pop16 (h : InRam s t) : InRam s (t.pop16).2 := by
  obtain ⟨_, mem, beyond⟩ := t.pop16_spec
  exact h.beyond mem beyond State.pop16_wf

theorem interrupt (h : InRam s t) (n : Byte) : InRam s (t.interrupt n) := by
  obtain ⟨_, _, stored, _, _, _, beyond⟩ := t.interrupt_spec n
  exact h.stored stored beyond (State.interrupt_wf n)

theorem interruptReturn (h : InRam s t) : InRam s t.interruptReturn := h.pop16.pop16.pop16.same rfl

/-! ### The coprocessor's accesses -/

theorem fpuBytes (h : InRam s t) (a n : Nat) : InRam s (t.fpuBytes a n).2 := by
  induction n generalizing t a with
  | zero => exact h
  | succ n ih => exact ih (h.read8 _) (a + 1)

theorem fpuSource (h : InRam s t) (m : MemOp) (n : Nat) : InRam s (t.fpuSource m n).2 := by
  have word := h.readOp .word m
  unfold State.fpuSource
  dsimp only
  split
  · exact h
  · split
    · exact word.fpuBytes _ _
    · exact word.fpuBytes _ _

theorem escRead (h : InRam s t) (m : MemOp) : InRam s (t.escRead m) := by
  unfold State.escRead
  split
  · exact h
  · exact h.readOp .word m

theorem fpuStoreBytes (h : InRam s t) (a v n : Nat) : InRam s (t.fpuStoreBytes a v n) := by
  induction n generalizing t a v with
  | zero => exact h
  | succ n ih => exact ih (h.write8_mod a _) (a + 1) (v / 256)

theorem fpuWrite (h : InRam s t) (a v n : Nat) : InRam s (t.fpuWrite a v n) := by
  unfold State.fpuWrite
  split
  · exact h.same rfl
  · exact h.fpuStoreBytes a v n

/-! ### The VM89's accesses -/

theorem iopRead8 (h : InRam s t) (io : Bool) (a : Nat) : InRam s (t.iopRead8 io a).2 :=
  h.quiet (t.iopRead8_quiet io a) (State.iopRead8_wf io a)

theorem iopRead16 (h : InRam s t) (io : Bool) (a : Nat) : InRam s (t.iopRead16 io a).2 :=
  h.quiet (t.iopRead16_quiet io a) (State.iopRead16_wf io a)

theorem iopPointer (h : InRam s t) (io : Bool) (a : Nat) : InRam s (t.iopPointer io a).2 :=
  h.quiet (t.iopPointer_quiet io a) (State.iopPointer_wf io a)

theorem iopLoadPtr (h : InRam s t) (io : Bool) (a : Nat) : InRam s (t.iopLoadPtr io a).2 :=
  h.quiet (t.iopLoadPtr_quiet io a) (State.iopLoadPtr_wf io a)

theorem withIop (h : InRam s t) (p : Iop) : InRam s { t with iop := p } := h.same rfl

theorem setCh (h : InRam s t) (c : IopChan) : InRam s (t.setCh c) := h.same rfl

theorem iopLoad (h : InRam s t) (w : Width) (m : IMem) : InRam s (t.iopLoad w m).2 :=
  (h.quiet (t.iopLoad_quiet w m) (State.iopReadW_wf w _ _)).same rfl

theorem iopWrite8 (h : InRam s t) (io : Bool) (a : Nat) (v : Byte) : InRam s (t.iopWrite8 io a v) := by
  obtain ⟨calm, stored⟩ := t.iopWrite8_spec io a v
  exact h.cells calm stored (State.iopWrite8_wf io a v)

theorem iopWriteW (h : InRam s t) (w : Width) (io : Bool) (a : Nat) (v : Word) : InRam s (t.iopWriteW w io a v) := by
  obtain ⟨calm, stored⟩ := t.iopWriteW_spec w io a v
  exact h.cells calm stored (State.iopWriteW_wf w io a v)

theorem iopSavePtr (h : InRam s t) (io : Bool) (a : Nat) (p : Addr20) (tag : Bool) :
    InRam s (t.iopSavePtr io a p tag) := by
  obtain ⟨calm, stored⟩ := t.iopSavePtr_spec io a p tag
  exact h.cells calm stored (State.iopSavePtr_wf io a p tag)

theorem iopStore (h : InRam s t) (w : Width) (m : IMem) (v : Word) : InRam s (t.iopStore w m v) :=
  (h.iopWriteW w _ _ v).same rfl

theorem iopModify (h : InRam s t) (w : Width) (m : IMem) (g : Word → Word) : InRam s (t.iopModify w m g) :=
  ((h.quiet (t.iopLoad_quiet w m) (State.iopReadW_wf w _ _)).iopWriteW w _ _ _).same rfl

theorem iopLogic (h : InRam s t) (r : IReg) (v : Word) : InRam s (t.iopLogic r v) := by
  unfold State.iopLogic
  split <;> exact h.same rfl

theorem iopJumpIf (h : InRam s t) (b : Bool) (d : Addr20) : InRam s (t.iopJumpIf b d) := by
  cases b
  · exact h
  · exact h.same rfl

end InRam

/-! ### Answers -/

namespace Answers

variable {s t u : State} {r : Result}

theorem trans (h : InRam s t) (g : Answers t r) : Answers s r := by
  cases r with
  | next u => exact h.trans g
  | fault e => trivial
  | refused e => trivial

theorem onNext (h : Answers s r) {f : State → State} (hf : ∀ t, InRam s t → InRam s (f t)) :
    Answers s (Machine.onNext r f) := by
  cases r with
  | next t => exact hf t h
  | fault e => trivial
  | refused e => trivial

theorem ite {c : Prop} [Decidable c] {x y : Result} (h : Answers s x) (g : Answers s y) :
    Answers s (if c then x else y) := by
  split
  · exact h
  · exact g

/-- An operand or a state that the machine refuses, or a next state. -/
theorem orRefused {c : Prop} [Decidable c] {e : Refusal} (h : InRam s t) :
    Answers s (if c then .refused e else .next t) := ite trivial h

/-- Two next states of which a condition selects one. -/
theorem either {c : Prop} [Decidable c] (h : InRam s t) (g : InRam s u) : Answers s (.next (if c then t else u)) := by
  split
  · exact h
  · exact g

end Answers

/-! ### Instructions of the VM86: arithmetic and logic -/

theorem aluFlags_inRam {s t : State} (h : InRam s t) (op : AluOp) (w : Width) (a b : Word) :
    InRam s (t.aluFlags op w a b) := by
  cases op <;> exact h.same rfl

theorem aluToRm_answers (op : AluOp) (w : Width) (rm : RM) (b : Word) (s : State) : Answers s (aluToRm op w rm b s) :=
  have flags := aluFlags_inRam ((InRam.refl s).readRm w rm) op w (s.readRm w rm).1 b
  .either (flags.writeRm s.cpu w rm _) flags

theorem aluRmReg_answers (op : AluOp) (d : Dir) (w : Width) (r : GReg) (rm : RM) (s : State) :
    Answers s (aluRmReg op d w r rm s) := by
  cases d with
  | toRm => exact aluToRm_answers op w rm _ s
  | toReg =>
    have flags := aluFlags_inRam ((InRam.refl s).readRm w rm) op w (s.reg w r) (s.readRm w rm).1
    exact .either (flags.same (by rfl)) flags

/-- An operand read, the flags set and the operand written. -/
theorem readModifyWrite_inRam (s : State) (f : Flags) (w : Width) (rm : RM) (v : Word) :
    InRam s (((s.readRm w rm).2.setFlags f).writeRm s.cpu w rm v) :=
  .writeRm (.same ((InRam.refl s).readRm w rm) (by rfl)) s.cpu w rm v

theorem shiftOp_answers (k : ShiftKind) (c : ShiftCount) (w : Width) (rm : RM) (s : State) :
    Answers s (shiftOp k c w rm s) :=
  have read := (InRam.refl s).readRm w rm
  .ite (read.writeRm s.cpu w rm _) (.writeRm (.same read (by rfl)) s.cpu w rm _)

theorem divideError_inRam {s t : State} (h : InRam s t) (w : Width) : InRam s (t.divideError w) :=
  .interrupt (.same h (by rfl)) 0#8

theorem divide_answers {s t : State} {c : Prop} [Decidable c] (h : InRam s t) (w : Width) (q r : Word) :
    Answers s (if c then .next (t.divideError w) else .next (t.quotient w q r)) :=
  .ite (divideError_inRam h w) (h.same (by rfl))

theorem asciiAdjust_answers (al6 ah1 : Nat) (s : State) : Answers s (asciiAdjust s al6 ah1) := by
  unfold asciiAdjust
  dsimp only
  split <;> exact (InRam.refl s).same rfl

theorem asciiFlags_inRam {s t : State} (h : InRam s t) (al : Nat) : InRam s (t.asciiFlags al) := h.same rfl

/-! ### Instructions of the VM86: control transfer and strings -/

theorem branch_answers (taken : Bool) (rel : Byte) {s t : State} (h : InRam s t) : Answers s (branch taken rel t) :=
  .either (h.same (by rfl)) h

theorem repeated_answers {elem : State → State} (i : Instr) (compares : Bool) (s : State) (h : InRam s (elem s)) :
    Answers s (repeated i compares elem s) := by
  unfold repeated
  split
  · exact h
  · exact .ite (.refl s) (.ite (h.same (by rfl)) (h.same (by rfl)))

theorem movsElem_inRam (w : Width) (s : State) : InRam s (movsElem w s) :=
  (((InRam.refl s).readMem w _ _).writeMem w _ _ _).same rfl

theorem cmpsElem_inRam (w : Width) (s : State) : InRam s (cmpsElem w s) :=
  (((InRam.refl s).readMem w _ _).readMem w _ _).same rfl

theorem scasElem_inRam (w : Width) (s : State) : InRam s (scasElem w s) := ((InRam.refl s).readMem w _ _).same rfl

theorem lodsElem_inRam (w : Width) (s : State) : InRam s (lodsElem w s) := ((InRam.refl s).readMem w _ _).same rfl

theorem stosElem_inRam (w : Width) (s : State) : InRam s (stosElem w s) := ((InRam.refl s).writeMem w _ _ _).same rfl

/-! ### Instructions of the VM87 -/

theorem escReg_answers {n : Bool} {x second : Nat} {s : State} {k : State → Result}
    (hk : ∀ t, InRam s t → Answers s (k t)) : Answers s (escReg n x second s k) :=
  .ite (.refl s) (.ite trivial (hk _ ((InRam.refl s).same (by rfl))))

theorem escSrc_answers {x y n : Nat} {m : MemOp} {s : State} {k : Nat → State → Result}
    (hk : ∀ v t, InRam s t → Answers s (k v t)) : Answers s (escSrc x y n m s k) :=
  .ite ((InRam.refl s).readOp .word m) (.ite trivial (hk _ _ (((InRam.refl s).fpuSource m n).same (by rfl))))

theorem escDst_answers {n : Bool} {x y : Nat} {m : MemOp} {s : State} {k : Nat → State → Result}
    (hk : ∀ a t, InRam s t → Answers s (k a t)) : Answers s (escDst n x y m s k) :=
  .ite ((InRam.refl s).readOp .word m) (.ite trivial (hk _ _ (((InRam.refl s).escRead m).same (by rfl))))

theorem escEnv_answers {n : Bool} {m : MemOp} {s : State} {k : State → Result}
    (hk : ∀ t, InRam s t → Answers s (k t)) : Answers s (escEnv n m s k) :=
  .ite ((InRam.refl s).readOp .word m) (.ite trivial (hk _ ((InRam.refl s).escRead m)))

section Families

variable {s t : State}

theorem fpuDyadic_answers (h : InRam s t) (g : Machine.Dyadic) (a b : Opnd) (d : Bool) (dst : BitVec 3) (pops : Nat) :
    Answers s (fpuDyadic g a b d dst pops t) := .orRefused (h.same (by rfl))

theorem fpuMemArith_answers (x y : Nat) (k : FSrc) (g : Machine.Dyadic) (rev : Bool) (m : MemOp) (s : State) :
    Answers s (fpuMemArith x y k g rev m s) :=
  escSrc_answers fun _ _ h => .ite (fpuDyadic_answers h ..) (fpuDyadic_answers h ..)

theorem fpuTopArith_answers (x second : Nat) (g : Machine.Dyadic) (rev : Bool) (i : BitVec 3) (s : State) :
    Answers s (fpuTopArith x second g rev i s) :=
  escReg_answers fun _ h => .ite (fpuDyadic_answers h ..) (fpuDyadic_answers h ..)

theorem fpuStiArith_answers (x second : Nat) (g : Machine.Dyadic) (rev : Bool) (pops : Nat) (i : BitVec 3) (s : State) :
    Answers s (fpuStiArith x second g rev pops i s) :=
  escReg_answers fun _ h => .ite (fpuDyadic_answers h ..) (fpuDyadic_answers h ..)

theorem fpuCompareWith_answers (h : InRam s t) (b : Opnd) (pops : Nat) : Answers s (fpuCompareWith b pops t) :=
  .orRefused (h.same (by rfl))

theorem fpuMemCompare_answers (x y : Nat) (k : FSrc) (pops : Nat) (m : MemOp) (s : State) :
    Answers s (fpuMemCompare x y k pops m s) := escSrc_answers fun _ _ h => fpuCompareWith_answers h ..

theorem fpuStiCompare_answers (x second pops : Nat) (i : BitVec 3) (s : State) :
    Answers s (fpuStiCompare x second pops i s) := escReg_answers fun _ h => fpuCompareWith_answers h ..

theorem fpuMemLoad_answers (x y : Nat) (k : FSrc) (m : MemOp) (s : State) : Answers s (fpuMemLoad x y k m s) :=
  escSrc_answers fun _ _ h => h.same rfl

theorem fpuConst_answers (second : Nat) (v : Ext80) (s : State) : Answers s (fpuConst second v s) :=
  escReg_answers fun _ h => h.same rfl

theorem fpuMonadic_answers (second : Nat) (g : FCtl → Opnd → FRes) (s : State) : Answers s (fpuMonadic second g s) :=
  escReg_answers fun _ h => .orRefused (h.same (by rfl))

theorem fpuSign_answers (second : Nat) (g : Bool → Bool) (s : State) : Answers s (fpuSign second g s) :=
  escReg_answers fun _ h => .orRefused (h.same (by rfl))

theorem fpuFinishStore_inRam (h : InRam s t) (r : SRes) (a n pops : Nat) : InRam s (t.fpuFinishStore r a n pops) := by
  unfold State.fpuFinishStore
  dsimp only
  split
  · split
    · exact .fpuWrite (.same h (by rfl)) a r.val n
    · exact h.same rfl
  · split
    · exact h.same rfl
    · exact .fpuWrite (.same h (by rfl)) a r.val n

theorem fpuStore_answers (x y n : Nat) (raw : Bool) (conv : FCtl → Ext80 → SRes) (pops : Nat) (m : MemOp) (s : State) :
    Answers s (fpuStore x y n raw conv pops m s) :=
  escDst_answers fun _ _ h => .orRefused (fpuFinishStore_inRam (h.same (by rfl)) ..)

theorem fpuStoreSti_answers (second pops : Nat) (i : BitVec 3) (s : State) :
    Answers s (fpuStoreSti second pops i s) := escReg_answers fun _ h => .ite (h.same (by rfl)) (h.same (by rfl))

theorem execFxam_answers (s : State) : Answers s (execFxam s) := by
  refine escReg_answers fun t h => .ite (h.same (by rfl)) ?_
  split
  case h_8 => trivial
  all_goals exact h.same rfl

end Families

theorem execEsc_answers (x y : BitVec 3) (rm : RM) (s : State) : Answers s (execEsc x y rm s) := by
  refine .ite trivial ?_
  cases rm with
  | reg r => exact InRam.refl s
  | mem m => exact (InRam.refl s).readOp .word m

/-! ### Instructions of the VM89 -/

theorem execITslMemData_answers (m : IMem) (v rel : Byte) (s : State) : Answers s (execITslMemData m v rel s) :=
  have read := (InRam.refl s).iopRead8 (s.ch.space m) (s.ch.ea m)
  .ite (read.same (by rfl)) ((read.iopWrite8 _ _ v).same (by rfl))

/-! ### Every instruction -/

/-- Whatever an instruction stores it stores in RAM: each arm by the family of its meaning. -/
theorem exec_answers (i : Instr) (s : State) : Answers s (exec i s) := by
  have h := InRam.refl s
  cases i
  -- VM86: data transfer
  case nop | iNop => exact h
  case movRImm | xchgAxR | lea | lahf | sahf => exact h.same rfl
  case movRmR d w r rm =>
    cases d
    · exact h.writeRm s.cpu w rm _
    · exact (h.readRm w rm).same rfl
  case movAcc d w a =>
    cases d
    · exact h.writeMem w _ _ _
    · exact (h.readOp w (.direct a)).same rfl
  case movRmImm v | movRmSr => exact h.writeRm s.cpu _ _ _
  case movSrRm sr rm => exact (h.readRm .word rm).same rfl
  case xchgRRm w r rm => exact ((h.readRm w rm).writeRm s.cpu w rm _).same rfl
  case xlat => exact (h.readMem .byte _ _).same rfl
  case lds r m | les r m => exact (h.readFar m).same rfl
  case pushR | pushSr => exact h.push16 _
  case pushRm rm =>
    cases rm with
    | reg r => exact h.push16 _
    | mem m => exact (h.readOp .word m).push16 _
  case pushf => exact .push16 (h.same (by rfl)) _
  case popRm rm => exact h.pop16.writeRm _ .word rm _
  case popR | popSr | popf => exact h.pop16.same rfl
  case inPort | inDx => exact (h.ioRead _ _ _).same rfl
  case outPort | outDx => exact h.ioWrite _ _ _ _
  -- VM86: arithmetic and logic
  case addRmR | adcRmR | subRmR | sbbRmR | cmpRmR | andRmR | orRmR | xorRmR => exact aluRmReg_answers ..
  case addRmImm | adcRmImm | subRmImm | sbbRmImm | cmpRmImm | andRmImm | orRmImm | xorRmImm | testRmImm | testRmR =>
    exact aluToRm_answers ..
  case addAccImm | adcAccImm | subAccImm | sbbAccImm | cmpAccImm | andAccImm | orAccImm | xorAccImm | testAccImm =>
    exact aluToRm_answers ..
  case incRm | incR | decRm | decR | negRm => exact readModifyWrite_inRam ..
  case notRm w rm => exact (h.readRm w rm).writeRm s.cpu w rm _
  case mulRm w rm | imulRm w rm => exact (h.readRm w rm).same rfl
  case divRm w rm | idivRm w rm => exact divide_answers (h.readRm w rm) w _ _
  case cbw | cwd | daa | das => exact h.same rfl
  case aam | aad => exact asciiFlags_inRam ((h.setReg _ _ _).setReg _ _ _) _
  case aaa | aas => exact asciiAdjust_answers ..
  case rolRm | rorRm | rclRm | rcrRm | shlRm | shrRm | sarRm => exact shiftOp_answers ..
  -- VM86: strings
  case movs w => exact repeated_answers _ _ s (movsElem_inRam w s)
  case cmps w => exact repeated_answers _ _ s (cmpsElem_inRam w s)
  case scas w => exact repeated_answers _ _ s (scasElem_inRam w s)
  case lods w => exact repeated_answers _ _ s (lodsElem_inRam w s)
  case stos w => exact repeated_answers _ _ s (stosElem_inRam w s)
  -- VM86: control transfer
  case jmpShort | jmpNear | jmpFar => exact h.same rfl
  case jmpRm rm => exact (h.readRm .word rm).same rfl
  case jmpMem m => exact (h.readFar m).same rfl
  case callNear => exact (h.push16 _).same rfl
  case callRm rm => exact ((h.readRm .word rm).push16 _).same rfl
  case callFar => exact ((h.push16 _).push16 _).same rfl
  case callMem m => exact (((h.readFar m).push16 _).push16 _).same rfl
  case retNear | retNearImm => exact h.pop16.same rfl
  case retFar | retFarImm => exact h.pop16.pop16.same rfl
  case jo | jno | jb | jnb | je | jne | jbe | ja | js | jns | jp | jnp | jl | jge | jle | jg | jcxz =>
    exact branch_answers _ _ h
  case loopne | loope | loop => exact branch_answers _ _ (h.same (by rfl))
  case intN | int3 => exact h.interrupt _
  case into => exact .either (h.interrupt _) h
  case iret => exact h.interruptReturn
  -- VM86: processor control
  case clc | stc | cmc | cld | std | cli | sti | hlt | repPrefix | lockPrefix | segPrefix => exact h.same rfl
  case wait => exact .ite (h.same (by rfl)) h
  case esc x y rm => exact execEsc_answers x y rm s
  -- VM87: data transfer
  case fldM32 | fldM64 | fildM16i | fildM32i | fildM64i => exact fpuMemLoad_answers ..
  case fldM80 m => exact show Answers s (execFldM80 m s) from escSrc_answers fun _ _ g => .orRefused (g.same (by rfl))
  case fbldM80 m => exact show Answers s (execFbldM80 m s) from escSrc_answers fun _ _ g => g.same rfl
  case fldSti i => exact show Answers s (execFldSti i s) from escReg_answers fun _ g => .orRefused (g.same (by rfl))
  case fstM32 m => exact show Answers s (execFstM32 m s) from fpuStore_answers ..
  case fstM64 m => exact show Answers s (execFstM64 m s) from fpuStore_answers ..
  case fistM16i m => exact show Answers s (execFistM16i m s) from fpuStore_answers ..
  case fistM32i m => exact show Answers s (execFistM32i m s) from fpuStore_answers ..
  case fstpM32 m => exact show Answers s (execFstpM32 m s) from fpuStore_answers ..
  case fstpM64 m => exact show Answers s (execFstpM64 m s) from fpuStore_answers ..
  case fstpM80 m => exact show Answers s (execFstpM80 m s) from fpuStore_answers ..
  case fistpM16i m => exact show Answers s (execFistpM16i m s) from fpuStore_answers ..
  case fistpM32i m => exact show Answers s (execFistpM32i m s) from fpuStore_answers ..
  case fistpM64i m => exact show Answers s (execFistpM64i m s) from fpuStore_answers ..
  case fbstpM80 m => exact show Answers s (execFbstpM80 m s) from fpuStore_answers ..
  case fstSti | fstpSti => exact fpuStoreSti_answers ..
  case fxchSti i =>
    exact show Answers s (execFxchSti i s) from escReg_answers fun _ g => .ite (g.same (by rfl)) (g.same (by rfl))
  case fldz | fld1 | fldpi | fldl2t | fldl2e | fldlg2 | fldln2 => exact fpuConst_answers ..
  -- VM87: comparison and arithmetic
  case fcomM32 | fcomM64 | ficomM16i | ficomM32i | fcompM32 | fcompM64 | ficompM16i | ficompM32i =>
    exact fpuMemCompare_answers ..
  case fcomSti | fcompSti => exact fpuStiCompare_answers ..
  case fcompp => exact show Answers s (execFcompp s) from escReg_answers fun _ g => fpuCompareWith_answers g ..
  case ftst => exact show Answers s (execFtst s) from escReg_answers fun _ g => fpuCompareWith_answers g ..
  case fxam => exact execFxam_answers s
  case faddM32 | faddM64 | fiaddM16i | fiaddM32i | fmulM32 | fmulM64 | fimulM16i | fimulM32i | fsubM32 | fsubM64 |
      fsubrM32 | fsubrM64 | fisubM16i | fisubM32i | fisubrM16i | fisubrM32i | fdivM32 | fdivM64 | fdivrM32 | fdivrM64 |
      fidivM16i | fidivM32i | fidivrM16i | fidivrM32i => exact fpuMemArith_answers ..
  case faddStSti | fmulStSti | fsubStSti | fsubrStSti | fdivStSti | fdivrStSti => exact fpuTopArith_answers ..
  case faddStiSt | faddpStiSt | fmulStiSt | fmulpStiSt | fsubStiSt | fsubrStiSt | fsubpStiSt | fsubrpStiSt | fdivStiSt |
      fdivrStiSt | fdivpStiSt | fdivrpStiSt => exact fpuStiArith_answers ..
  case fscale => exact show Answers s (execFscale s) from escReg_answers fun _ g => fpuDyadic_answers g ..
  case fsqrt | frndint => exact fpuMonadic_answers ..
  case fabs | fchs => exact fpuSign_answers ..
  case fprem => exact show Answers s (execFprem s) from escReg_answers fun _ g => .orRefused (g.same (by rfl))
  case fxtract => exact show Answers s (execFxtract s) from escReg_answers fun _ g => .orRefused (g.same (by rfl))
  case fptan => exact show Answers s (execFptan s) from escReg_answers fun _ g => g.same rfl
  case fpatan => exact show Answers s (execFpatan s) from escReg_answers fun _ g => g.same rfl
  case f2xm1 => exact show Answers s (execF2xm1 s) from escReg_answers fun _ g => g.same rfl
  case fyl2x => exact show Answers s (execFyl2x s) from escReg_answers fun _ g => g.same rfl
  case fyl2xp1 => exact show Answers s (execFyl2xp1 s) from escReg_answers fun _ g => g.same rfl
  -- VM87: control
  case fnop => exact escReg_answers fun _ g => g
  case fincstp => exact show Answers s (execFincstp s) from escReg_answers fun _ g => g.same rfl
  case fdecstp => exact show Answers s (execFdecstp s) from escReg_answers fun _ g => g.same rfl
  case finit => exact show Answers s (execFinit s) from escReg_answers fun _ g => g.same rfl
  case feni => exact show Answers s (execFeni s) from escReg_answers fun _ g => g.same rfl
  case fdisi => exact show Answers s (execFdisi s) from escReg_answers fun _ g => g.same rfl
  case fclex => exact show Answers s (execFclex s) from escReg_answers fun _ g => g.same rfl
  case ffreeSti i => exact show Answers s (execFfreeSti i s) from escReg_answers fun _ g => g.same rfl
  case fldcw m => exact show Answers s (execFldcw m s) from escSrc_answers fun _ _ g => g.same rfl
  case fstcw m => exact show Answers s (execFstcw m s) from escDst_answers fun _ _ g => g.fpuWrite ..
  case fstsw m => exact show Answers s (execFstsw m s) from escDst_answers fun _ _ g => g.fpuWrite ..
  case fstenv m =>
    exact show Answers s (execFstenv m s) from escEnv_answers fun _ g => InRam.fpuWrite (g.same (by rfl)) ..
  case fsave m =>
    exact show Answers s (execFsave m s) from escEnv_answers fun _ g => InRam.fpuWrite (g.same (by rfl)) ..
  case fldenv m => exact show Answers s (execFldenv m s) from escEnv_answers fun _ _ => (h.fpuSource m _).same rfl
  case frstor m => exact show Answers s (execFrstor m s) from escEnv_answers fun _ _ => (h.fpuSource m _).same rfl
  -- VM89
  case iMovRegMem | iMovbRegMem => exact (h.iopLoad _ _).same rfl
  case iMovMemReg | iMovbMemReg | iMoviMemData | iMovbiMemData => exact h.iopStore _ _ _
  case iMovMemMem | iMovbMemMem => exact (h.iopLoad _ _).iopStore _ _ _
  case iMoviRegData | iMovbiRegData | iLpdiPtr => exact h.same rfl
  case iMovpPtrMem => exact (h.iopLoadPtr _ _).same rfl
  case iMovpMemPtr | iCallMem | iLcallMem => exact (h.iopSavePtr _ _ _ _).same rfl
  case iLpdPtrMem => exact (h.iopPointer _ _).same rfl
  case iAddRegMem | iAddbRegMem => exact (h.iopLoad _ _).same rfl
  case iAddiRegData | iAddbiRegData | iIncReg | iDecReg => exact h.same rfl
  case iAddMemReg | iAddbMemReg | iAddiMemData | iAddbiMemData | iIncMem | iIncbMem | iDecMem | iDecbMem | iAndMemReg |
      iAndbMemReg | iAndiMemData | iAndbiMemData | iOrMemReg | iOrbMemReg | iOriMemData | iOrbiMemData | iNotMem |
      iNotbMem | iSetbMem | iClrMem => exact h.iopModify _ _ _
  case iAndRegMem | iAndbRegMem | iOrRegMem | iOrbRegMem | iNotRegMem | iNotbRegMem =>
    exact (h.iopLoad _ _).iopLogic _ _
  case iAndiRegData | iAndbiRegData | iOriRegData | iOrbiRegData | iNotReg => exact h.iopLogic _ _
  case iJmp | iLjmp => exact h.same rfl
  case iJzReg | iLjzReg | iJnzReg | iLjnzReg => exact h.iopJumpIf _ _
  case iJzMem | iLjzMem | iJzbMem | iLjzbMem | iJnzMem | iLjnzMem | iJnzbMem | iLjnzbMem | iJmceMem | iLjmceMem |
      iJmcneMem | iLjmcneMem | iJbtMem | iLjbtMem | iJnbtMem | iLjnbtMem => exact (h.iopLoad _ _).iopJumpIf _ _
  case iTslMemData => exact execITslMemData_answers ..
  case iWid | iXfer | iSintr => exact h.same rfl
  case iHlt => exact (h.iopWrite8 _ _ _).same rfl

/-! ### The boundary of the CPU -/

section Cpu

variable {s t : State}

theorem takeNmi_inRam (h : InRam s t) : InRam s t.takeNmi := by
  unfold State.takeNmi
  split
  · exact .interrupt (h.same (by rfl)) _
  · exact h

theorem takeIntr_inRam (h : InRam s t) : InRam s t.takeIntr := by
  unfold State.takeIntr
  split
  · split
    · exact .interrupt (h.same (by rfl)) _
    · exact h
  · exact h

theorem takeStep_inRam (h : InRam s t) : InRam s t.takeStep := by
  unfold State.takeStep
  split
  · exact .interrupt (h.same (by rfl)) _
  · exact h

theorem takeAll_inRam (h : InRam s t) : InRam s t.takeAll := takeStep_inRam (takeIntr_inRam (takeNmi_inRam h))

theorem boundary_inRam (h : InRam s t) : InRam s t.boundary := by
  unfold State.boundary
  split
  case h_1 => exact h
  case h_2 =>
    dsimp only
    split
    · exact h.same rfl
    · exact takeAll_inRam (h.same (by rfl))
  all_goals
    split
    · exact takeAll_inRam (h.same (by rfl))
    · exact h

theorem cpuDone_inRam (h : InRam s t) : InRam s t.cpuDone := (boundary_inRam h).same rfl

theorem haltedStep_inRam (h : InRam s t) : InRam s t.haltedStep := by
  unfold State.haltedStep
  split
  · exact takeAll_inRam h
  · exact h

theorem fpuIssue_answers (h : InRam s t) (i : Instr) (x second : Nat) (rm : RM) :
    Answers s (t.fpuIssue i x second rm) := by
  refine .ite trivial ?_
  cases rm with
  | reg r => exact h.same rfl
  | mem m => exact (h.readOp .word m).same rfl

theorem begun_inRam {i : Instr} {n : Nat} {u : State} (h : InRam s t) (fetch : t.fetch86 = .ok (i, n, u)) :
    InRam s (u.begun n) := by
  obtain ⟨⟨_, mem, beyond⟩, wf⟩ := State.fetch86_spec fetch
  obtain ⟨_, memBegun, beyondBegun⟩ := u.begun_spec n
  exact (h.beyond mem beyond wf).beyond memBegun beyondBegun (State.begun_wf n)

theorem cpuInstruction_answers (h : InRam s t) (i : Instr) : Answers s (cpuInstruction exec i t) := by
  have run := Answers.trans h (exec_answers i t)
  refine .ite ?_ run
  split
  · exact fpuIssue_answers h ..
  · exact run

theorem cpuTurn_answers (h : InRam s t) : Answers s (cpuTurn exec t) := by
  refine .ite ((haltedStep_inRam h).same (by rfl)) ?_
  split
  case h_1 i _ => exact .onNext (.trans (h.same (by rfl)) (exec_answers i t.again)) fun _ => cpuDone_inRam
  case h_2 => exact .onNext (.trans (h.same (by rfl)) (exec_answers .wait t.again)) fun _ => cpuDone_inRam
  case h_3 =>
    split
    case h_1 fetch => exact .onNext (cpuInstruction_answers (begun_inRam h fetch) _) fun _ => cpuDone_inRam
    case h_2 => trivial

end Cpu

/-! ### The VM87 beside the CPU -/

section Fpu

variable {s t : State}

theorem fpuReadOn_inRam (h : InRam s t) (j : FpuJob) (rest : List FpuJob) (m : MemOp) (need : Nat) :
    InRam s (t.fpuReadOn j rest m need) := by
  unfold State.fpuReadOn
  dsimp only
  split
  · exact ((h.read8 _).read8 _).same rfl
  · exact (h.read8 _).same rfl

theorem fpuWriteOn_inRam (h : InRam s t) : InRam s t.fpuWriteOn := by
  unfold State.fpuWriteOn
  split
  · exact h
  · exact .write8_mod (h.same (by rfl)) _ _
  · exact (InRam.write8_mod (h.same (by rfl)) _ _).write8_mod _ _

theorem fpuTurn_answers (h : InRam s t) : Answers s (fpuTurn exec t) := by
  have execute : ∀ j r, Answers s (onNext (exec j.instr (t.fpuEnter j r)) fun u => u.fpuLeave t.cpu) := fun j r =>
    .onNext (.trans (h.same (by rfl)) (exec_answers j.instr (t.fpuEnter j r))) fun _ g => g.same rfl
  unfold fpuTurn
  split
  · exact fpuWriteOn_inRam h
  · exact h
  · split
    · exact .ite (fpuReadOn_inRam h ..) (execute ..)
    · exact execute ..

end Fpu

/-! ### The VM89 -/

section Iop

variable {s t : State}

theorem iopInitialise_answers (h : InRam s t) (sel : Bool) : Answers s (t.iopInitialise sel) :=
  .orRefused ((((((h.iopRead8 _ _).iopPointer _ _).iopRead8 _ _).iopPointer _ _).iopWrite8 _ _ _).same (by rfl))

theorem iopStart_answers (h : InRam s t) (base : Nat) (io : Bool) : Answers s (t.iopStart base io) := by
  have block := h.iopPointer false (base + 2)
  refine .orRefused ?_
  cases io
  · exact (block.iopPointer _ _).same rfl
  · exact (block.iopRead16 _ _).same rfl

theorem iopSuspendNow_inRam (h : InRam s t) (base : Nat) : InRam s (t.iopSuspendNow base) :=
  ((((h.iopSavePtr _ _ _ _).iopWrite8 _ _ _).iopWrite8 _ _ _).setCh _).withIop _

theorem iopSuspend_inRam (h : InRam s t) (base : Nat) : InRam s (t.iopSuspend base) := by
  unfold State.iopSuspend
  split
  · exact iopSuspendNow_inRam h base
  · exact h.same rfl

theorem iopResume_answers (h : InRam s t) : Answers s t.iopResume :=
  .orRefused (((h.iopLoadPtr _ _).iopRead8 _ _).same (by rfl))

theorem iopStop_inRam (h : InRam s t) (base : Nat) : InRam s (t.iopStop base) :=
  ((h.iopWrite8 _ _ _).setCh _).withIop _

/-- The channel attention is taken, BUSY set and the channel command word read. -/
theorem iopAttend_inRam (h : InRam s t) (p : Iop) (base : Nat) (c d : IopChan) :
    InRam s ((((({ t with iop := p }).setCh c).iopWrite8 false (base + 1) 0xFF#8).iopRead8 false base).2.setCh d) :=
  ((((h.withIop p).setCh c).iopWrite8 _ _ _).iopRead8 _ _).setCh d

theorem iopAnswer_answers (h : InRam s t) (n : ChanNo) : Answers s (t.iopAnswer n) := by
  unfold State.iopAnswer
  dsimp only
  generalize attended : State.setCh (State.iopRead8 _ _ _).2 _ = u
  have g : InRam s u := attended ▸ iopAttend_inRam h ..
  split
  · exact .either (g.iopWrite8 _ _ _) g
  · exact iopStart_answers g ..
  · exact iopStart_answers g ..
  · exact iopResume_answers g
  · exact iopSuspend_inRam g _
  · exact iopStop_inRam g _
  · exact g

theorem iopTranslate_inRam (h : InRam s t) (b : Byte) : InRam s (t.iopTranslate b).2 := by
  unfold State.iopTranslate
  split
  · exact h.iopRead8 _ _
  · exact h

theorem iopXferRead_inRam (h : InRam s t) (x : XferCycle) : InRam s (t.iopXferRead x) := by
  unfold State.iopXferRead
  dsimp only
  split
  · exact (h.iopRead16 _ _).same rfl
  · exact (iopTranslate_inRam (h.iopRead8 _ _) _).same rfl

theorem iopXferWrite_inRam (h : InRam s t) (x : XferCycle) : InRam s (t.iopXferWrite x) := by
  unfold State.iopXferWrite
  dsimp only
  split
  · exact (h.iopWriteW .word _ _ _).same rfl
  · exact (h.iopWrite8 _ _ _).same rfl

theorem iopXferEnd_inRam (h : InRam s t) (x : XferCycle) : InRam s (t.iopXferEnd x) := by
  unfold State.iopXferEnd
  dsimp only
  split <;> exact h.same rfl

theorem iopCycleDone_inRam (h : InRam s t) (x : XferCycle) : InRam s (t.iopCycleDone x) := by
  have ended := iopXferEnd_inRam h x
  unfold State.iopCycleDone
  dsimp only
  split
  · exact iopSuspendNow_inRam ended _
  · exact ended

theorem iopTransfer_answers (h : InRam s t) (n : ChanNo) : Answers s (t.iopTransfer n) := by
  have g : InRam s { t with iop := { t.iop with cur := n } } := h.same rfl
  unfold State.iopTransfer
  dsimp only
  generalize { t with iop := { t.iop with cur := n } } = u at g
  split
  · split
    · trivial
    · exact (iopXferRead_inRam g _).same rfl
  · refine .ite ?_ (iopXferRead_inRam g _)
    have written := iopXferWrite_inRam g
    split
    · exact .either (iopCycleDone_inRam (written _) _) (written _)
    · exact written _

theorem iopKeep_inRam (h : InRam s t) (n : ChanNo) : InRam s (t.iopKeep n) := by
  unfold State.iopKeep
  dsimp only
  split
  · exact (h.iopRead8 _ _).same rfl
  · exact h

theorem iopAfter_inRam (h : InRam s t) (n : ChanNo) (armed : Bool) : InRam s (t.iopAfter n armed) := by
  cases armed
  · exact h
  · exact h.same rfl

theorem iopInstruction_answers (h : InRam s t) (n : ChanNo) : Answers s (iopInstruction exec t n) := by
  unfold iopInstruction
  split
  case h_1 i k u fetch =>
    obtain ⟨quiet, wf⟩ := State.fetch89_spec fetch
    have begun : InRam s (u.iopBegun n i k) := iopKeep_inRam ((h.quiet quiet wf).same (by rfl)) n
    exact .onNext (.trans begun (exec_answers i _)) fun _ g => iopAfter_inRam g n _
  case h_2 => trivial

theorem iopTurn_answers (h : InRam s t) : Answers s (iopTurn exec t) := by
  refine .ite ?_ ?_
  · split
    · exact iopInitialise_answers h _
    · exact h
  · split
    · exact h
    · exact iopAnswer_answers h _
    · exact iopTransfer_answers h _
    · exact iopInstruction_answers h _

end Iop

/-! ### The VT37 -/

section Dma

variable {s t : State}

theorem setDmac_inRam (h : InRam s t) (u : Nat) (d : Vt37) : InRam s (t.setDmac u d) := by
  cases u <;> exact h.same rfl

theorem dmaRead8_inRam (h : InRam s t) (a : Nat) : InRam s (t.dmaRead8 a).2 := by
  unfold State.dmaRead8
  split
  · exact h
  · exact h
  · exact h.same rfl

theorem dmaWrite8_inRam (h : InRam s t) {a : Nat} (v : Byte) (ha : a < 2 ^ 20) : InRam s (t.dmaWrite8 a v) := by
  unfold State.dmaWrite8
  split
  case h_1 kind =>
    have ram : t.isRam a = true := by rw [State.isRam, kind]; rfl
    obtain ⟨⟨_, beyond⟩, mem⟩ := t.store8_spec a v
    exact h.stored (.of_mem (by rw [mem, if_pos ram])) beyond fun wf => State.store8_wf v wf ha
  case h_2 => exact h

theorem dmaTake_inRam (h : InRam s t) (u : Nat) (n : BitVec 2) (data : List Byte) :
    InRam s (t.dmaTake u n data).2.2 := by
  unfold State.dmaTake State.deviceByte
  split
  · exact h.same rfl
  · cases data
    · exact h.same rfl
    · exact h

theorem dmaGive_inRam (h : InRam s t) (u : Nat) (n : BitVec 2) (v : Byte) : InRam s (t.dmaGive u n v) := by
  unfold State.dmaGive
  split
  · exact h.same rfl
  · exact setDmac_inRam h ..

theorem dmaMove_inRam (h : InRam s t) (u : Nat) (n : BitVec 2) (data : List Byte) : InRam s (t.dmaMove u n data).2 := by
  unfold State.dmaMove
  split
  · exact dmaWrite8_inRam (dmaTake_inRam h u n data) _ (t.dmaAddr_lt u n)
  · exact dmaGive_inRam (dmaRead8_inRam h _) ..
  · exact h
  · exact h

theorem dmaEnd_inRam (h : InRam s t) (u : Nat) (n : BitVec 2) (pulse : Bool) : InRam s (t.dmaEnd u n pulse) :=
  (setDmac_inRam h u _).same rfl

theorem dmaCycle_inRam (h : InRam s t) (u : Nat) (n : BitVec 2) (data : List Byte) :
    InRam s (t.dmaCycle u n data).2.2 := by
  have moved := setDmac_inRam (dmaMove_inRam h u n data) u
  unfold State.dmaCycle
  dsimp only
  split
  · exact dmaEnd_inRam (moved _) u n true
  · exact moved _

theorem dmaCycles_inRam (h : InRam s t) (u : Nat) (n : BitVec 2) (eop : Bool) (data : List Byte) (k : Nat) :
    InRam s (t.dmaCycles u n eop data k) := by
  induction k generalizing t data with
  | zero =>
    unfold State.dmaCycles
    split
    · exact dmaEnd_inRam h u n false
    · exact h
  | succ k ih =>
    have cycle := dmaCycle_inRam h u n data
    unfold State.dmaCycles
    dsimp only
    split
    · exact h
    · split
      · exact cycle
      · exact ih cycle _

theorem dmaByte_inRam (h : InRam s t) (u : Nat) : InRam s (t.dmaByte u).2 := by
  have store : ∀ {v : State}, InRam s v → ∀ b e, InRam s ((v.dmaWrite8 (v.dmaAddr u 1) b).setDmac u e) :=
    fun g b e => setDmac_inRam (dmaWrite8_inRam g b (State.dmaAddr_lt _ u 1)) u e
  have moved := fun d => store (setDmac_inRam (dmaRead8_inRam h (t.dmaAddr u 0)) u d) (t.dmaRead8 (t.dmaAddr u 0)).1
  unfold State.dmaByte
  dsimp only
  split
  · exact dmaEnd_inRam (dmaEnd_inRam (moved _ _) u 1 true) u 0 true
  · exact moved _ _

theorem dmaBytes_inRam (h : InRam s t) (u : Nat) (eop : Bool) (k : Nat) : InRam s (t.dmaBytes u eop k) := by
  induction k generalizing t with
  | zero =>
    unfold State.dmaBytes
    split
    · exact dmaEnd_inRam (dmaEnd_inRam h u 1 false) u 0 false
    · exact h
  | succ k ih =>
    have byte := dmaByte_inRam h u
    unfold State.dmaBytes
    dsimp only
    split
    · exact byte
    · exact ih byte

theorem dmaServe_inRam (h : InRam s t) (u : Nat) (n : BitVec 2) : InRam s (t.dmaServe u n) := setDmac_inRam h u _

theorem dmaPass_inRam (h : InRam s t) (u v : Nat) (cs : List Cascade) : InRam s (t.dmaPass u v cs).2 := by
  induction cs generalizing t u v with
  | nil => exact h
  | cons c r ih =>
    unfold State.dmaPass
    dsimp only
    split
    · exact ih (dmaServe_inRam h u c.channel) _ _
    · exact ih h _ _

theorem dmaRun_answers (h : InRam s t) (u cycles : Nat) (eop : Bool) (data : List Byte) :
    Answers s (t.dmaRun u cycles eop data) := by
  unfold State.dmaRun
  split
  · exact h
  · have served := dmaServe_inRam h u
    refine .ite (dmaBytes_inRam (served _) ..) (.ite (served _) (.ite trivial ?_))
    split <;> exact dmaCycles_inRam (served _) ..

theorem dmaGrant_answers (h : InRam s t) (cycles : Nat) (eop : Bool) (data : List Byte) :
    Answers s (t.dmaGrant cycles eop data) := dmaRun_answers (dmaPass_inRam h 0 1 _) ..

end Dma

/-! ### One turn -/

section Turn

variable {s t : State}

/-- An event of the environment stores nothing but by a grant of the bus to the VT37. -/
theorem event_answers (h : InRam s t) (e : Event) : Answers s (t.event e) := by
  cases e
  case dmaGrant => exact dmaGrant_answers h ..
  case dreq => exact setDmac_inRam h ..
  case grantIop => exact .ite h trivial
  case drq | ext => exact .ite (h.same (by rfl)) trivial
  case ruStrobeA => exact h.same (by simp only [Ru55.strobeA_ram])
  case ruStrobeB => exact h.same (by simp only [Ru55.strobeB_ram])
  case ruTick => exact h.same (by simp only [Ru55.timerTick_ram])
  case grantCpu | grantFpu => exact h
  all_goals exact h.same rfl

theorem freeAgent_inRam (h : InRam s t) : InRam s t.freeAgent.2 := by
  unfold State.freeAgent State.cpuOrFpu
  split_ifs <;> exact h.same rfl

theorem nextAgent_inRam (h : InRam s t) : InRam s t.nextAgent.2 := by
  unfold State.nextAgent
  split
  · exact h.same rfl
  · split
    · dsimp only
      split
      case h_4 => split <;> exact h.same rfl
      all_goals exact h.same rfl
    · exact freeAgent_inRam h

theorem agentTurn_answers (h : InRam s t) (a : Agent) : Answers s (agentTurn exec a t) := by
  cases a with
  | cpu => exact cpuTurn_answers h
  | iop => exact iopTurn_answers h
  | fpu => exact fpuTurn_answers h
  | event e => exact event_answers h e
  | nobody => exact h

theorem turnDone_inRam (h : InRam s t) (old : State) : InRam s (old.turnDone t) := by
  have watched : InRam s (old.watchNmi t) := by
    unfold State.watchNmi
    split
    · split
      · exact h.same rfl
      · exact h
    · exact h
  exact watched.same rfl

/-- What one step stores it stores in RAM, whichever agent moves. -/
theorem step_answers (s : State) : Answers s (step s) :=
  .onNext (agentTurn_answers (nextAgent_inRam (.refl s)) _) fun _ h => turnDone_inRam h s

theorem step_inRam (e : step s = .next t) : InRam s t := by
  have answers := step_answers s
  rwa [e] at answers

end Turn

/-- Settles O36: a step keeps the canonical form, as every operation that it is made of does. -/
theorem stepKeepsMemoryCanonical : Obligations.StepKeepsMemoryCanonical := fun _ _ wf e => (step_inRam e).wf wf

/-- Settles O37: a step is made of operations that store in RAM alone. -/
theorem stepStoresInRamAlone : Obligations.StepStoresInRamAlone := fun _ _ e =>
  have h := step_inRam e
  ⟨h.plat, h.system, h.io, h.remote⟩

end Sys2Proof.Certificates.Storage

/-! SUPPORT and CERTIFICATES. The decoder of the VM86 and the VM87 against the encoder: the first-byte map, the postbyte
and the bytes after it, one rule per shape of encoding, and the case split over the instructions that cites them. -/

namespace Sys2Proof.Certificates.Encoding

open Sys2Proof.Machine

/-! ### Field codes (30_encoding.md R153, R154) -/

theorem gReg_code_lt (r : GReg) : r.code < 8 := by cases r <;> decide
theorem sReg_code_lt (sr : SReg) : sr.code < 8 := by cases sr <;> decide
theorem eaRow_code_lt (e : EaRow) : e.code < 8 := by cases e <;> decide
theorem imm_wCode_lt (v : Imm) : v.wCode < 2 := by cases v <;> simp [Imm.wCode]
theorem aluImm_swCode_lt (v : AluImm) : v.swCode < 4 := by cases v <;> simp [AluImm.swCode]

@[simp] theorem gReg_ofCode_code (r : GReg) : GReg.ofCode r.code = r := by cases r <;> rfl
@[simp] theorem sReg_ofCode_code (sr : SReg) : SReg.ofCode sr.code = sr := by cases sr <;> rfl
@[simp] theorem eaRow_ofCode_code (e : EaRow) : EaRow.ofCode e.code = e := by cases e <;> rfl

theorem gReg_code_ofCode {n : Nat} (h : n < 8) : (GReg.ofCode n).code = n := by interval_cases n <;> rfl

/-- Only BP without displacement has the code 110 that md = 00 takes for the direct address (20_memory.md R135). -/
theorem eaRow_code_eq_six {e : EaRow} : e.code = 6 ↔ e = .bp := by cases e <;> decide

@[simp] theorem toNat_byteOf (n : Nat) : (byteOf n).toNat = n % 256 := BitVec.toNat_ofNat n 8

/-! ### Bytes after the opcode (30_encoding.md R156, R157) -/

theorem take16_wordBytes (v : Word) (r : List Byte) : take16 (wordBytes v ++ r) = .ok (v, r) := by
  simp only [wordBytes, List.cons_append, List.nil_append, take16, wordOf_bytes]

theorem with16_wordBytes (f : Word → Instr) (v : Word) (r : List Byte) :
    with16 f (wordBytes v ++ r) = .ok (f v, r) := by
  rw [with16, take16_wordBytes]

theorem with32_wordBytes (f : Word → Word → Instr) (u v : Word) (r : List Byte) :
    with32 f (wordBytes u ++ wordBytes v ++ r) = .ok (f u v, r) := by
  rw [with32, List.append_assoc, take16_wordBytes]
  exact with16_wordBytes (f u) v r

theorem withImm_bytes (f : Imm → Instr) (v : Imm) (r : List Byte) :
    withImm v.wCode f (v.bytes ++ r) = .ok (f v, r) := by
  cases v with
  | b => rfl
  | w v => exact with16_wordBytes (fun v => f (.w v)) v r

theorem withAluImm_bytes (f : AluImm → Instr) (v : AluImm) (r : List Byte) :
    withAluImm v.swCode f (v.bytes ++ r) = .ok (f v, r) := by
  cases v with
  | w v => exact with16_wordBytes (fun v => f (.w v)) v r
  | b | bAlias | sx => rfl

/-! ### The postbyte (30_encoding.md R155) -/

theorem decodeMem_direct (v : Word) (r : List Byte) : decodeMem 0 6 (wordBytes v ++ r) = .ok (.direct v, r) := by
  simp only [decodeMem, if_true, take16_wordBytes]

theorem decodeMem_noDisp {e : EaRow} (wf : (MemOp.noDisp e).wf = true) (r : List Byte) :
    decodeMem 0 e.code r = .ok (.noDisp e, r) := by
  have ne : e.code ≠ 6 := fun h => by simp [MemOp.wf, eaRow_code_eq_six.mp h] at wf
  simp only [decodeMem, if_neg ne, eaRow_ofCode_code]

theorem decodeMem_disp8 (e : EaRow) (b : Byte) (r : List Byte) :
    decodeMem 1 e.code (b :: r) = .ok (.disp8 e b, r) := by
  simp only [decodeMem, take8, eaRow_ofCode_code]

theorem decodeMem_disp16 (e : EaRow) (v : Word) (r : List Byte) :
    decodeMem 2 e.code (wordBytes v ++ r) = .ok (.disp16 e v, r) := by
  simp only [decodeMem, take16_wordBytes, eaRow_ofCode_code]

section Postbyte

variable {f : Nat → RM → List Byte → Decoded} {n md g c : Nat} {bytes rest : List Byte}

theorem withPostbyte_register (hg : g < 8) (r : GReg) :
    withPostbyte f (byteOf (192 + 8 * g + r.code) :: rest) = f g (.reg r) rest := by
  have hc := gReg_code_lt r
  have byte : (192 + 8 * g + r.code) % 256 = 192 + 8 * g + r.code := by omega
  have md : (192 + 8 * g + r.code) / 64 = 3 := by omega
  have reg : (192 + 8 * g + r.code) / 8 % 8 = g := by omega
  have rm : (192 + 8 * g + r.code) % 8 = r.code := by omega
  simp only [withPostbyte, take8, toNat_byteOf, byte, decodeRm, md, if_true, reg, rm, gReg_ofCode_code]

theorem withPostbyte_memory {m : MemOp} (hn : n = 64 * md + 8 * g + c) (hmd : md < 3) (hg : g < 8) (hc : c < 8)
    (mem : decodeMem md c bytes = .ok (m, rest)) : withPostbyte f (byteOf n :: bytes) = f g (.mem m) rest := by
  have byte : n % 256 = n := by omega
  have mode : n / 64 = md := by omega
  have reg : n / 8 % 8 = g := by omega
  have rm : n % 8 = c := by omega
  simp only [withPostbyte, take8, toNat_byteOf, byte, decodeRm, mode, if_neg hmd.ne, reg, rm, mem]

/-- A postbyte instruction gets back the field and the operand that were encoded, and the bytes after them. -/
theorem withPostbyte_encodeRm (f : Nat → RM → List Byte → Decoded) {rm : RM} (wf : rm.wf = true) (hg : g < 8)
    (rest : List Byte) : withPostbyte f (encodeRm g rm ++ rest) = f g rm rest := by
  match rm with
  | .reg r => exact withPostbyte_register hg r
  | .mem (.direct v) =>
    exact withPostbyte_memory (md := 0) (by omega) (by decide) hg (by decide) (decodeMem_direct v rest)
  | .mem (.noDisp e) =>
    exact withPostbyte_memory (md := 0) (by omega) (by decide) hg (eaRow_code_lt e) (decodeMem_noDisp wf rest)
  | .mem (.disp8 e b) =>
    exact withPostbyte_memory (md := 1) (by omega) (by decide) hg (eaRow_code_lt e) (decodeMem_disp8 e b rest)
  | .mem (.disp16 e v) =>
    exact withPostbyte_memory (md := 2) (by omega) (by decide) hg (eaRow_code_lt e) (decodeMem_disp16 e v rest)

end Postbyte

/-! ### The first-byte map (30_encoding.md R167): the ranges of the decoder -/

section FirstByte

variable {n : Nat} {r : List Byte}

theorem decode86_0x (h : n < 0x40 := by decide) : decode86 (byteOf n :: r) = decode0 n r := by
  simp (disch := omega) only [decode86, toNat_byteOf, Nat.mod_eq_of_lt, if_pos]

theorem decode86_incR (h : 0x40 ≤ n ∧ n < 0x48 := by decide) :
    decode86 (byteOf n :: r) = .ok (.incR (GReg.ofCode (n % 8)), r) := by
  simp (disch := omega) only [decode86, toNat_byteOf, Nat.mod_eq_of_lt, if_pos, if_neg, plain]

theorem decode86_decR (h : 0x48 ≤ n ∧ n < 0x50 := by decide) :
    decode86 (byteOf n :: r) = .ok (.decR (GReg.ofCode (n % 8)), r) := by
  simp (disch := omega) only [decode86, toNat_byteOf, Nat.mod_eq_of_lt, if_pos, if_neg, plain]

theorem decode86_pushR (h : 0x50 ≤ n ∧ n < 0x58 := by decide) :
    decode86 (byteOf n :: r) = .ok (.pushR (GReg.ofCode (n % 8)), r) := by
  simp (disch := omega) only [decode86, toNat_byteOf, Nat.mod_eq_of_lt, if_pos, if_neg, plain]

theorem decode86_popR (h : 0x58 ≤ n ∧ n < 0x60 := by decide) :
    decode86 (byteOf n :: r) = .ok (.popR (GReg.ofCode (n % 8)), r) := by
  simp (disch := omega) only [decode86, toNat_byteOf, Nat.mod_eq_of_lt, if_pos, if_neg, plain]

theorem decode86_6x (h : 0x60 ≤ n ∧ n < 0x70 := by decide) : decode86 (byteOf n :: r) = .error .unusedOpcode := by
  simp (disch := omega) only [decode86, toNat_byteOf, Nat.mod_eq_of_lt, if_pos, if_neg]

theorem decode86_7x (h : 0x70 ≤ n ∧ n < 0x80 := by decide) :
    decode86 (byteOf n :: r) = with8 (jcc (n - 0x70)) r := by
  simp (disch := omega) only [decode86, toNat_byteOf, Nat.mod_eq_of_lt, if_pos, if_neg]

theorem decode86_8x (h : 0x80 ≤ n ∧ n < 0x90 := by decide) : decode86 (byteOf n :: r) = decode8 n r := by
  simp (disch := omega) only [decode86, toNat_byteOf, Nat.mod_eq_of_lt, if_pos, if_neg]

theorem decode86_9x (h : 0x90 ≤ n ∧ n < 0xA0 := by decide) : decode86 (byteOf n :: r) = decode9 n r := by
  simp (disch := omega) only [decode86, toNat_byteOf, Nat.mod_eq_of_lt, if_pos, if_neg]

theorem decode86_Ax (h : 0xA0 ≤ n ∧ n < 0xB0 := by decide) : decode86 (byteOf n :: r) = decodeA n r := by
  simp (disch := omega) only [decode86, toNat_byteOf, Nat.mod_eq_of_lt, if_pos, if_neg]

theorem decode86_Bx (h : 0xB0 ≤ n ∧ n < 0xC0 := by decide) :
    decode86 (byteOf n :: r) = withImm (n / 8 % 2) (.movRImm (GReg.ofCode (n % 8))) r := by
  simp (disch := omega) only [decode86, toNat_byteOf, Nat.mod_eq_of_lt, if_pos, if_neg]

theorem decode86_Cx (h : 0xC0 ≤ n ∧ n < 0xD0 := by decide) : decode86 (byteOf n :: r) = decodeC n r := by
  simp (disch := omega) only [decode86, toNat_byteOf, Nat.mod_eq_of_lt, if_pos, if_neg]

theorem decode86_Dx (h : 0xD0 ≤ n ∧ n < 0xE0 := by decide) : decode86 (byteOf n :: r) = decodeD n r := by
  simp (disch := omega) only [decode86, toNat_byteOf, Nat.mod_eq_of_lt, if_pos, if_neg]

theorem decode86_Ex (h : 0xE0 ≤ n ∧ n < 0xF0 := by decide) : decode86 (byteOf n :: r) = decodeE n r := by
  simp (disch := omega) only [decode86, toNat_byteOf, Nat.mod_eq_of_lt, if_pos, if_neg]

theorem decode86_Fx (h : 0xF0 ≤ n ∧ n < 0x100 := by decide) : decode86 (byteOf n :: r) = decodeF n r := by
  simp (disch := omega) only [decode86, toNat_byteOf, Nat.mod_eq_of_lt, if_neg]

/-! ### The first bytes that carry fields, and the groups -/

theorem decode86_aluRmR {k : Nat} (hk : k < 8) (d : Dir) (w : Width) :
    decode86 (byteOf (8 * k + 2 * d.code + w.code) :: r) =
      withPostbyte (fun g rm r => .ok (aluRmR k d w (GReg.ofCode g) rm, r)) r := by
  interval_cases k <;> cases d <;> cases w <;> exact decode86_0x

theorem decode86_aluAccImm {k wb : Nat} (hk : k < 8) (h : wb < 2) :
    decode86 (byteOf (8 * k + 4 + wb) :: r) = withImm wb (aluAccImm k) r := by
  interval_cases k <;> interval_cases wb <;> exact decode86_0x

theorem decode86_group1 {sw : Nat} (h : sw < 4) : decode86 (byteOf (0x80 + sw) :: r) = decodeGroup1 sw r := by
  interval_cases sw <;> exact decode86_8x

theorem decode86_group2 (c : ShiftCount) (w : Width) :
    decode86 (byteOf (0xD0 + 2 * c.code + w.code) :: r) = decodeGroup2 (2 * c.code + w.code) r := by
  cases c <;> cases w <;> exact decode86_Dx

theorem decode86_group3 {wb : Nat} (h : wb < 2) : decode86 (byteOf (0xF6 + wb) :: r) = decodeGroup3 wb r := by
  interval_cases wb <;> exact decode86_Fx

theorem decode86_group4 : decode86 (byteOf 0xFE :: r) = decodeGroup4 r := decode86_Fx

theorem decode86_group5 : decode86 (byteOf 0xFF :: r) = decodeGroup5 r := decode86_Fx

theorem decode86_movRImm {wb : Nat} (h : wb < 2) (q : GReg) :
    decode86 (byteOf (0xB0 + 8 * wb + q.code) :: r) = withImm wb (.movRImm q) r := by
  interval_cases wb <;> cases q <;> exact decode86_Bx

theorem decode86_movRmImm {wb : Nat} (h : wb < 2) : decode86 (byteOf (0xC6 + wb) :: r) = withPostbyte
    (fun g rm r => if g = 0 then withImm wb (.movRmImm rm) r else .error .unusedOpcode) r := by
  interval_cases wb <;> exact decode86_Cx

theorem decode86_movRmSr : decode86 (byteOf 0x8C :: r) = withPostbyte
    (fun g rm r => if g < 4 then .ok (.movRmSr (SReg.ofCode g) rm, r) else .error .unusedOpcode) r := decode86_8x

theorem decode86_movSrRm : decode86 (byteOf 0x8E :: r) = withPostbyte (fun g rm r =>
    if g = 1 then .error .loadCs
    else if g < 4 then .ok (.movSrRm (SReg.ofCode g) rm, r) else .error .unusedOpcode) r := decode86_8x

theorem decode86_popRm : decode86 (byteOf 0x8F :: r) = withPostbyte
    (fun g rm r => if g = 0 then .ok (.popRm rm, r) else .error .unusedOpcode) r := decode86_8x

theorem decode86_testAccImm {wb : Nat} (h : wb < 2) :
    decode86 (byteOf (0xA8 + wb) :: r) = withImm wb .testAccImm r := by
  interval_cases wb <;> exact decode86_Ax

theorem decode86_esc {x : Nat} (h : x < 8) : decode86 (byteOf (0xD8 + x) :: r) = decodeEsc x r := by
  interval_cases x <;> exact decode86_Dx

end FirstByte

/-! ### One rule per shape of encoding -/

/-- The bytes stand for the instruction, whatever follows them. -/
def Decodes (bytes : List Byte) (i : Instr) : Prop := ∀ rest, decode86 (bytes ++ rest) = .ok (i, rest)

namespace Decodes

variable {op : Byte} {g : Nat} {rm : RM} {i : Instr}

theorem word {f : Word → Instr} {v : Word} (first : ∀ r, decode86 (op :: r) = with16 f r) :
    Decodes (op :: wordBytes v) (f v) :=
  fun rest => (first _).trans (with16_wordBytes f v rest)

theorem words {f : Word → Word → Instr} {u v : Word} (first : ∀ r, decode86 (op :: r) = with32 f r) :
    Decodes (op :: (wordBytes u ++ wordBytes v)) (f u v) :=
  fun rest => (first _).trans (with32_wordBytes f u v rest)

theorem imm {f : Imm → Instr} {v : Imm} (first : ∀ r, decode86 (op :: r) = withImm v.wCode f r) :
    Decodes (op :: v.bytes) (f v) :=
  fun rest => (first _).trans (withImm_bytes f v rest)

/-- A postbyte, and what comes after it. -/
theorem postbyteThen {f : Nat → RM → List Byte → Decoded} {tail : List Byte}
    (first : ∀ r, decode86 (op :: r) = withPostbyte f r) (wf : rm.wf = true)
    (row : ∀ rest, f g rm (tail ++ rest) = .ok (i, rest)) (hg : g < 8 := by decide) :
    Decodes (op :: (encodeRm g rm ++ tail)) i := fun rest => by
  rw [List.cons_append, List.append_assoc, first, withPostbyte_encodeRm f wf hg, row]

theorem postbyte {f : Nat → RM → List Byte → Decoded} (first : ∀ r, decode86 (op :: r) = withPostbyte f r)
    (wf : rm.wf = true) (row : ∀ rest, f g rm rest = .ok (i, rest)) (hg : g < 8 := by decide) :
    Decodes (op :: encodeRm g rm) i :=
  fun rest => (first _).trans ((withPostbyte_encodeRm f wf hg rest).trans (row rest))

/-- A postbyte whose field is a register of the instruction. -/
theorem register {f : GReg → RM → Instr} {r : GReg}
    (first : ∀ bs, decode86 (op :: bs) = withPostbyte (fun g rm rest => .ok (f (GReg.ofCode g) rm, rest)) bs)
    (wf : rm.wf = true) : Decodes (op :: encodeRm r.code rm) (f r rm) :=
  postbyte first wf (fun rest => by rw [gReg_ofCode_code]) (gReg_code_lt r)

/-- The same with an operand that must be memory. -/
theorem registerMemory {f : GReg → MemOp → Instr} {m : MemOp} {r : GReg}
    (first : ∀ bs, decode86 (op :: bs) = withPostbyte (fun g rm => memOnly rm (f (GReg.ofCode g))) bs)
    (wf : m.wf = true) : Decodes (op :: encodeRm r.code (.mem m)) (f r m) :=
  postbyte first wf (fun rest => by rw [gReg_ofCode_code]; rfl) (gReg_code_lt r)

/-- The register/memory form of the eight two-operand operations. -/
theorem twoOperand {k : Nat} {d : Dir} {w : Width} {r : GReg} (wf : rm.wf = true) (hk : k < 8 := by decide) :
    Decodes (encAlu k d w r rm) (aluRmR k d w r rm) :=
  register (f := aluRmR k d w) (fun _ => decode86_aluRmR hk d w) wf

theorem accumulator {k : Nat} {v : Imm} (hk : k < 8 := by decide) : Decodes (encAccImm k v) (aluAccImm k v) :=
  imm fun _ => decode86_aluAccImm hk (imm_wCode_lt v)

/-- An ESC that is a row of the VM87 (47_vm87_instructions.md R550). -/
theorem escRow {x y : Nat} (row : fpuRow x y rm = some i) (wf : rm.wf = true) (hx : x < 8) (hy : y < 8) :
    Decodes (byteOf (0xD8 + x) :: encodeRm y rm) i :=
  postbyte (fun _ => decode86_esc hx) wf (fun rest => by simp only [row]) hy

theorem escMemory {x y : Nat} {m : MemOp} (wf : m.wf = true) (row : fpuMem (8 * x + y) m = some i)
    (hx : x < 8 := by decide) (hy : y < 8 := by decide) : Decodes (encFMem x y m) i :=
  escRow (rm := .mem m) row wf hx hy

theorem escRegister {x y n : Nat} (row : fpuReg (8 * x + y) n = some i) (hx : x < 8 := by decide)
    (hy : y < 8 := by decide) (hn : n < 8 := by decide) : Decodes (encFReg x y n) i := by
  have code := gReg_code_ofCode hn
  have bytes : encFReg x y n = byteOf (0xD8 + x) :: encodeRm y (.reg (GReg.ofCode n)) := by
    rw [encFReg, encodeRm, code]
  exact bytes ▸ escRow (by rw [fpuRow, code, row]) rfl hx hy

/-- A row with a stack register: the field r/m is its number. -/
theorem escStack {x y : Nat} {f : BitVec 3 → Instr} {j : BitVec 3}
    (row : ∀ n, fpuReg (8 * x + y) n = some (f (BitVec.ofNat 3 n))) (hx : x < 8 := by decide)
    (hy : y < 8 := by decide) : Decodes (encFReg x y j.toNat) (f j) :=
  escRegister (by rw [row, BitVec.ofNat_toNat, BitVec.setWidth_eq]) hx hy j.isLt

/-- An ESC that is no row of the VM87 (45_processor_control.md R372). -/
theorem escPlain {x y : BitVec 3} (noRow : fpuRow x.toNat y.toNat rm = none) (wf : rm.wf = true) :
    Decodes (byteOf (0xD8 + x.toNat) :: encodeRm y.toNat rm) (.esc x y rm) :=
  postbyte (fun _ => decode86_esc x.isLt) wf
    (fun rest => by simp only [noRow, BitVec.ofNat_toNat, BitVec.setWidth_eq]) y.isLt

end Decodes

/-! ### The instructions -/

/-- Every well-formed instruction of the VM86 and the VM87 has an encoding that stands for it. The cases go by the shape
of the encoding: one byte, one byte with fields, bytes after the opcode, a postbyte, a row of the VM87. -/
theorem decodes_encode (i : Instr) (wf : i.wf = true) (cpu : i.isIop = false) : Decodes (encode i) i := by
  cases i
  case nop | cbw | cwd | wait | pushf | popf | sahf | lahf => exact fun _ => decode86_9x
  case daa | das | aaa | aas => exact fun _ => decode86_0x
  case retNear | retFar | int3 | into | iret | intN => exact fun _ => decode86_Cx
  case aam | aad | xlat => exact fun _ => decode86_Dx
  case jmpShort | loopne | loope | loop | jcxz => exact fun _ => decode86_Ex
  case lockPrefix | hlt | cmc | clc | stc | cli | sti | cld | std => exact fun _ => decode86_Fx
  case jo | jno | jb | jnb | je | jne | jbe | ja | js | jns | jp | jnp | jl | jge | jle | jg =>
    exact fun _ => decode86_7x
  case incR r => cases r <;> exact fun _ => decode86_incR
  case decR r => cases r <;> exact fun _ => decode86_decR
  case pushR r => cases r <;> exact fun _ => decode86_pushR
  case popR r => cases r <;> exact fun _ => decode86_popR
  case xchgAxR r =>
    cases r with
    | ax => nomatch wf
    | _ => exact fun _ => decode86_9x
  case pushSr sr | segPrefix sr => cases sr <;> exact fun _ => decode86_0x
  case popSr sr =>
    cases sr with
    | cs => nomatch wf
    | _ => exact fun _ => decode86_0x
  case movs w | cmps w | scas w | lods w | stos w => cases w <;> exact fun _ => decode86_Ax
  case inPort w _ | inDx w | outPort w _ | outDx w => cases w <;> exact fun _ => decode86_Ex
  case repPrefix z => cases z <;> exact fun _ => decode86_Fx
  case retNearImm | retFarImm => exact .word fun _ => decode86_Cx
  case jmpNear | callNear => exact .word fun _ => decode86_Ex
  case movAcc d w _ => cases d <;> cases w <;> exact .word fun _ => decode86_Ax
  case jmpFar => exact .words fun _ => decode86_Ex
  case callFar => exact .words fun _ => decode86_9x
  case movRImm r v => exact .imm fun _ => decode86_movRImm (imm_wCode_lt v) r
  case testAccImm v => exact .imm fun _ => decode86_testAccImm (imm_wCode_lt v)
  case addAccImm | orAccImm | adcAccImm | sbbAccImm | andAccImm | subAccImm | xorAccImm | cmpAccImm => exact .accumulator
  case addRmR | orRmR | adcRmR | sbbRmR | andRmR | subRmR | xorRmR | cmpRmR => exact .twoOperand wf
  case addRmImm v | adcRmImm v | sbbRmImm v | subRmImm v | cmpRmImm v =>
    exact .postbyteThen (fun _ => decode86_group1 (aluImm_swCode_lt v)) wf (withAluImm_bytes _ v)
  case orRmImm v | andRmImm v | xorRmImm v =>
    have sw := imm_wCode_lt v
    exact .postbyteThen (fun _ => decode86_group1 (Nat.lt_trans sw (by decide))) wf
      fun rest => (if_pos sw).trans (withImm_bytes _ v rest)
  case movRmImm v => exact .postbyteThen (fun _ => decode86_movRmImm (imm_wCode_lt v)) wf (withImm_bytes _ v)
  case testRmImm v =>
    exact .postbyteThen (fun r => (decode86_group3 (imm_wCode_lt v)).trans (decodeGroup3.eq_def _ r)) wf
      (withImm_bytes _ v)
  case movRmR d w _ _ => cases d <;> cases w <;> exact .register (fun _ => decode86_8x) wf
  case xchgRRm w _ _ | testRmR w _ _ => cases w <;> exact .register (fun _ => decode86_8x) wf
  case lea => exact .registerMemory (fun _ => decode86_8x) wf
  case lds | les => exact .registerMemory (fun _ => decode86_Cx) wf
  case movRmSr sr _ =>
    exact .postbyte (fun _ => decode86_movRmSr) wf (by cases sr <;> exact fun _ => rfl) (sReg_code_lt sr)
  case movSrRm sr _ =>
    cases sr with
    | cs => nomatch wf
    | _ => exact .postbyte (fun _ => decode86_movSrRm) wf fun _ => rfl
  case popRm => exact .postbyte (fun _ => decode86_popRm) wf fun _ => rfl
  case pushRm | jmpRm | jmpMem | callRm | callMem => exact .postbyte (fun _ => decode86_group5) wf fun _ => rfl
  case incRm w _ | decRm w _ =>
    cases w with
    | byte => exact .postbyte (fun _ => decode86_group4) wf fun _ => rfl
    | word => exact .postbyte (fun _ => decode86_group5) wf fun _ => rfl
  case notRm w _ | negRm w _ | mulRm w _ | imulRm w _ | divRm w _ | idivRm w _ =>
    cases w <;> exact .postbyte (fun r => (decode86_group3 (by decide)).trans (decodeGroup3.eq_def _ r)) wf fun _ => rfl
  case rolRm c w _ | rorRm c w _ | rclRm c w _ | rcrRm c w _ | shlRm c w _ | shrRm c w _ | sarRm c w _ =>
    cases c <;> cases w <;>
      exact .postbyte (fun r => (decode86_group2 _ _).trans (decodeGroup2.eq_def _ r)) wf fun _ => rfl
  case esc =>
    obtain ⟨noRow, wf⟩ := Bool.and_eq_true_iff.mp wf
    exact .escPlain (Option.isNone_iff_eq_none.mp noRow) wf
  case fldSti | fstSti | fstpSti | fxchSti | fcomSti | fcompSti | faddStSti | faddStiSt | faddpStiSt
      | fmulStSti | fmulStiSt | fmulpStiSt | fsubStSti | fsubStiSt | fsubrStSti | fsubrStiSt | fdivStSti
      | fdivStiSt | fdivrStSti | fdivrStiSt | fsubpStiSt | fsubrpStiSt | fdivpStiSt | fdivrpStiSt
      | ffreeSti => exact .escStack fun _ => rfl
  case fldz | fld1 | fldpi | fldl2t | fldl2e | fldlg2 | fldln2 | fcompp | ftst | fxam | fsqrt | fscale | fprem | frndint
      | fxtract | fabs | fchs | fptan | fpatan | f2xm1 | fyl2x | fyl2xp1 | fincstp | fdecstp | fnop | finit | feni
      | fdisi | fclex => exact .escRegister rfl
  case fldM32 | fldM64 | fldM80 | fildM16i | fildM32i | fildM64i | fbldM80 | fstM32 | fstM64 | fistM16i | fistM32i
      | fstpM32 | fstpM64 | fstpM80 | fistpM16i | fistpM32i | fistpM64i | fbstpM80 | fcomM32 | fcomM64 | ficomM16i
      | ficomM32i | fcompM32 | fcompM64 | ficompM16i | ficompM32i | faddM32 | faddM64 | fiaddM16i | fiaddM32i | fmulM32
      | fmulM64 | fimulM16i | fimulM32i | fsubM32 | fsubM64 | fsubrM32 | fsubrM64 | fdivM32 | fdivM64 | fdivrM32
      | fdivrM64 | fisubM16i | fisubM32i | fisubrM16i | fisubrM32i | fidivM16i | fidivM32i | fidivrM16i | fidivrM32i
      | fldcw | fstcw | fstsw | fstenv | fldenv | fsave | frstor => exact .escMemory wf rfl
  all_goals nomatch cpu

/-- Settles O38: the rule for the shape of its encoding decodes every instruction. -/
theorem encodingsOfTheCpuDecode : Obligations.EncodingsOfTheCpuDecode :=
  fun i rest wf cpu => decodes_encode i wf cpu rest

/-- Decoding some bytes gives the instruction that they are the encoding of. -/
theorem toOption_decode86 (i : Instr) {bytes rest : List Byte} (wf : i.wf = true) (cpu : i.isIop = false)
    (h : encode i ++ rest = bytes) : (decode86 bytes).toOption = some (i, rest) := by
  rw [← h, decodes_encode i wf cpu rest]
  rfl

/-- Settles O40: the words of the VM86 and the VM87 are encodings; the first-byte map gives the two refusals. -/
theorem wordsDecode : Obligations.WordsDecode := by
  have popCs : decode86 [0x0F#8] = .error .loadCs := decode86_0x
  have unused : decode86 [0x60#8] = .error .unusedOpcode := decode86_6x
  refine ⟨toOption_decode86 _ rfl rfl rfl, toOption_decode86 _ rfl rfl rfl, toOption_decode86 _ rfl rfl rfl,
    toOption_decode86 _ rfl rfl rfl, toOption_decode86 _ rfl rfl rfl, toOption_decode86 _ rfl rfl rfl,
    toOption_decode86 _ rfl rfl rfl, toOption_decode86 _ rfl rfl rfl, toOption_decode86 _ rfl rfl rfl, ?_, ?_, ?_⟩
  · rw [popCs]
  · rw [unused]
  · exact ⟨rfl, rfl, rfl⟩

end Sys2Proof.Certificates.Encoding

/-! SUPPORT and CERTIFICATES. Data transfer: each instruction is a read of the bus, an update of the CPU, or a store, and
the laws of these three give what it delivers and what it leaves unchanged. -/

namespace Sys2Proof.Certificates.DataTransfer

open Sys2Proof.Machine Sys2Proof.Certificates.Registers

/-! ### A register read after a write (10_state.md R20, R21) -/

/-- A value of the width: what a register of that width, written with it, reads back as. -/
def OfWidth (w : Width) (v : Word) : Prop := w = .byte → zext (lowByte v) = v

theorem reg_ofWidth (c : Cpu) (w : Width) (r : GReg) : OfWidth w (c.reg w r) := fun e => by
  subst e
  exact congrArg zext (lowByte_zext _)

theorem reg_setReg (c : Cpu) {w : Width} {v : Word} (fits : OfWidth w v) (r q : GReg) :
    (c.setReg w r v).reg w q = if q = r then v else c.reg w q := by
  cases w with
  | byte =>
    rw [Cpu.reg, Cpu.setReg, reg8_setReg8, apply_ite zext, fits rfl]
    rfl
  | word => exact c.reg16_setReg16 r q v

/-- Two registers change places, also when they are the same. -/
theorem reg_exchange (c : Cpu) (w : Width) (r q : GReg) :
    let d := (c.setReg w q (c.reg w r)).setReg w r (c.reg w q)
    d.reg w r = c.reg w q ∧ d.reg w q = c.reg w r := by
  simp only [reg_setReg _ (reg_ofWidth c w _), if_true, true_and]
  split
  · rename_i same; rw [same]
  · rfl

/-! ### Updates of the CPU, after reads of the bus -/

/-- A new CPU and another index of the next free value change nothing outside the CPU. -/
theorem sameOutside_update (s : State) (c : Cpu) (n : Nat) : s.SameOutside { s with cpu := c, free := n } :=
  ⟨⟨rfl, rfl⟩, rfl, ⟨rfl, rfl⟩, rfl, rfl, .refl s, fun _ => rfl⟩

theorem quiet_loads {s t : State} (h : s.Quiet t) (g : Cpu → Cpu) : s.Loads { t with cpu := g t.cpu } (g s.cpu) := by
  obtain ⟨cpu, mem, beyond⟩ := h
  exact ⟨by rw [cpu], fun a => by simp only [State.byteAt, mem], beyond⟩

theorem quiet_stores {s t u : State} (h : s.Quiet t) {c : Cpu} {n : Nat} {addr : Nat → Nat} {v : Nat}
    (g : t.Stores u c n addr v) : s.Stores u c n addr v := by
  obtain ⟨cpu, stored, beyond⟩ := g
  exact ⟨cpu, h.stored stored, h.2.2.trans beyond⟩

/-- A register written after a store. -/
theorem stores_setReg {s t : State} {c : Cpu} {n : Nat} {addr : Nat → Nat} {v : Nat} (h : s.Stores t c n addr v)
    (w : Width) (r : GReg) (x : Word) : s.Stores (t.setReg w r x) (c.setReg w r x) n addr v := by
  obtain ⟨cpu, stored, beyond⟩ := h
  exact ⟨Cpu.core_setReg cpu w r x, stored, beyond⟩

theorem writeRm_delivers (s : State) (w : Width) (rm : RM) (v : Word) :
    s.Delivers (s.writeRm s.cpu w rm v) w rm v s.cpu.f :=
  State.writeRm_spec rfl rfl (.refl s) w rm v

/-! ### MOV (40_data_transfer.md R200-R205) -/

/-- Settles O4: the source is read without an effect on the CPU or the memory, then delivered. -/
theorem movMovesTheOperand : Obligations.MovMovesTheOperand := by
  refine ⟨fun w r rm s => ?_, fun w r rm s => ?_, fun rm s => ⟨fun b => ?_, fun v => ?_⟩,
    fun r s => ⟨fun b => ?_, fun v => ?_⟩⟩
  · exact ⟨_, rfl, writeRm_delivers s w rm _⟩
  · exact ⟨_, s.readRm_value w rm, _, rfl, (s.readRm_quiet w rm).setReg w r _ rfl⟩
  · exact ⟨_, rfl, writeRm_delivers s .byte rm _⟩
  · exact ⟨_, rfl, writeRm_delivers s .word rm v⟩
  · exact ⟨_, rfl, writeRm_delivers s .byte (.reg r) _⟩
  · exact ⟨_, rfl, writeRm_delivers s .word (.reg r) v⟩

/-- Settles O5: the accumulator forms are MOV with a direct address; a segment register loaded is one update of the CPU
after the read of the operand. -/
theorem accumulatorAndSegmentMoves : Obligations.AccumulatorAndSegmentMoves := by
  refine ⟨fun w a s => ?_, fun w a s => ?_, fun sr rm s => ?_, fun sr rm s _ => ?_⟩
  · exact ⟨_, s.readOp_value w _, _, rfl, (s.readOp_quiet w _).setReg w .ax _ rfl⟩
  · exact ⟨_, rfl, writeRm_delivers s w (.mem (.direct a)) _⟩
  · exact ⟨_, rfl, writeRm_delivers s .word rm _⟩
  · exact ⟨_, s.readRm_value .word rm, _, rfl,
      quiet_loads (s.readRm_quiet .word rm) fun c => { c.setSreg sr _ with inhibit := true }⟩

/-! ### XCHG and NOP (R206, R207, 45_processor_control.md R368) -/

/-- Settles O6: two registers by `reg_exchange`; with a memory operand a read, a store and a register written. -/
theorem xchgExchanges : Obligations.XchgExchanges := by
  refine ⟨fun w r q s => ?_, fun w r m s => ?_, fun r s => ?_, fun s => ⟨rfl, rfl⟩⟩
  · exact ⟨_, rfl, sameOutside_update s _ s.free, rfl, reg_exchange s.cpu w r q⟩
  · have read := s.readOp_quiet w m
    have stored : s.Delivers _ w (.mem m) (s.reg w r) s.cpu.f :=
      State.writeRm_spec read.1 read.2.1 read.2.2 w (.mem m) _
    exact ⟨_, s.readOp_value w m, _, rfl, stores_setReg stored w r _⟩
  · obtain ⟨toR, toAx⟩ := reg_exchange s.cpu .word r .ax
    exact ⟨_, rfl, sameOutside_update s _ s.free, rfl, toAx, toR⟩

/-! ### Pointers, tables and the flag byte (R208-R213) -/

/-- Settles O7: reads of the table and of the far pointer, each followed by one update of the CPU; LEA reads nothing. -/
theorem pointerAndTableLoads : Obligations.PointerAndTableLoads := by
  refine ⟨fun s => ?_, fun r m s => ?_, fun r m s => ?_, fun r m s => ?_⟩
  · exact ⟨_, s.read8_value _, _, rfl, (s.readMem_quiet .byte _ _).setReg .byte .ax _ rfl⟩
  · exact ⟨_, rfl, rfl, sameOutside_update s _ s.free⟩
  · exact ⟨_, _, s.readFar_value m, _, rfl, quiet_loads (s.readFar_quiet m) fun c => { c.setReg16 r _ with ds := _ }⟩
  · exact ⟨_, _, s.readFar_value m, _, rfl, quiet_loads (s.readFar_quiet m) fun c => { c.setReg16 r _ with es := _ }⟩

/-- The low byte of F holds its five flags in their places (10_state.md R26). -/
theorem lowByte_toWord_bits (f : Flags) (u : Word) :
    let b := lowByte (f.toWord u)
    b.getLsbD 7 = f.sf ∧ b.getLsbD 6 = f.zf ∧ b.getLsbD 4 = f.af ∧ b.getLsbD 2 = f.pf ∧ b.getLsbD 0 = f.cf := by
  obtain ⟨b7, b6, b4, -, b2, -, b0⟩ := bit_byteBits f.sf f.zf (bit u 5) f.af (bit u 3) f.pf (bit u 1) f.cf
  rw [Flags.toWord, lowByte_wordOf]
  exact ⟨b7, b6, b4, b2, b0⟩

theorem bit_highByte (v : Word) {k : Nat} (h : k < 8) : bit (highByte v) k = v.getLsbD (8 + k) := by
  simp only [bit, highByte, BitVec.getLsbD, BitVec.toNat_ofNat, Nat.testBit_mod_two_pow, h, decide_true, Bool.true_and]
  rw [Nat.add_comm]
  exact Nat.testBit_div_two_pow (n := 8) v.toNat k

/-- Settles O8: AH is the low byte of F, and SAHF takes the flags from the same places. -/
theorem flagByteTransfers : Obligations.FlagByteTransfers := by
  refine ⟨fun s => ?_, fun s => ?_⟩
  · refine ⟨lowByte (s.cpu.f.toWord (Config.freeWord s.free)), ⟨_, rfl, ?_, sameOutside_update s _ (s.free + 1)⟩,
      lowByte_toWord_bits _ _⟩
    exact congrArg (fun b => (s.cpu.setReg8 .sp b).core) (lowByte_zext _)
  · refine ⟨_, rfl, ?_, sameOutside_update s _ s.free⟩
    have bits (k : Nat) (h : k < 8) : bit (s.cpu.reg8 .sp) k = s.cpu.ax.getLsbD (8 + k) := bit_highByte s.cpu.ax h
    rw [State.setFlags_cpu, bits 7 (by decide), bits 6 (by decide), bits 4 (by decide), bits 2 (by decide),
      bits 0 (by decide)]

/-! ### The stack (R214-R221) -/

/-- PUSH of any register but SP pushes what it holds (R215). -/
theorem pushReg_of_ne {r : GReg} (h : r ≠ .sp) (s : State) : s.pushReg r = s.push16 (s.cpu.reg16 r) := by
  cases r with
  | sp => exact absurd rfl h
  | _ => rfl

/-- Settles O9: each form is a push of a word, after a read of the bus or of an unknown word for the bits of F that hold
nothing. -/
theorem pushStoresBelowTheTop : Obligations.PushStoresBelowTheTop := by
  refine ⟨fun r s h => ?_, fun s => ?_, fun m s => ?_, fun sr s => ?_, fun s => ?_⟩
  · have pushed := s.push16_spec (s.cpu.reg16 r)
    rw [← pushReg_of_ne h] at pushed
    exact ⟨⟨_, rfl, pushed⟩, ⟨_, rfl, pushed⟩⟩
  · exact ⟨⟨_, rfl, s.push16_spec _⟩, ⟨_, rfl, s.push16_spec _⟩⟩
  · have read := s.readOp_quiet .word m
    have pushed := quiet_stores read ((s.readOp .word m).2.push16_spec (s.readOp .word m).1)
    rw [read.1] at pushed
    exact ⟨_, s.readOp_value .word m, _, rfl, pushed⟩
  · exact ⟨_, rfl, s.push16_spec _⟩
  · exact ⟨_, s.cpu.f.ofWord_toWord _, _, rfl, quiet_stores s.bump_quiet (s.bump.push16_spec _)⟩

/-- The machine with SP past the word on the top of the stack. -/
def dropTop (s : State) : State := { s with cpu := { s.cpu with sp := s.cpu.sp + 2#16 } }

/-- A pop is a read of the bus, but for SP (20_memory.md R108). -/
theorem pop16_quiet (s : State) : (dropTop s).Quiet (s.pop16).2 := s.pop16_spec

/-- No effective address uses SP (R135). -/
theorem memAddr_dropTop (s : State) (m : MemOp) : (dropTop s).cpu.memAddr m = s.cpu.memAddr m := by
  have base (e : EaRow) : (dropTop s).cpu.baseIndex e = s.cpu.baseIndex e := by cases e <;> rfl
  have ea : (dropTop s).cpu.ea m = s.cpu.ea m := by cases m <;> simp only [Cpu.ea, base]
  funext k
  rw [Cpu.memAddr, ea]
  rfl

/-- Settles O10: the word on the top is read, SP moves, and the word is loaded or stored. -/
theorem popLoadsTheTop : Obligations.PopLoadsTheTop := by
  refine ⟨fun r s => ?_, fun m s => ?_, fun sr s _ => ?_, fun s => ?_⟩
  · have popped := quiet_loads (pop16_quiet s) fun c => c.setReg16 r (s.pop16).1
    exact ⟨_, s.pop16_value, ⟨_, rfl, popped⟩, ⟨_, rfl, popped⟩⟩
  · obtain ⟨cpu, mem, beyond⟩ := pop16_quiet s
    have runs : exec (.popRm (.mem m)) s =
        .next ((s.pop16).2.writeRm (dropTop s).cpu .word (.mem m) (s.pop16).1) := by
      rw [← cpu]
      rfl
    have stored : (dropTop s).Stores _ (dropTop s).cpu 2 ((dropTop s).cpu.memAddr m) _ :=
      State.writeRm_spec cpu mem beyond .word (.mem m) (s.pop16).1
    rw [memAddr_dropTop] at stored
    exact ⟨_, s.pop16_value, _, runs, stored⟩
  · exact ⟨_, s.pop16_value, _, rfl,
      quiet_loads (pop16_quiet s) fun c => { c.setSreg sr _ with inhibit := true }⟩
  · exact ⟨_, s.pop16_value, _, rfl, quiet_loads (pop16_quiet s) fun c => { c with f := Flags.ofWord _ }⟩

end Sys2Proof.Certificates.DataTransfer

/-! SUPPORT and CERTIFICATES. Ports: what answers at a port, when a word is one bus cycle, and IN and OUT. -/

namespace Sys2Proof.Certificates.Ports

open Sys2Proof.Machine

/-! ### What answers (20_memory.md R116, 49_platform_devices.md R781) -/

theorem isRu55_iff (k : RegionKind) : isRu55 k = true ↔ ∃ j, k = .device .ru55 j := by
  cases k with
  | device d _ => cases d <;> simp [isRu55]
  | _ => simp [isRu55]

theorem isCa_iff (k : RegionKind) : isCa k = true ↔ ∃ j, k = .device .iopCa j := by
  cases k with
  | device d _ => cases d <;> simp [isCa]
  | _ => simp [isCa]

theorem copiedPort_toNat (p : Word) : (copiedPort p).toNat = p.toNat % 2 ^ 8 * 257 := by
  simp only [copiedPort, wordOf, lowByte, BitVec.toNat_ofNat, Nat.reducePow, Nat.mod_mod]
  omega

/-- The port in DX, and any port of a VM86, is looked up in the map as it is. -/
theorem portPlace_plain {s : State} {direct : Bool} (h : direct = false ∨ s.plat.vm88 = false) (p : Word) :
    s.portPlace direct p = findRegion .absent p.toNat s.plat.ioMap := by
  have plain : (direct && s.plat.vm88) = false := by
    obtain h | h := h <;> simp [h]
  simp [State.portPlace, plain]

/-- A direct port of a VM88: the RU55 answers where it is selected by the copy, and there alone. -/
theorem portPlace_direct88 {s : State} (h : s.plat.vm88 = true) (p : Word) :
    s.portPlace true p =
      if isRu55 (findRegion .absent (copiedPort p).toNat s.plat.ioMap).1 then
        findRegion .absent (copiedPort p).toNat s.plat.ioMap
      else if isRu55 (findRegion .absent p.toNat s.plat.ioMap).1 then (.absent, p.toNat)
      else findRegion .absent p.toNat s.plat.ioMap := by
  simp [State.portPlace, h]

/-! ### One byte (R116, R119) -/

theorem in8_device {s : State} {direct : Bool} {p : Word} {d : Dev} {k o : Nat}
    (h : s.portPlace direct p = (.device d k, o)) : s.in8 direct p = s.devRead d (o / 2 ^ k) := by
  rw [State.in8, h]

theorem out8_device {s : State} {direct : Bool} {p : Word} {d : Dev} {k o : Nat}
    (h : s.portPlace direct p = (.device d k, o)) (v : Byte) : s.out8 direct p v = s.devWrite d (o / 2 ^ k) v := by
  rw [State.out8, h]

theorem portPlace_of_kind {s : State} {direct : Bool} {p : Word} {k : RegionKind} (h : portKind s direct p = k) :
    s.portPlace direct p = (k, (s.portPlace direct p).2) := Prod.ext h rfl

theorem in8_memory {s : State} {direct : Bool} {p : Word}
    (h : portKind s direct p = .ram ∨ portKind s direct p = .rom) : s.in8 direct p = (s.iomem.get p.toNat, s) := by
  obtain h | h := h <;> rw [State.in8, portPlace_of_kind h]

theorem out8_ram {s : State} {direct : Bool} {p : Word} (h : portKind s direct p = .ram) (v : Byte) (x : Nat) :
    (s.out8 direct p v).iomem.get x = if x = p.toNat then v else s.iomem.get x := by
  rw [(s.out8_spec direct p v).2, if_pos (show (s.portPlace direct p).1 = .ram from h), Memory.get_put]

theorem out8_lost {s : State} {direct : Bool} {p : Word}
    (h : portKind s direct p = .rom ∨ portKind s direct p = .absent) (v : Byte) : s.out8 direct p v = s := by
  obtain h | h := h <;> rw [State.out8, portPlace_of_kind h]

/-! ### One word (10_state.md R83, R113) -/

/-- A word is one cycle for the CA decoder exactly on a VM86, at an even port, with the decoder at both ports. -/
theorem oneCa_iff (s : State) (direct : Bool) (p : Word) :
    s.oneCa .absent s.plat.ioMap p.toNat (p + 1#16).toNat = true ↔
      s.plat.vm88 = false ∧ p.getLsbD 0 = false ∧ (∃ k, portKind s direct p = .device .iopCa k) ∧
        ∃ k, portKind s direct (p + 1#16) = .device .iopCa k := by
  by_cases cpu : s.plat.vm88 = false
  · have odd : p.getLsbD 0 = decide (p.toNat % 2 = 1) := by
      simp [BitVec.getLsbD, Nat.testBit_zero]
    have next (even : p.toNat % 2 = 0) : (p + 1#16).toNat = p.toNat + 1 := by
      have := p.isLt
      simp only [BitVec.toNat_add, BitVec.toNat_ofNat]
      omega
    simp only [State.oneCa, portKind, portPlace_plain (.inr cpu), cpu, odd, Bool.and_eq_true, beq_iff_eq, isCa_iff,
      Bool.not_false, true_and, and_assoc, decide_eq_false_iff_not, Nat.mod_two_not_eq_one]
    exact ⟨fun ⟨even, _, rest⟩ => ⟨even, rest⟩, fun ⟨even, rest⟩ => ⟨even, next even, rest⟩⟩
  · simp [State.oneCa, cpu]

/-- Two cycles, the low byte first. -/
theorem word_of_not_oneCa {s : State} {p : Word}
    (h : ¬s.oneCa .absent s.plat.ioMap p.toNat (p + 1#16).toNat = true) (direct : Bool) (v : Word) :
    let l := s.in8 direct p
    s.ioRead direct .word p = (wordOf l.1 (l.2.in8 direct (p + 1#16)).1, (l.2.in8 direct (p + 1#16)).2) ∧
      s.ioWrite direct .word p v = (s.out8 direct p (lowByte v)).out8 direct (p + 1#16) (highByte v) := by
  simp only [State.ioRead, State.ioWrite, if_neg h, and_self]

/-- One cycle, whose high byte is unknown in a read and lost in a write. -/
theorem word_of_oneCa {s : State} {p : Word}
    (h : s.oneCa .absent s.plat.ioMap p.toNat (p + 1#16).toNat = true) (direct : Bool) (v : Word) :
    s.ioWrite direct .word p v = s.out8 direct p (lowByte v) ∧
      s.ioRead direct .word p =
        (wordOf (s.in8 direct p).1 (Config.freeByte (s.in8 direct p).2.free), (s.in8 direct p).2.bump) := by
  simp only [State.ioRead, State.ioWrite, if_pos h, State.takeByte, and_self]

/-! ### IN and OUT (40_data_transfer.md R222-R225) -/

theorem inputs_of_exec {s : State} {i : Instr} {direct : Bool} {w : Width} {p : Word}
    (h : exec i s = .next ((s.ioRead direct w p).2.setAcc w (s.ioRead direct w p).1)) : Inputs s i direct w p :=
  ⟨h, _, h, (s.ioRead_quiet direct w p).setReg w .ax _ rfl⟩

theorem outputs_of_exec {s : State} {i : Instr} {direct : Bool} {w : Width} {p v : Word}
    (h : exec i s = .next (s.ioWrite direct w p v)) : Outputs s i direct w p v := by
  obtain ⟨⟨cpu, mem, beyond⟩, ports⟩ := s.ioWrite_spec direct w p v
  exact ⟨h, congrArg Cpu.core cpu, fun a => by rw [State.byteAt, mem, State.byteAt], beyond, ports⟩

/-- Settles O11: the four instructions are one port access each; then what answers, a byte at a device, a word in one
cycle or in two, and memory or nothing at the port. -/
theorem inAndOutUseThePort : Obligations.InAndOutUseThePort := by
  refine ⟨fun w p s => ?_, fun w s => inputs_of_exec rfl, fun w p s => ?_, fun w s => outputs_of_exec rfl,
    fun s direct p => ⟨fun h => portPlace_plain h p, fun isDirect cpu => ?_⟩,
    fun s direct p d k o h => ⟨in8_device h, out8_device h⟩, fun s direct p v => ⟨rfl, rfl, fun two => ?_, ?_⟩,
    fun s direct p v => ⟨in8_memory, fun h => out8_ram h v, fun h => out8_lost h v⟩⟩
  · exact inputs_of_exec (by rw [← Registers.zext_eq]; rfl)
  · exact outputs_of_exec (by rw [← Registers.zext_eq]; rfl)
  · subst isDirect
    simp only [← isRu55_iff, ← copiedPort_toNat, portKind, portPlace_direct88 cpu]
    exact ⟨fun c => if_pos c, fun nc c => by rw [if_neg nc, if_pos c], fun nc np => by rw [if_neg nc, if_neg np]⟩
  · refine word_of_not_oneCa (fun one => ?_) direct v
    obtain ⟨vm86, even, ⟨_, lo⟩, _, hi⟩ := (oneCa_iff s direct p).mp one
    obtain vm88 | odd | noLo | noHi := two
    · exact absurd (vm86.symm.trans vm88) (by decide)
    · exact absurd (even.symm.trans odd) (by decide)
    · exact noLo _ lo
    · exact noHi _ hi
  · intro vm86 even lo hi
    obtain ⟨written, read⟩ := word_of_oneCa ((oneCa_iff s direct p).mpr ⟨vm86, even, lo, hi⟩) direct v
    exact ⟨written, _, read⟩

end Sys2Proof.Certificates.Ports

/-! SUPPORT and CERTIFICATES. The arithmetic instructions: each reads an operand, sets flags and delivers a result;
the products and quotients of the model, of natural numbers, against the signed and unsigned ones of the statements. -/

namespace Sys2Proof.Certificates.ArithmeticInstructions

open Sys2Proof.Machine Sys2Proof.Certificates.Registers Sys2Proof.Certificates.Arithmetic
  Sys2Proof.Certificates.DataTransfer

/-! ### Flags and a result after a read of the bus -/

/-- An instruction that sets the flags after reads of the bus and writes a result to its operand. -/
theorem gives_of_quiet {s t : State} {i : Instr} {w : Width} {rm : RM} {v : Word} {f : Flags} (h : s.Quiet t)
    (runs : exec i s = .next ((t.setFlags f).writeRm s.cpu w rm v)) : Gives s i w rm v f := by
  obtain ⟨cpu, mem, beyond⟩ := h
  have flags : (t.setFlags f).cpu = { s.cpu with f := f } := by rw [State.setFlags_cpu, cpu]
  exact ⟨_, runs, State.writeRm_spec flags mem beyond w rm v⟩

/-- An instruction that sets the flags after reads of the bus and writes no operand. -/
theorem becomes_of_quiet {s t : State} {i : Instr} {f : Flags} (h : s.Quiet t)
    (runs : exec i s = .next (t.setFlags f)) : Becomes s i { s.cpu with f := f } :=
  ⟨_, runs, quiet_loads h fun c => { c with f := f }⟩

/-! ### ADD, ADC, SUB, SBB and CMP (41_arithmetic.md R232-R237) -/

/-- The flags of the five arithmetic operations, with the old CF where it takes part; CMP is a subtraction. -/
def arithFlags (op : AluOp) (f : Flags) (w : Width) (a b : Word) : Flags :=
  match op with
  | .add => f.add w a b false
  | .adc => f.add w a b f.cf
  | .sbb => f.sub w a b f.cf
  | _ => f.sub w a b false

/-- The operations whose flags are those of an addition or a subtraction. -/
def isArithmetic : AluOp → Bool
  | .add | .adc | .sub | .sbb | .cmp => true
  | _ => false

theorem aluFlags_arithmetic {op : AluOp} (h : isArithmetic op = true) (s : State) (w : Width) (a b : Word) :
    s.aluFlags op w a b = s.setFlags (arithFlags op s.cpu.f w a b) := by
  cases op with
  | add | adc | sub | sbb | cmp => rfl
  | and | or | xor | test => exact absurd h Bool.false_ne_true

section
variable {op : AluOp} (arith : isArithmetic op = true) {s : State} {w : Width} {rm : RM} {i : Instr}
include arith

/-- The left operand is r/m, and takes the result. -/
theorem gives_aluToRm {b : Word} (writes : op.writes = true) (runs : exec i s = aluToRm op w rm b s) :
    let a := (s.readRm w rm).1
    Gives s i w rm (op.result w a b s.cpu.f.cf) (arithFlags op s.cpu.f w a b) := by
  have read := s.readRm_quiet w rm
  refine gives_of_quiet read (runs.trans ?_)
  simp only [aluToRm, writes, if_true, aluFlags_arithmetic arith, read.1]

/-- The left operand is a register, and takes the result. -/
theorem gives_aluToReg {r : GReg} (writes : op.writes = true) (runs : exec i s = aluRmReg op .toReg w r rm s) :
    let b := (s.readRm w rm).1
    Gives s i w (.reg r) (op.result w (s.cpu.reg w r) b s.cpu.f.cf) (arithFlags op s.cpu.f w (s.cpu.reg w r) b) := by
  have read := s.readRm_quiet w rm
  refine gives_of_quiet read (runs.trans ?_)
  simp only [aluRmReg, writes, if_true, aluFlags_arithmetic arith, read.1, State.writeRm, State.reg]

end

section
variable {s : State} {w : Width} {rm : RM} {i : Instr}

/-- CMP with r/m on the left. -/
theorem becomes_cmpToRm {b : Word} (runs : exec i s = aluToRm .cmp w rm b s) :
    Becomes s i { s.cpu with f := s.cpu.f.sub w (s.readRm w rm).1 b false } := by
  have read := s.readRm_quiet w rm
  refine becomes_of_quiet read (runs.trans ?_)
  rw [← read.1]
  rfl

/-- CMP with a register on the left. -/
theorem becomes_cmpToReg {r : GReg} (runs : exec i s = aluRmReg .cmp .toReg w r rm s) :
    Becomes s i { s.cpu with f := s.cpu.f.sub w (s.cpu.reg w r) (s.readRm w rm).1 false } := by
  have read := s.readRm_quiet w rm
  refine becomes_of_quiet read (runs.trans ?_)
  have flags := aluFlags_arithmetic (op := .cmp) rfl (s.readRm w rm).2 w (s.cpu.reg w r) (s.readRm w rm).1
  rw [read.1] at flags
  exact congrArg _ flags

end

/-- Settles O12: each form reads its operand and is one arithmetic operation on it, from the right or from the left. -/
theorem addSubtractCompare : Obligations.AddSubtractCompare := by
  refine fun s => ⟨fun w r rm => ⟨_, s.readRm_value w rm, ?_⟩, fun w r rm => ⟨_, s.readRm_value w rm, ?_⟩,
    fun rm v => ⟨_, s.readRm_value (aluWidth v) rm, ?_⟩, fun v => ?_⟩
  · exact ⟨gives_aluToRm (op := .add) rfl rfl rfl, gives_aluToRm (op := .adc) rfl rfl rfl,
      gives_aluToRm (op := .sub) rfl rfl rfl, gives_aluToRm (op := .sbb) rfl rfl rfl, becomes_cmpToRm rfl⟩
  · exact ⟨gives_aluToReg (op := .add) rfl rfl rfl, gives_aluToReg (op := .adc) rfl rfl rfl,
      gives_aluToReg (op := .sub) rfl rfl rfl, gives_aluToReg (op := .sbb) rfl rfl rfl, becomes_cmpToReg rfl⟩
  · exact ⟨gives_aluToRm (op := .add) rfl rfl rfl, gives_aluToRm (op := .adc) rfl rfl rfl,
      gives_aluToRm (op := .sub) rfl rfl rfl, gives_aluToRm (op := .sbb) rfl rfl rfl, becomes_cmpToRm rfl⟩
  · exact ⟨gives_aluToRm (op := .add) rfl rfl rfl, gives_aluToRm (op := .adc) rfl rfl rfl,
      gives_aluToRm (op := .sub) rfl rfl rfl, gives_aluToRm (op := .sbb) rfl rfl rfl,
      ⟨_, rfl, rfl, sameOutside_update s _ s.free⟩⟩

/-! ### INC, DEC and NEG (R238-R240) -/

theorem gives_inc (s : State) {i : Instr} {w : Width} {rm : RM} (runs : exec i s = incOp w rm s) :
    let a := (s.readRm w rm).1
    Gives s i w rm (addResult w a 1#16 false) { s.cpu.f.add w a 1#16 false with cf := s.cpu.f.cf } := by
  have read := s.readRm_quiet w rm
  exact gives_of_quiet read (runs.trans (by simp only [incOp, read.1]))

theorem gives_dec (s : State) {i : Instr} {w : Width} {rm : RM} (runs : exec i s = decOp w rm s) :
    let a := (s.readRm w rm).1
    Gives s i w rm (subResult w a 1#16 false) { s.cpu.f.sub w a 1#16 false with cf := s.cpu.f.cf } := by
  have read := s.readRm_quiet w rm
  exact gives_of_quiet read (runs.trans (by simp only [decOp, read.1]))

theorem gives_neg (s : State) (w : Width) (rm : RM) :
    let a := (s.readRm w rm).1
    Gives s (.negRm w rm) w rm (subResult w 0#16 a false) (s.cpu.f.sub w 0#16 a false) := by
  have read := s.readRm_quiet w rm
  have runs : exec (.negRm w rm) s = execNegRm w rm s := rfl
  exact gives_of_quiet read (runs.trans (by simp only [execNegRm, read.1]))

/-- NEG borrows from every operand but 0. -/
theorem sub_zero_cf_iff (f : Flags) (w : Width) (a : Word) : (f.sub w 0#16 a false).cf = true ↔ a ≠ 0#16 := by
  have borrow : (f.sub w 0#16 a false).cf = decide (0 < a.toNat) := rfl
  rw [borrow, decide_eq_true_iff, Nat.pos_iff_ne_zero, ne_eq, ne_eq, ← BitVec.toNat_inj]
  rfl

theorem addResult_word_one (a : Word) : addResult .word a 1#16 false = a + 1#16 := by
  apply BitVec.eq_of_toNat_eq
  rw [addResult, trunc_toNat, BitVec.toNat_add]
  rfl

theorem subResult_word_one (a : Word) : subResult .word a 1#16 false = a - 1#16 := by
  apply BitVec.eq_of_toNat_eq
  have := a.isLt
  simp only [subResult, trunc_toNat, BitVec.toNat_sub, modOf, bitsOf, bitNat_eq, Bool.toNat_false, BitVec.toNat_ofNat]
  omega

/-- Settles O14: one lemma per operation; a word register takes the sum or difference modulo 2^16. -/
theorem incrementDecrementNegate : Obligations.IncrementDecrementNegate := by
  refine fun s => ⟨fun w rm => ⟨_, s.readRm_value w rm, gives_inc s rfl, gives_dec s rfl, gives_neg s w rm,
    sub_zero_cf_iff _ w _⟩, fun r => ?_⟩
  dsimp only
  rw [← addResult_word_one, ← subResult_word_one]
  exact ⟨gives_inc s rfl, gives_dec s rfl⟩

/-! ### The accumulator and its extension (R241) -/

theorem modOf_dvd_pow (w : Width) : (modOf w : ℤ) ∣ 2 ^ 16 := by
  cases w <;> exact Int.natCast_dvd_natCast.mpr (by decide)

theorem modOf_pos (w : Width) : (0 : ℤ) < modOf w := by cases w <;> decide

/-- A number modulo 2^n is what the two's complement of n bits keeps of it. -/
theorem ofInt_eq_of_modEq {n : Nat} {i j : ℤ} (h : i ≡ j [ZMOD (2 ^ n : Nat)]) : BitVec.ofInt n i = BitVec.ofInt n j :=
  BitVec.eq_of_toNat_eq (by rw [BitVec.toNat_ofInt, BitVec.toNat_ofInt, h])

theorem trunc_modEq (w : Width) (n : Nat) : ((trunc w n).toNat : ℤ) ≡ n [ZMOD modOf w] := by
  rw [trunc_toNat, Int.natCast_mod]
  exact Int.mod_modEq _ _

theorem wrap1_modEq (w : Width) (i : ℤ) : ((wrap1 w i).toNat : ℤ) ≡ i [ZMOD modOf w] := by
  have whole : ((i % modOf w).toNat : ℤ) = i % modOf w := Int.toNat_of_nonneg (Int.emod_nonneg _ (modOf_pos w).ne')
  have word : ((wrap1 w i).toNat : ℤ) ≡ (i % modOf w).toNat [ZMOD 2 ^ 16] := by
    rw [wrap1, BitVec.toNat_ofNat]
    exact_mod_cast Nat.mod_modEq _ _
  rw [whole] at word
  exact (word.of_dvd (modOf_dvd_pow w)).trans (Int.mod_modEq _ _)

/-- A quotient in the accumulator and a remainder in its extension: both are needed modulo 2^N alone. -/
theorem setAccExt_eq_divided (c : Cpu) {w : Width} {x y : Word} {q r : ℤ} (hq : (x.toNat : ℤ) ≡ q [ZMOD modOf w])
    (hr : (y.toNat : ℤ) ≡ r [ZMOD modOf w]) : (c.setReg w .ax x).setReg w (extReg w) y = divided c w q r := by
  cases w with
  | byte =>
    simp only [divided, ← ofInt_eq_of_modEq (n := 8) hq, ← ofInt_eq_of_modEq (n := 8) hr, BitVec.ofInt_natCast,
      ← lowByte_eq, Cpu.setReg, Cpu.setReg8, Cpu.setReg16, extReg, withHigh, lowByte_withLow]
  | word =>
    simp only [divided, ← ofInt_eq_of_modEq (n := 16) hq, ← ofInt_eq_of_modEq (n := 16) hr, BitVec.ofInt_natCast,
      BitVec.ofNat_toNat, BitVec.setWidth_eq]
    rfl

/-- After reads of the bus, new flags and a number in the accumulator and in its extension. -/
theorem becomes_divided {s t : State} {i : Instr} {w : Width} {x y : Word} {q r : ℤ} {f : Flags} (h : s.Quiet t)
    (hq : (x.toNat : ℤ) ≡ q [ZMOD modOf w]) (hr : (y.toNat : ℤ) ≡ r [ZMOD modOf w])
    (runs : exec i s = .next (((t.setAcc w x).setExt w y).setFlags f)) :
    Becomes s i { divided s.cpu w q r with f := f } := by
  rw [← setAccExt_eq_divided s.cpu hq hr]
  exact ⟨_, runs, quiet_loads h fun c => { (c.setReg w .ax x).setReg w (extReg w) y with f := f }⟩

theorem unknown_sameControl (f : Flags) (u : Word) : SameControl f (f.unknown u) := ⟨rfl, rfl, rfl⟩

/-- An operand of the bytes and registers of a machine is a value of its width. -/
theorem fits_of_operandIs {s : State} {w : Width} {rm : RM} {v : Word} (h : s.OperandIs w rm v) : Fits w v := by
  intro byte
  subst byte
  cases rm with
  | reg r => exact h ▸ reg_byte_lt s.cpu r
  | mem m => exact h.1

/-- The signed value of an operand, by its top bit. -/
theorem signedOf_eq {w : Width} {v : Word} (h : Fits w v) : signedOf w v = signedValue w v := by
  have lt := fits_lt h
  rw [signedValue_eq h, signedOf, msb, Nat.mod_eq_of_lt lt]
  simp only [decide_eq_true_eq]
  split_ifs <;> omega

/-! ### MUL and IMUL (R243, R244) -/

/-- The two halves of a number of 2N bits, of any integer. -/
theorem wrap2_modEq (w : Width) (p : ℤ) :
    (wrap2 w p : ℤ) ≡ p [ZMOD modOf w] ∧ ((wrap2 w p / modOf w : Nat) : ℤ) ≡ p / modOf w [ZMOD modOf w] := by
  cases w with
  | byte => simp only [wrap2, modOf, bitsOf, Int.ModEq]; omega
  | word => simp only [wrap2, modOf, bitsOf, Int.ModEq]; omega

theorem wordOf_ofInt (p : ℤ) : wordOf (BitVec.ofInt 8 p) (BitVec.ofInt 8 (p / 256)) = BitVec.ofInt 16 p := by
  apply BitVec.eq_of_toNat_eq
  simp only [wordOf, BitVec.toNat_ofNat, BitVec.toNat_ofInt]
  omega

theorem divided_product_byte (c : Cpu) (p : ℤ) :
    divided c .byte p (p / (modOf .byte : Nat)) = c.setReg16 .ax (BitVec.ofInt 16 p) := by
  rw [← wordOf_ofInt]
  rfl

theorem lowByte_ofInt (p : ℤ) : lowByte (BitVec.ofInt 16 p) = BitVec.ofInt 8 p := by
  rw [← wordOf_ofInt, lowByte_wordOf]

theorem truncate_ofInt (p : ℤ) : (BitVec.ofInt 32 p).truncate 16 = BitVec.ofInt 16 p := by
  apply BitVec.eq_of_toNat_eq
  simp only [BitVec.truncate_eq_setWidth, BitVec.toNat_setWidth, BitVec.toNat_ofInt]
  omega

theorem truncate_shift_ofInt (p : ℤ) : ((BitVec.ofInt 32 p) >>> 16).truncate 16 = BitVec.ofInt 16 (p / 65536) := by
  apply BitVec.eq_of_toNat_eq
  simp only [BitVec.truncate_eq_setWidth, BitVec.toNat_setWidth, BitVec.toNat_ushiftRight, BitVec.toNat_ofInt,
    Nat.shiftRight_eq_div_pow]
  omega

/-- The upper half of a number of 2N bits is not the sign of its lower half when the number does not fit in N bits. -/
theorem ofInt_ne_signExtend_iff {n m : Nat} (p : ℤ) (pos : 0 < n) (le : n ≤ m) (lo : -2 ^ (m - 1) ≤ p)
    (hi : p < 2 ^ (m - 1)) :
    BitVec.ofInt m p ≠ (BitVec.ofInt n p).signExtend m ↔ p < -2 ^ (n - 1) ∨ 2 ^ (n - 1) ≤ p := by
  have self := BitVec.toInt_ofInt_eq_self (by omega : 0 < m) lo hi
  rw [ne_eq, ← BitVec.toInt_inj, self, BitVec.toInt_signExtend_of_le le]
  constructor
  · intro ne
    by_contra! fits
    exact ne (BitVec.toInt_ofInt_eq_self pos fits.1 fits.2).symm
  · intro out same
    have low := (BitVec.ofInt n p).le_toInt
    have high := (BitVec.ofInt n p).toInt_lt
    rw [← same] at low high
    omega

theorem product_ne_signExtend_iff {n m : Nat} (x y : BitVec n) (pos : 0 < n) (double : m = n * 2) :
    let p := x.toInt * y.toInt
    BitVec.ofInt m p ≠ (BitVec.ofInt n p).signExtend m ↔ p < -2 ^ (n - 1) ∨ 2 ^ (n - 1) ≤ p := by
  have less : (2 : ℤ) ^ (n * 2 - 2) < 2 ^ (m - 1) := pow_lt_pow_right₀ (by norm_num) (by omega)
  have low := BitVec.le_toInt_mul_toInt (x := x) (y := y)
  have high := BitVec.toInt_mul_toInt_le (x := x) (y := y)
  exact ofInt_ne_signExtend_iff _ pos (by omega) (by omega) (by omega)

theorem signedValue_byte (v : Word) : signedValue .byte v = (lowByte v).toInt := by
  rw [lowByte_eq]
  rfl

theorem zext_toNat (b : Byte) : (zext b).toNat = b.toNat := by
  have := b.isLt
  simp only [zext, wordOf, BitVec.toNat_ofNat]
  omega

/-- A product of 2N bits in the accumulator and its extension, with CF = OF. -/
theorem becomes_product {s t : State} {i : Instr} {w : Width} {n : Nat} {p : ℤ} {big : Bool} (h : s.Quiet t)
    (low : (n : ℤ) ≡ p [ZMOD modOf w]) (high : ((n / modOf w : Nat) : ℤ) ≡ p / modOf w [ZMOD modOf w])
    (runs : exec i s = .next ((t.bump.setExtAcc w n).setFlags (s.cpu.f.product big (Config.freeWord t.free)))) :
    ∃ g, SameControl s.cpu.f g ∧ g.cf = big ∧ g.ofl = big ∧
      Becomes s i { divided s.cpu w p (p / modOf w) with f := g } :=
  ⟨s.cpu.f.product big (Config.freeWord t.free), ⟨rfl, rfl, rfl⟩, rfl, rfl, becomes_divided (h.trans t.bump_quiet)
    ((trunc_modEq w n).trans low) ((trunc_modEq w (n / modOf w)).trans high) runs⟩

/-- MUL: the unsigned product, and whether it is of more than N bits. -/
theorem becomes_mul (s : State) (w : Width) (rm : RM) :
    let p := (s.cpu.reg w .ax).toNat * (s.readRm w rm).1.toNat
    ∃ g, SameControl s.cpu.f g ∧ g.cf = decide (modOf w ≤ p) ∧ g.ofl = decide (modOf w ≤ p) ∧
      Becomes s (.mulRm w rm) { divided s.cpu w p ((p : ℤ) / modOf w) with f := g } := by
  intro p
  have big : decide (p / modOf w ≠ 0) = decide (modOf w ≤ p) := by
    rw [decide_eq_decide, Nat.div_ne_zero_iff]
    exact ⟨fun h => h.2, fun h => ⟨by cases w <;> decide, h⟩⟩
  rw [← big]
  exact becomes_product (s.readRm_quiet w rm) (.refl _) (.refl _) rfl

/-- IMUL: the signed product, and whether it does not fit in N bits. -/
theorem becomes_imul (s : State) (w : Width) (rm : RM) :
    let p := signedValue w (s.cpu.reg w .ax) * signedValue w (s.readRm w rm).1
    let big := decide (p < -(halfOf w : ℤ) ∨ (halfOf w : ℤ) ≤ p)
    ∃ g, SameControl s.cpu.f g ∧ g.cf = big ∧ g.ofl = big ∧
      Becomes s (.imulRm w rm) { divided s.cpu w p (p / modOf w) with f := g } := by
  rw [← signedOf_eq (fits_of_operandIs (s.readRm_value w rm)),
    ← signedOf_eq (fits_of_operandIs (rm := .reg .ax) (rfl : s.cpu.reg w .ax = _))]
  intro p big
  obtain ⟨low, high⟩ := wrap2_modEq w p
  exact becomes_product (s.readRm_quiet w rm) low high rfl

/-- Settles O15: the product of the width, its halves put together, and the sign extension by the signed range. -/
theorem multiplications : Obligations.Multiplications := by
  refine fun s rm => ⟨?_, ?_, ?_, ?_⟩
  · obtain ⟨g, control, cf, ofl, runs⟩ := becomes_mul s .byte rm
    rw [divided_product_byte, BitVec.ofInt_natCast] at runs
    simp only [Cpu.reg, zext_toNat] at cf ofl runs
    exact ⟨_, g, s.readRm_value .byte rm, control, cf, ofl, runs⟩
  · obtain ⟨g, control, cf, ofl, runs⟩ := becomes_mul s .word rm
    rw [← Int.natCast_div] at runs
    simp only [divided, BitVec.ofInt_natCast] at runs
    exact ⟨_, g, s.readRm_value .word rm, control, cf, ofl, runs⟩
  · obtain ⟨g, control, cf, ofl, runs⟩ := becomes_imul s .byte rm
    simp only [signedValue_byte, Cpu.reg, lowByte_zext, divided_product_byte] at cf ofl runs
    refine ⟨_, g, s.readRm_value .byte rm, control, cf.trans (decide_eq_decide.mpr ?_), ofl.trans cf.symm, runs⟩
    rw [lowByte_ofInt]
    exact (product_ne_signExtend_iff (n := 8) _ _ (by decide) rfl).symm
  · obtain ⟨g, control, cf, ofl, runs⟩ := becomes_imul s .word rm
    refine ⟨_, g, s.readRm_value .word rm, control, cf.trans (decide_eq_decide.mpr ?_), ofl.trans cf.symm, ?_⟩
    · rw [truncate_ofInt]
      exact (product_ne_signExtend_iff (n := 16) _ _ (by decide) rfl).symm
    · rw [truncate_ofInt, truncate_shift_ofInt]
      exact runs

/-! ### DIV and IDIV (R242, R245, R246) -/

theorem dividend_toNat (s : State) (w : Width) : (dividend s w).toNat = s.extAcc w := by
  cases w with
  | byte =>
    have := s.cpu.ax.isLt
    simp only [dividend, State.extAcc, State.ext, State.acc, State.reg, Cpu.reg, extReg, zext_toNat, Cpu.reg8, highByte,
      lowByte, modOf, bitsOf, BitVec.truncate_eq_setWidth, BitVec.toNat_setWidth, BitVec.toNat_ofNat]
    omega
  | word =>
    have ax := s.cpu.ax.isLt
    have dx := s.cpu.dx.isLt
    have upper : (s.cpu.dx.toNat % 2 ^ 32) <<< 16 % 2 ^ 32 = s.cpu.dx.toNat <<< 16 := by
      simp only [Nat.shiftLeft_eq]
      omega
    simp only [dividend, BitVec.toNat_or, BitVec.toNat_shiftLeft, BitVec.truncate_eq_setWidth, BitVec.toNat_setWidth]
    rw [upper, Nat.mod_eq_of_lt (by omega : s.cpu.ax.toNat < 2 ^ 32), ← Nat.shiftLeft_add_eq_or_of_lt ax,
      Nat.shiftLeft_eq]
    rfl

theorem signedDividend_eq (s : State) (w : Width) : signedDividend s w = signedOf2 w (s.extAcc w) := by
  rw [← dividend_toNat]
  cases w with
  | byte =>
    have := s.cpu.ax.isLt
    simp only [signedDividend, dividend, BitVec.toInt_eq_toNat_cond, signedOf2, modOf, halfOf, bitsOf,
      BitVec.truncate_eq_setWidth, BitVec.toNat_setWidth]
    split_ifs <;> omega
  | word =>
    simp only [signedDividend, BitVec.toInt_eq_toNat_cond, signedOf2, modOf, halfOf, bitsOf]
    split_ifs <;> omega

theorem halfOf_cast (w : Width) : (halfOf w : ℤ) = 2 ^ (8 * widthBytes w - 1) := by
  exact_mod_cast halfOf_eq w

/-- What DIV does by its operand. -/
theorem exec_div (s : State) (w : Width) (rm : RM) :
    let b := s.readRm w rm
    let u := (dividend s w).toNat
    let d := b.1.toNat
    exec (.divRm w rm) s = .next (if d = 0 ∨ modOf w ≤ u / d then b.2.divideError w
      else b.2.quotient w (trunc w (u / d)) (trunc w (u % d))) := by
  intro b u d
  rw [apply_ite Host.Outcome.next, show u = s.extAcc w from dividend_toNat s w]
  rfl

/-- What IDIV does by its operand. -/
theorem exec_idiv (s : State) (w : Width) (rm : RM) :
    let b := s.readRm w rm
    let i := signedDividend s w
    let e := signedValue w b.1
    exec (.idivRm w rm) s = .next (if e = 0 ∨ i.tdiv e < -(halfOf w : ℤ) ∨ (halfOf w : ℤ) ≤ i.tdiv e then
      b.2.divideError w else b.2.quotient w (wrap1 w (i.tdiv e)) (wrap1 w (i.tmod e))) := by
  intro b i e
  rw [apply_ite Host.Outcome.next, show i = signedOf2 w (s.extAcc w) from signedDividend_eq s w,
    show e = signedOf w b.1 from (signedOf_eq (fits_of_operandIs (s.readRm_value w rm))).symm]
  rfl

theorem becomes_quotient {s t : State} {i : Instr} {w : Width} {x y : Word} {q r : ℤ} (h : s.Quiet t)
    (hq : (x.toNat : ℤ) ≡ q [ZMOD modOf w]) (hr : (y.toNat : ℤ) ≡ r [ZMOD modOf w])
    (runs : exec i s = .next (t.quotient w x y)) :
    ∃ g, SameControl s.cpu.f g ∧ Becomes s i { divided s.cpu w q r with f := g } := by
  refine ⟨t.cpu.f.unknown (Config.freeWord t.free), ?_, becomes_divided (h.trans t.bump_quiet) hq hr runs⟩
  rw [h.1]
  exact unknown_sameControl _ _

/-- The entry sequence after reads of the bus and an update of the CPU. -/
theorem quiet_enters {s t u : State} (h : s.Quiet t) {c c' : Cpu} {n : Byte}
    (enters : State.Enters { t with cpu := c' } u c n) : s.Enters u c n := by
  obtain ⟨fl, flags, stored, cpu, ip, cs, beyond⟩ := enters
  exact ⟨fl, flags, h.stored stored, cpu, ip, cs, h.2.2.trans beyond⟩

theorem enters_divideError {s t : State} (h : s.Quiet t) (w : Width) :
    ∃ q r g, SameControl s.cpu.f g ∧ s.Enters (t.divideError w) { divided s.cpu w q r with f := g } 0#8 := by
  let free (k : Nat) : Word := Config.freeWord (t.free + k)
  refine ⟨(free 0).toNat, (free 1).toNat, t.cpu.f.unknown (free 2), ?_, ?_⟩
  · rw [h.1]
    exact unknown_sameControl _ _
  · rw [← setAccExt_eq_divided s.cpu (.refl _) (.refl _), ← h.1]
    exact quiet_enters (((h.trans t.bump_quiet).trans (State.bump_quiet _)).trans (State.bump_quiet _))
      (State.interrupt_spec _ 0#8)

/-- Settles O16: the quotient and the remainder of N bits are the numbers modulo 2^N. -/
theorem divisionsThatFit : Obligations.DivisionsThatFit := by
  intro s w rm
  have read := s.readRm_quiet w rm
  refine ⟨_, s.readRm_value w rm, fun nonzero fits => ?_, fun nonzero low high => ?_⟩
  · rw [← modOf_eq] at fits
    refine becomes_quotient read (trunc_modEq w _) (trunc_modEq w _) ((exec_div s w rm).trans ?_)
    rw [if_neg (by omega)]
  · refine becomes_quotient read (wrap1_modEq w _) (wrap1_modEq w _) ((exec_idiv s w rm).trans ?_)
    rw [halfOf_cast, if_neg (by omega)]

/-- Settles O17: the divide error is the entry sequence with the accumulator, its extension and the flags unknown. -/
theorem divideErrorEntersTypeZero : Obligations.DivideErrorEntersTypeZero := by
  intro s w rm
  obtain ⟨q, r, g, control, enters⟩ := enters_divideError (s.readRm_quiet w rm) w
  refine ⟨_, s.readRm_value w rm, fun error => ⟨_, q, r, g, control, (exec_div s w rm).trans ?_, enters⟩,
    fun error => ⟨_, q, r, g, control, (exec_idiv s w rm).trans ?_, enters⟩⟩
  · rw [modOf_eq, if_pos error]
  · rw [halfOf_cast, if_pos error]

/-! ### CBW, CWD and the corrections (R247-R254) -/

/-- The CPU with the low bytes of two numbers in AL and AH. -/
def putAx (c : Cpu) (l h : Nat) : Cpu := c.setReg16 .ax (BitVec.ofNat 16 (l % 256 + 256 * (h % 256)))

theorem wordOf_ofNat (l h : Nat) :
    wordOf (BitVec.ofNat 8 l) (BitVec.ofNat 8 h) = BitVec.ofNat 16 (l % 256 + 256 * (h % 256)) := by
  rw [wordOf, BitVec.toNat_ofNat, BitVec.toNat_ofNat, Nat.add_comm, Nat.mul_comm]

/-- A byte written as a word whose high byte is 0. -/
theorem lowByte_ofNat_mod (n : Nat) : lowByte (BitVec.ofNat 16 (n % 256)) = BitVec.ofNat 8 n := by
  apply BitVec.eq_of_toNat_eq
  simp only [lowByte, BitVec.toNat_ofNat]
  omega

/-- AL written, AH as it is. -/
theorem setAl_cpu (s : State) (n : Nat) : (s.setAl n).cpu = putAx s.cpu n (s.cpu.reg8 .sp).toNat := by
  rw [putAx, ← wordOf_ofNat, BitVec.ofNat_toNat, BitVec.setWidth_eq, ← lowByte_ofNat_mod]
  rfl

/-- AL written, then AH. -/
theorem setAh_setAl_cpu (s : State) (n m : Nat) : ((s.setAl n).setAh m).cpu = putAx s.cpu n m := by
  rw [putAx, ← wordOf_ofNat, ← lowByte_ofNat_mod n, ← lowByte_ofNat_mod m]
  exact congrArg (fun b => s.cpu.setReg16 .ax (wordOf b _)) (lowByte_withLow s.cpu.ax _)

/-- A result in AL has the width of a byte. -/
theorem fits_byte_ofNat {n : Nat} (h : n < 256) : Fits .byte (BitVec.ofNat 16 n) := fun _ => by
  rw [BitVec.toNat_ofNat]
  omega

/-- An instruction whose result is in AL and AH and in the flags. -/
theorem only_putAx {s t : State} {i : Instr} {l h : Nat} {f : Flags} (outside : s.SameOutside t)
    (cpu : t.cpu = putAx s.cpu l h) (runs : exec i s = .next (t.setFlags f)) :
    Only s i { putAx s.cpu l h with f := f } :=
  ⟨_, runs, by rw [State.setFlags_cpu, cpu], outside⟩

/-- A byte corrected modulo 256 or left as it is. -/
theorem corrected_eq (c : Bool) {a : Nat} (k : Nat) (lt : a < 256) :
    (if c then (a + k) % 256 else a) = (a + k * c.toNat) % 256 := by
  cases c with
  | false => exact (Nat.mod_eq_of_lt lt).symm
  | true => rw [if_pos rfl, Bool.toNat_true, Nat.mul_one]

/-- DAA and DAS: two corrections of AL modulo 256, and the flags of the corrected AL. -/
theorem decimalAdjust_only {s : State} {i : Instr} {low high : Nat} (runs : exec i s = decimalAdjust s low high) :
    let al := (s.cpu.reg8 .ax).toNat
    let c1 := decide (9 < al % 16) || s.cpu.f.af
    let c2 := decide (0x99 < al) || s.cpu.f.cf
    let a := (al + low * c1.toNat + high * c2.toNat) % 256
    ∃ g, SameControl s.cpu.f g ∧ g.af = c1 ∧ g.cf = c2 ∧ TellsOf g .byte (BitVec.ofNat 16 a) ∧
      Only s i { putAx s.cpu a (s.cpu.reg8 .sp).toNat with f := g } := by
  intro al c1 c2 a
  have byte (n : Nat) : n % 256 < 256 := Nat.mod_lt _ (by decide)
  have both : (if c2 then ((if c1 then (al + low) % 256 else al) + high) % 256
      else if c1 then (al + low) % 256 else al) = a := by
    rw [corrected_eq c1 low (s.cpu.reg8 .ax).isLt, corrected_eq c2 high (byte _), Nat.mod_add_mod]
  let f : Flags := { s.cpu.f with af := c1, cf := c2, ofl := Config.freeBit s.free }
  refine ⟨f.szp .byte (BitVec.ofNat 16 a), ⟨rfl, rfl, rfl⟩, rfl, rfl, tellsOf_szp f (fits_byte_ofNat (byte _)),
    only_putAx (t := s.bump.setAl a) (sameOutside_update s _ _) (setAl_cpu s.bump a) (runs.trans ?_)⟩
  rw [← both]
  rfl

/-- AL written, and AH when a correction is made. -/
theorem setAl_setAh_if (s : State) (c : Bool) (n k : Nat) :
    let ah := (s.cpu.reg8 .sp).toNat
    let t := if c then (s.setAl n).setAh (ah + k) else s.setAl n
    t.cpu = putAx s.cpu n (ah + k * c.toNat) ∧ s.SameOutside t := by
  cases c with
  | false => exact ⟨setAl_cpu s n, sameOutside_update s _ s.free⟩
  | true =>
    rw [Bool.toNat_true, Nat.mul_one]
    exact ⟨setAh_setAl_cpu s n _, sameOutside_update s _ s.free⟩

/-- AAA and AAS: one correction of AL modulo 16 and of AH. -/
theorem asciiAdjust_only {s : State} {i : Instr} {al6 ah1 : Nat} (runs : exec i s = asciiAdjust s al6 ah1) :
    let al := (s.cpu.reg8 .ax).toNat
    let ah := (s.cpu.reg8 .sp).toNat
    let c := decide (9 < al % 16) || s.cpu.f.af
    ∃ g, SameControl s.cpu.f g ∧ g.af = c ∧ g.cf = c ∧
      Only s i { putAx s.cpu ((al + al6 * c.toNat) % 16) (ah + ah1 * c.toNat) with f := g } := by
  intro al ah c
  have digit : (if c then al + al6 else al) = al + al6 * c.toNat := by
    cases c with
    | false => rfl
    | true => rw [if_pos rfl, Bool.toNat_true, Nat.mul_one]
  obtain ⟨cpu, outside⟩ := setAl_setAh_if s.bump c ((al + al6 * c.toNat) % 16) ah1
  refine ⟨{ s.cpu.f.unknown (Config.freeWord s.free) with af := c, cf := c }, ⟨rfl, rfl, rfl⟩, rfl, rfl,
    only_putAx outside cpu (runs.trans ?_)⟩
  rw [← digit]
  rfl

/-- AAM and AAD: AL and AH written, and the flags of AL. -/
theorem asciiFlags_only {s : State} {i : Instr} {l h : Nat}
    (runs : exec i s = .next (((s.setAl l).setAh h).asciiFlags l)) :
    ∃ g, SameControl s.cpu.f g ∧ TellsOf g .byte (BitVec.ofNat 16 (l % 256)) ∧
      Only s i { putAx s.cpu l h with f := g } := by
  let f := s.cpu.f.unknown (Config.freeWord s.free)
  exact ⟨f.szp .byte (BitVec.ofNat 16 (l % 256)), ⟨rfl, rfl, rfl⟩,
    tellsOf_szp f (fits_byte_ofNat (Nat.mod_lt _ (by decide))),
    only_putAx (t := ((s.setAl l).setAh h).bump) (sameOutside_update s _ _) (setAh_setAl_cpu s l h) runs⟩

/-- Settles O18: the model adds 256 less a correction where the algorithm subtracts it. -/
theorem extensionsAndCorrections : Obligations.ExtensionsAndCorrections := by
  intro s c al ah low high put
  have one := low.toNat_le
  have one' := high.toNat_le
  refine ⟨⟨_, rfl, rfl, sameOutside_update s _ s.free⟩, ⟨_, rfl, ?_, sameOutside_update s _ s.free⟩,
    decimalAdjust_only rfl, ?_, ?_, ?_, ?_, asciiFlags_only rfl⟩
  · rw [← show msb .word c.ax = c.ax.getLsbD 15 from msb_eq (w := .word) nofun]
    rfl
  · have less : (al + 0x200 - 6 * low.toNat - 0x60 * high.toNat) % 256 =
        (al + 0xFA * low.toNat + 0xA0 * high.toNat) % 256 := by omega
    dsimp only
    rw [less]
    exact decimalAdjust_only rfl
  · have plus : ah + low.toNat = ah + 1 * low.toNat := by omega
    rw [plus]
    exact asciiAdjust_only rfl
  · have digit : (al + 256 - 6 * low.toNat) % 16 = (al + 250 * low.toNat) % 16 := by omega
    have less : put ((al + 250 * low.toNat) % 16) (ah + 256 - low.toNat) =
        putAx c ((al + 250 * low.toNat) % 16) (ah + 255 * low.toNat) := by
      have mod : (ah + 256 - low.toNat) % 256 = (ah + 255 * low.toNat) % 256 := by omega
      rw [putAx, ← mod]
    rw [digit, less]
    exact asciiAdjust_only rfl
  · have digit : al % 10 % 256 = al % 10 := by omega
    obtain ⟨g, control, tells, only⟩ := asciiFlags_only (s := s) (i := .aam) rfl
    exact ⟨g, control, digit ▸ tells, only⟩

end Sys2Proof.Certificates.ArithmeticInstructions

/-! SUPPORT and CERTIFICATE. The logic instructions: AND, OR, XOR and TEST read an operand and take an unknown bit for
AF, NOT inverts the bits of its operand. -/

namespace Sys2Proof.Certificates.Logic

open Sys2Proof.Machine Sys2Proof.Certificates.Arithmetic Sys2Proof.Certificates.DataTransfer
  Sys2Proof.Certificates.ArithmeticInstructions

/-! ### Values of the width -/

theorem fits_iff {w : Width} {v : Word} : Fits w v ↔ v.toNat < 2 ^ bitsOf w :=
  ⟨fits_lt, fun lt byte => by subst byte; exact lt⟩

theorem fits_reg (c : Cpu) (w : Width) (r : GReg) : Fits w (c.reg w r) := fun byte => byte ▸ reg_byte_lt c r

theorem fits_immValue (v : Imm) : Fits (immWidth v) (immValue v) := by
  cases v with
  | b x => exact fun _ => zext_lt x
  | w x => exact nofun

/-- A value of the width has no bit above its top bit. -/
theorem getLsbD_of_fits {w : Width} {v : Word} (h : Fits w v) {i : Nat} (hi : bitsOf w ≤ i) : v.getLsbD i = false :=
  Nat.testBit_lt_two_pow ((fits_iff.mp h).trans_le (Nat.pow_le_pow_right two_pos hi))

/-- Values of the width are equal when the bits of the width are. -/
theorem eq_of_bits {w : Width} {u v : Word} (hu : Fits w u) (hv : Fits w v)
    (bits : ∀ i < bitsOf w, u.getLsbD i = v.getLsbD i) : u = v := by
  refine BitVec.eq_of_getLsbD_eq fun i _ => ?_
  rcases lt_or_ge i (bitsOf w) with inside | above
  · exact bits i inside
  · rw [getLsbD_of_fits hu above, getLsbD_of_fits hv above]

/-- The bits of a number cut to the width. -/
theorem getLsbD_trunc {w : Width} (n : Nat) {i : Nat} (hi : i < bitsOf w) : (trunc w n).getLsbD i = n.testBit i := by
  rw [BitVec.getLsbD, trunc_toNat, modOf, Nat.testBit_mod_two_pow, decide_eq_true hi, Bool.true_and]

/-! ### AND, OR, XOR and TEST (42_logic_shift.md R270-R274) -/

/-- A result of AND, OR, XOR and TEST stays within the width of the operands. -/
theorem result_fits {op : AluOp} (logic : isArithmetic op = false) {w : Width} {a b : Word} (ha : Fits w a)
    (hb : Fits w b) (cf : Bool) : Fits w (op.result w a b cf) := by
  rw [fits_iff] at *
  cases op with
  | and | test => exact Nat.and_lt_two_pow _ hb
  | or => exact Nat.or_lt_two_pow ha hb
  | xor => exact Nat.xor_lt_two_pow ha hb
  | add | adc | sub | sbb | cmp => exact absurd logic.symm Bool.false_ne_true

/-- The flags of a logic operation, whatever AF is. -/
theorem logicFlags_logic (f : Flags) {w : Width} {r : Word} (h : Fits w r) (af : Bool) :
    LogicFlags f (f.logic w r af) w r :=
  ⟨rfl, rfl, tellsOf_szp _ h, rfl, rfl, rfl⟩

theorem aluFlags_logic {op : AluOp} (logic : isArithmetic op = false) (s : State) (w : Width) (a b : Word) (cf : Bool) :
    s.aluFlags op w a b = s.bump.setFlags (s.cpu.f.logic w (op.result w a b cf) (Config.freeBit s.free)) := by
  cases op with
  | and | or | xor | test => rfl
  | add | adc | sub | sbb | cmp => exact absurd logic.symm Bool.false_ne_true

section
variable {op : AluOp} (logic : isArithmetic op = false) {s : State} {w : Width} {rm : RM} {i : Instr}
include logic

/-- The left operand is r/m, and takes the result. -/
theorem gives_logicToRm {b : Word} (writes : op.writes = true) (hb : Fits w b) (runs : exec i s = aluToRm op w rm b s) :
    let r := op.result w (s.readRm w rm).1 b s.cpu.f.cf
    ∃ g, LogicFlags s.cpu.f g w r ∧ Gives s i w rm r g := by
  have read := s.readRm_quiet w rm
  have fits := result_fits logic (fits_of_operandIs (s.readRm_value w rm)) hb s.cpu.f.cf
  refine ⟨_, logicFlags_logic _ fits (Config.freeBit (s.readRm w rm).2.free),
    gives_of_quiet (read.trans (State.bump_quiet _)) (runs.trans ?_)⟩
  simp only [aluToRm, writes, if_true, aluFlags_logic logic _ w _ b s.cpu.f.cf, read.1]

/-- The left operand is a register, and takes the result. -/
theorem gives_logicToReg {q : GReg} (writes : op.writes = true) (runs : exec i s = aluRmReg op .toReg w q rm s) :
    let r := op.result w (s.cpu.reg w q) (s.readRm w rm).1 s.cpu.f.cf
    ∃ g, LogicFlags s.cpu.f g w r ∧ Gives s i w (.reg q) r g := by
  have read := s.readRm_quiet w rm
  have fits := result_fits logic (fits_reg s.cpu w q) (fits_of_operandIs (s.readRm_value w rm)) s.cpu.f.cf
  refine ⟨_, logicFlags_logic _ fits (Config.freeBit (s.readRm w rm).2.free),
    gives_of_quiet (read.trans (State.bump_quiet _)) (runs.trans ?_)⟩
  simp only [aluRmReg, writes, if_true, aluFlags_logic logic _ w _ _ s.cpu.f.cf, read.1, State.writeRm, State.reg]

end

section
variable {s : State} {w : Width} {i : Instr} {b : Word}

/-- TEST of an operand. -/
theorem becomes_test {rm : RM} (hb : Fits w b) (runs : exec i s = aluToRm .test w rm b s) :
    ∃ g, LogicFlags s.cpu.f g w ((s.readRm w rm).1 &&& b) ∧ Becomes s i { s.cpu with f := g } := by
  have read := s.readRm_quiet w rm
  have fits := result_fits (op := .test) rfl (fits_of_operandIs (s.readRm_value w rm)) hb false
  refine ⟨_, logicFlags_logic _ fits (Config.freeBit (s.readRm w rm).2.free),
    becomes_of_quiet (read.trans (State.bump_quiet _)) (runs.trans ?_)⟩
  rw [← read.1]
  rfl

/-- TEST of the accumulator does not touch the bus. -/
theorem only_test (hb : Fits w b) (runs : exec i s = aluToRm .test w (.reg .ax) b s) :
    ∃ g, LogicFlags s.cpu.f g w (s.cpu.reg w .ax &&& b) ∧ Only s i { s.cpu with f := g } :=
  ⟨_, logicFlags_logic _ (result_fits (op := .test) rfl (fits_reg s.cpu w .ax) hb false) (Config.freeBit s.free),
    _, runs, rfl, sameOutside_update s _ _⟩

end

/-! ### NOT (R275) -/

/-- Every bit of the width inverted, the others 0. -/
theorem trunc_not {w : Width} {a : Word} (h : Fits w a) :
    trunc w (~~~a).toNat = a ^^^ BitVec.ofNat 16 (2 ^ bitsOf w - 1) := by
  have ones : (BitVec.ofNat 16 (2 ^ bitsOf w - 1)).toNat = 2 ^ bitsOf w - 1 := by cases w <;> rfl
  refine eq_of_bits (trunc_fits w _) (fits_iff.mpr ?_) fun i hi => ?_
  · rw [BitVec.toNat_xor, ones]
    exact Nat.xor_lt_two_pow (fits_iff.mp h) (Nat.sub_lt (Nat.two_pow_pos _) one_pos)
  · have word : i < 16 := hi.trans_le (by cases w <;> decide)
    have one : (BitVec.ofNat 16 (2 ^ bitsOf w - 1)).getLsbD i = true := by
      rw [BitVec.getLsbD, ones, Nat.testBit_two_pow_sub_one, decide_eq_true hi]
    rw [getLsbD_trunc _ hi, BitVec.getLsbD_xor, one, Bool.xor_true, ← BitVec.getLsbD, BitVec.getLsbD_not,
      decide_eq_true word, Bool.true_and]

theorem gives_not (s : State) (w : Width) (rm : RM) :
    Gives s (.notRm w rm) w rm ((s.readRm w rm).1 ^^^ BitVec.ofNat 16 (2 ^ (8 * widthBytes w) - 1)) s.cpu.f := by
  obtain ⟨cpu, mem, beyond⟩ := s.readRm_quiet w rm
  have given : Gives s (.notRm w rm) w rm (trunc w (~~~(s.readRm w rm).1).toNat) s.cpu.f :=
    ⟨_, rfl, State.writeRm_spec cpu mem beyond w rm _⟩
  rwa [trunc_not (fits_of_operandIs (s.readRm_value w rm)), bitsOf_eq] at given

/-- Settles O13: each form reads its operand and is one logic operation on it, from the right or from the left. -/
theorem logicOperations : Obligations.LogicOperations := by
  refine fun s => ⟨fun w r rm => ⟨_, s.readRm_value w rm, ?_⟩, fun rm v => ⟨_, s.readRm_value (immWidth v) rm, ?_⟩,
    fun v => ?_⟩
  · have fits := fits_reg s.cpu w r
    exact ⟨gives_logicToRm (op := .and) rfl rfl fits rfl, gives_logicToRm (op := .or) rfl rfl fits rfl,
      gives_logicToRm (op := .xor) rfl rfl fits rfl, gives_logicToReg (op := .and) rfl rfl rfl,
      gives_logicToReg (op := .or) rfl rfl rfl, gives_logicToReg (op := .xor) rfl rfl rfl, becomes_test fits rfl,
      gives_not s w rm⟩
  · have fits := fits_immValue v
    exact ⟨gives_logicToRm (op := .and) rfl rfl fits rfl, gives_logicToRm (op := .or) rfl rfl fits rfl,
      gives_logicToRm (op := .xor) rfl rfl fits rfl, becomes_test fits rfl⟩
  · have fits := fits_immValue v
    exact ⟨gives_logicToRm (op := .and) (rm := .reg .ax) rfl rfl fits rfl,
      gives_logicToRm (op := .or) (rm := .reg .ax) rfl rfl fits rfl,
      gives_logicToRm (op := .xor) (rm := .reg .ax) rfl rfl fits rfl, only_test fits rfl⟩

end Sys2Proof.Certificates.Logic

/-! SUPPORT and CERTIFICATES. Shifts and rotates: what one position does to the number and the bits of an operand, and
what many positions do. A rotate turns a ring of bits, of the operand or of the operand and CF. -/

namespace Sys2Proof.Certificates.Shifts

open Sys2Proof.Machine Sys2Proof.Certificates.Arithmetic Sys2Proof.Certificates.DataTransfer
  Sys2Proof.Certificates.ArithmeticInstructions Sys2Proof.Certificates.Logic

/-! ### One position (42_logic_shift.md R279-R285) -/

/-- The kinds that move the bits up. -/
def goesLeft : ShiftKind → Bool
  | .shl | .rol | .rcl => true
  | .shr | .sar | .ror | .rcr => false

/-- The bit that comes in at the end that one position leaves empty. -/
def bitIn (k : ShiftKind) (w : Width) (v : Word) (cf : Bool) : Bool :=
  match k with
  | .shl | .shr => false
  | .sar | .rol => msb w v
  | .ror => v.getLsbD 0
  | .rcl | .rcr => cf

theorem bitNat_false : bitNat false = 0 := rfl

theorem shiftStep_fits (k : ShiftKind) (w : Width) (v : Word) (cf : Bool) : Fits w (shiftStep k w v cf).1 := by
  cases k <;> exact trunc_fits w _

section
variable {k : ShiftKind} {w : Width} {v : Word} (h : Fits w v) (cf : Bool)
include h

theorem shiftStep_left (left : goesLeft k = true) :
    shiftStep k w v cf = (trunc w (2 * v.toNat + (bitIn k w v cf).toNat), v.getLsbD (bitsOf w - 1)) := by
  rw [bitsOf_eq, ← msb_eq h, ← bitNat_eq, Nat.mul_comm]
  cases k with
  | shl | rol | rcl => simp only [shiftStep, bitIn, Nat.mod_eq_of_lt (fits_lt h), bitNat_false, Nat.add_zero]
  | shr | sar | ror | rcr => exact absurd left Bool.false_ne_true

theorem shiftStep_right (right : goesLeft k = false) :
    shiftStep k w v cf = (trunc w (halfOf w * (bitIn k w v cf).toNat + v.toNat / 2), v.getLsbD 0) := by
  rw [← bitNat_eq, Nat.mul_comm, Nat.add_comm]
  cases k with
  | shr | sar | ror | rcr =>
    simp only [shiftStep, bitIn, Nat.mod_eq_of_lt (fits_lt h), bit, bitNat_false, Nat.zero_mul, Nat.add_zero]
  | shl | rol | rcl => exact absurd right.symm Bool.false_ne_true

theorem shiftStep_left_toNat (left : goesLeft k = true) :
    (shiftStep k w v cf).1.toNat = 2 * v.toNat % modOf w + (bitIn k w v cf).toNat := by
  have one := (bitIn k w v cf).toNat_le
  rw [shiftStep_left h cf left, trunc_toNat]
  cases w with
  | byte => simp only [modOf, bitsOf]; omega
  | word => simp only [modOf, bitsOf]; omega

theorem shiftStep_right_toNat (right : goesLeft k = false) :
    (shiftStep k w v cf).1.toNat = v.toNat / 2 + halfOf w * (bitIn k w v cf).toNat := by
  have one := (bitIn k w v cf).toNat_le
  have lt := fits_lt h
  rw [shiftStep_right h cf right, trunc_toNat]
  cases w with
  | byte => simp only [modOf, halfOf, bitsOf] at *; omega
  | word => simp only [modOf, halfOf, bitsOf] at *; omega

/-- Every bit moves one place up. -/
theorem shiftStep_left_getLsbD (left : goesLeft k = true) {i : Nat} (hi : i < bitsOf w) :
    (shiftStep k w v cf).1.getLsbD i = if i = 0 then bitIn k w v cf else v.getLsbD (i - 1) := by
  rw [shiftStep_left h cf left, getLsbD_trunc _ hi]
  cases i with
  | zero => cases bitIn k w v cf <;> simp [Nat.testBit_zero]
  | succ j =>
    have half : (2 * v.toNat + (bitIn k w v cf).toNat) / 2 = v.toNat := by
      have two := (bitIn k w v cf).toNat_lt
      omega
    rw [Nat.testBit_succ, half]
    rfl

/-- Every bit moves one place down. -/
theorem shiftStep_right_getLsbD (right : goesLeft k = false) {i : Nat} (hi : i < bitsOf w) :
    (shiftStep k w v cf).1.getLsbD i = if i = bitsOf w - 1 then bitIn k w v cf else v.getLsbD (i + 1) := by
  have low : v.toNat / 2 < 2 ^ (bitsOf w - 1) := by
    rw [Nat.div_lt_iff_lt_mul two_pos, ← pow_succ, Nat.sub_add_cancel (by omega)]
    exact fits_iff.mp h
  rw [shiftStep_right h cf right, getLsbD_trunc _ hi, halfOf, Nat.testBit_two_pow_mul_add _ low, ← Nat.testBit_succ]
  split_ifs with inside top top
  · omega
  · rfl
  · rw [top, Nat.sub_self]
    cases bitIn k w v cf <;> rfl
  · omega

end

/-! ### Flags and the result of an instruction (R276-R278) -/

theorem shiftN_fits (k : ShiftKind) (w : Width) (n : Nat) {p : Word × Bool} (h : Fits w p.1) :
    Fits w (shiftN k w n p).1 := by
  induction n generalizing p with
  | zero => exact h
  | succ n ih => exact ih (shiftStep_fits k w _ _)

/-- OF by the constant 1: the sign bit changed. -/
theorem shiftOverflow_iff (k : ShiftKind) {w : Width} {v : Word} (h : Fits w v) (cf : Bool) :
    shiftOverflow k w v (shiftStep k w v cf) = true ↔
      v.getLsbD (8 * widthBytes w - 1) ≠ (shiftStep k w v cf).1.getLsbD (8 * widthBytes w - 1) := by
  have two : 2 ≤ bitsOf w := by cases w <;> decide
  have sign : msb w v = v.getLsbD (bitsOf w - 1) := bitsOf_eq w ▸ msb_eq h
  have newSign : msb w (shiftStep k w v cf).1 = (shiftStep k w v cf).1.getLsbD (bitsOf w - 1) :=
    bitsOf_eq w ▸ msb_eq (shiftStep_fits k w v cf)
  rw [← bitsOf_eq]
  cases direction : goesLeft k with
  | true =>
    have carry (r : Word × Bool) : shiftOverflow k w v r = (msb w r.1 != r.2) := by
      cases k with
      | shl | rol | rcl => rfl
      | shr | sar | ror | rcr => exact absurd direction Bool.false_ne_true
    have out : (shiftStep k w v cf).2 = v.getLsbD (bitsOf w - 1) := congrArg Prod.snd (shiftStep_left h cf direction)
    rw [carry, newSign, out, bne_iff_ne, ne_comm]
  | false =>
    have top : (shiftStep k w v cf).1.getLsbD (bitsOf w - 1) = bitIn k w v cf := by
      rw [shiftStep_right_getLsbD h cf direction (by omega), if_pos rfl]
    have below : bit (shiftStep k w v cf).1 (bitsOf w - 2) = v.getLsbD (bitsOf w - 1) := by
      rw [bit, shiftStep_right_getLsbD h cf direction (by omega), if_neg (by omega)]
      congr 1
      omega
    rw [← sign] at below ⊢
    cases k with
    | shr => rw [top, shiftOverflow, bitIn, Bool.ne_false_iff]
    | sar => rw [top, shiftOverflow, bitIn]; exact ⟨nofun, fun differs => absurd rfl differs⟩
    | ror | rcr => rw [shiftOverflow, below, newSign, bne_iff_ne, ne_comm]
    | shl | rol | rcl => exact absurd direction.symm Bool.false_ne_true

/-- What an instruction writes to the flags after at least one position. -/
theorem shiftFlags_shift (f : Flags) (k : ShiftKind) (c : ShiftCount) {w : Width} {a : Word} {r : Word × Bool}
    (u : Word) (ha : Fits w a) (hr : Fits w r.1) (once : c = .one → r = shiftStep k w a f.cf) :
    ShiftFlags k c w a r f (f.shift k c w a r u) := by
  refine ⟨by cases k <;> rfl, by cases k <;> exact ⟨rfl, rfl, rfl⟩, ?_, ?_, ?_⟩
  · cases k with
    | shl | shr | sar => exact tellsOf_szp _ hr
    | rol | ror | rcl | rcr => exact ⟨rfl, rfl, rfl, rfl⟩
  · rintro rfl
    cases c <;> rfl
  · rintro rfl
    have ofl : (f.shift k .one w a r u).ofl = shiftOverflow k w a r := by cases k <;> rfl
    rw [ofl, once rfl]
    exact shiftOverflow_iff k ha f.cf

section
variable {s : State} {i : Instr} {k : ShiftKind} {c : ShiftCount} {w : Width} {rm : RM}
  (runs : exec i s = shiftOp k c w rm s)
include runs

/-- No position: the operand is written again, and the flags stay. -/
theorem gives_no_shift (zero : s.shiftCount c = 0) : Gives s i w rm (s.readRm w rm).1 s.cpu.f := by
  obtain ⟨cpu, mem, beyond⟩ := s.readRm_quiet w rm
  refine ⟨_, runs.trans ?_, State.writeRm_spec cpu mem beyond w rm _⟩
  simp only [shiftOp, zero, if_true]

theorem gives_shift (nonzero : s.shiftCount c ≠ 0) :
    let a := (s.readRm w rm).1
    let r := shiftN k w (s.shiftCount c) (a, s.cpu.f.cf)
    ∃ g, ShiftFlags k c w a r s.cpu.f g ∧ Gives s i w rm r.1 g := by
  intro a r
  have fits : Fits w a := fits_of_operandIs (s.readRm_value w rm)
  refine ⟨_, shiftFlags_shift s.cpu.f k c (Config.freeWord (s.readRm w rm).2.free) fits (shiftN_fits k w _ fits) ?_,
    gives_of_quiet ((s.readRm_quiet w rm).trans (State.bump_quiet _)) (runs.trans ?_)⟩
  · rintro rfl
    rfl
  · simp only [shiftOp, if_neg nonzero]
    rfl

end

theorem shiftGives_of_runs {s : State} {i : ShiftCount → Instr} {k : ShiftKind} {w : Width} {rm : RM}
    (runs : ∀ c, exec (i c) s = shiftOp k c w rm s) : ShiftGives s i k w rm := by
  refine ⟨_, s.readRm_value w rm, fun c => ?_⟩
  cases c with
  | one => exact ⟨gives_no_shift (runs .one), gives_shift (runs .one)⟩
  | cl => exact ⟨gives_no_shift (runs .cl), gives_shift (runs .cl)⟩

/-- Settles O19: the seven instructions are one operation, with the flags of `shiftFlags_shift`. -/
theorem shiftsAndRotates : Obligations.ShiftsAndRotates := fun _ _ _ =>
  ⟨shiftGives_of_runs fun _ => rfl, shiftGives_of_runs fun _ => rfl, shiftGives_of_runs fun _ => rfl,
    shiftGives_of_runs fun _ => rfl, shiftGives_of_runs fun _ => rfl, shiftGives_of_runs fun _ => rfl,
    shiftGives_of_runs fun _ => rfl⟩

/-! ### Many positions -/

/-- The last of `n + 1` positions. -/
theorem shiftN_succ (k : ShiftKind) (w : Width) (n : Nat) (p : Word × Bool) :
    shiftN k w (n + 1) p = shiftStep k w (shiftN k w n p).1 (shiftN k w n p).2 := by
  induction n generalizing p with
  | zero => rfl
  | succ n ih => exact ih (shiftStep k w p.1 p.2)

section
variable {w : Width} {v : Word} (h : Fits w v) (cf : Bool) (n : Nat)
include h

/-- The last bit shifted out at the top. -/
theorem shiftN_left_carry {k : ShiftKind} (left : goesLeft k = true) :
    (shiftN k w (n + 1) (v, cf)).2 = (shiftN k w n (v, cf)).1.getLsbD (bitsOf w - 1) := by
  rw [shiftN_succ, shiftStep_left (shiftN_fits k w n h) _ left]

/-- The last bit shifted out at the bottom. -/
theorem shiftN_right_carry {k : ShiftKind} (right : goesLeft k = false) :
    (shiftN k w (n + 1) (v, cf)).2 = (shiftN k w n (v, cf)).1.getLsbD 0 := by
  rw [shiftN_succ, shiftStep_right (shiftN_fits k w n h) _ right]

theorem shl_toNat : (shiftN .shl w n (v, cf)).1.toNat = v.toNat * 2 ^ n % modOf w := by
  induction n with
  | zero => simp only [shiftN, pow_zero, Nat.mul_one, Nat.mod_eq_of_lt (fits_lt h)]
  | succ n ih =>
    rw [shiftN_succ, shiftStep_left_toNat (shiftN_fits _ w n h) _ rfl, ih, bitIn, Bool.toNat_false, Nat.add_zero,
      Nat.mul_mod_mod, pow_succ']
    congr 1
    ring

theorem shl_carry :
    (shiftN .shl w (n + 1) (v, cf)).2 = decide (v.toNat * 2 ^ n / 2 ^ (bitsOf w - 1) % 2 = 1) := by
  have top : bitsOf w - 1 < bitsOf w := by cases w <;> decide
  rw [shiftN_left_carry h cf n rfl, BitVec.getLsbD, shl_toNat h, modOf, Nat.testBit_mod_two_pow, decide_eq_true top,
    Bool.true_and, Nat.testBit_eq_decide_div_mod_eq]

theorem shr_toNat : (shiftN .shr w n (v, cf)).1.toNat = v.toNat / 2 ^ n := by
  induction n with
  | zero => exact (Nat.div_one _).symm
  | succ n ih =>
    rw [shiftN_succ, shiftStep_right_toNat (shiftN_fits _ w n h) _ rfl, ih, bitIn, Bool.toNat_false, Nat.mul_zero,
      Nat.add_zero, Nat.div_div_eq_div_mul, pow_succ]

theorem shr_carry : (shiftN .shr w (n + 1) (v, cf)).2 = decide (v.toNat / 2 ^ n % 2 = 1) := by
  rw [shiftN_right_carry h cf n rfl, BitVec.getLsbD, shr_toNat h, Nat.testBit_zero]

theorem msb_toNat : (msb w v).toNat = v.toNat / halfOf w := by
  have two : v.toNat < halfOf w * 2 := (fits_lt h).trans_eq (by cases w <;> rfl)
  rw [msb_eq h, BitVec.getLsbD, Nat.toNat_testBit, ← halfOf_eq, Nat.mod_eq_of_lt (Nat.div_lt_of_lt_mul two)]

/-- One position of SAR halves a signed number, rounding toward minus infinity. -/
theorem sar_step_signedValue : signedValue w (shiftStep .sar w v cf).1 = signedValue w v / 2 := by
  have lt := fits_lt h
  rw [signedValue_eq (shiftStep_fits _ w v cf), signedValue_eq h, shiftStep_right_toNat h cf rfl, bitIn, msb_toNat h]
  cases w with
  | byte => simp only [halfOf, modOf, bitsOf] at *; split_ifs <;> omega
  | word => simp only [halfOf, modOf, bitsOf] at *; split_ifs <;> omega

theorem sar_signedValue : signedValue w (shiftN .sar w n (v, cf)).1 = signedValue w v / 2 ^ n := by
  induction n with
  | zero => exact (Int.ediv_one _).symm
  | succ n ih =>
    rw [shiftN_succ, sar_step_signedValue (shiftN_fits _ w n h), ih, Int.ediv_ediv_of_nonneg (by positivity), pow_succ]

/-- A number and its signed value are odd together. -/
theorem signedValue_odd_iff : signedValue w v % 2 = 1 ↔ v.toNat % 2 = 1 := by
  rw [signedValue_eq h]
  cases w with
  | byte => simp only [modOf, bitsOf]; split_ifs <;> omega
  | word => simp only [modOf, bitsOf]; split_ifs <;> omega

theorem sar_carry : (shiftN .sar w (n + 1) (v, cf)).2 = decide (signedValue w v / 2 ^ n % 2 = 1) := by
  rw [shiftN_right_carry h cf n rfl, BitVec.getLsbD, Nat.testBit_zero, decide_eq_decide, ← sar_signedValue h cf n,
    signedValue_odd_iff (shiftN_fits _ w n h)]

end

/-! ### Rotates as a turn of a ring of bits (R282-R285) -/

/-- The bits of an operand and, above them, CF. -/
def ringBit (w : Width) (p : Word × Bool) (i : Nat) : Bool := if i = bitsOf w then p.2 else p.1.getLsbD i

/-- How many bits a rotate turns: CF is one of them in RCL and RCR. -/
def ringSize (k : ShiftKind) (w : Width) : Nat :=
  match k with
  | .rcl | .rcr => bitsOf w + 1
  | _ => bitsOf w

/-- How far up, around the ring, stands the bit that one position brings. -/
def ringTurn (k : ShiftKind) (w : Width) : Nat := if goesLeft k = true then ringSize k w - 1 else 1

theorem ringTurn_left {k : ShiftKind} (left : goesLeft k = true) (w : Width) : ringTurn k w = ringSize k w - 1 :=
  if_pos left

theorem ringTurn_right {k : ShiftKind} (right : goesLeft k = false) (w : Width) : ringTurn k w = 1 := by
  rw [ringTurn, right, if_neg Bool.false_ne_true]

theorem ringSize_pos (k : ShiftKind) (w : Width) : 0 < ringSize k w := by cases k <;> cases w <;> decide

theorem bitsOf_pos (w : Width) : 0 < bitsOf w := by cases w <;> decide

theorem ringBit_inside {w : Width} (p : Word × Bool) {i : Nat} (hi : i < bitsOf w) : ringBit w p i = p.1.getLsbD i :=
  if_neg hi.ne

theorem ringBit_carry (w : Width) (p : Word × Bool) : ringBit w p (bitsOf w) = p.2 := if_pos rfl

theorem ringSize_bounds (k : ShiftKind) (w : Width) : bitsOf w ≤ ringSize k w ∧ ringSize k w ≤ bitsOf w + 1 := by
  cases k <;> simp [ringSize]

/-- The neighbour below, around a ring of `n` places. -/
theorem neighbour_below {n i : Nat} (hi : i < n) : (i + (n - 1)) % n = if i = 0 then n - 1 else i - 1 := by
  split_ifs with bottom
  · rw [bottom, Nat.zero_add, Nat.mod_eq_of_lt (by omega)]
  · rw [show i + (n - 1) = i - 1 + n by omega, Nat.add_mod_right, Nat.mod_eq_of_lt (by omega)]

/-- The bit that a rotate brings in at the bottom stands at the top of the ring. -/
theorem bitIn_left {k : ShiftKind} (rotate : k.isShift = false) (left : goesLeft k = true) {w : Width}
    {p : Word × Bool} (h : Fits w p.1) : bitIn k w p.1 p.2 = ringBit w p (ringSize k w - 1) := by
  cases k with
  | rol => rw [bitIn, msb_eq h, ← bitsOf_eq]; exact (ringBit_inside p (Nat.sub_lt (bitsOf_pos w) one_pos)).symm
  | rcl => exact (ringBit_carry w p).symm
  | shl => exact absurd rotate.symm Bool.false_ne_true
  | shr | sar | ror | rcr => exact absurd left Bool.false_ne_true

/-- The bit that a rotate brings in at the top of the operand is the next around the ring: the bottom bit, or CF. -/
theorem bitIn_right {k : ShiftKind} (rotate : k.isShift = false) (right : goesLeft k = false) {w : Width}
    (p : Word × Bool) : bitIn k w p.1 p.2 = ringBit w p (bitsOf w % ringSize k w) := by
  cases k with
  | ror =>
    have next : bitsOf w % ringSize .ror w = 0 := Nat.mod_self _
    rw [next, ringBit_inside p (bitsOf_pos w), bitIn]
  | rcr =>
    have next : bitsOf w % ringSize .rcr w = bitsOf w := Nat.mod_eq_of_lt (Nat.lt_add_one _)
    rw [next, ringBit_carry, bitIn]
  | shr | sar => exact absurd rotate.symm Bool.false_ne_true
  | shl | rol | rcl => exact absurd right.symm Bool.false_ne_true

/-- One position of a rotate brings to each place of the ring the bit of a neighbour. -/
theorem ringBit_shiftStep {k : ShiftKind} (rotate : k.isShift = false) {w : Width} {p : Word × Bool} (h : Fits w p.1)
    {i : Nat} (hi : i < ringSize k w) :
    ringBit w (shiftStep k w p.1 p.2) i = ringBit w p ((i + ringTurn k w) % ringSize k w) := by
  have pos := bitsOf_pos w
  obtain ⟨least, most⟩ := ringSize_bounds k w
  rcases (by omega : i < bitsOf w ∨ i = bitsOf w ∧ ringSize k w = bitsOf w + 1) with inside | ⟨carry, size⟩
  · cases direction : goesLeft k with
    | true =>
      rw [ringBit_inside _ inside, shiftStep_left_getLsbD h _ direction inside, ringTurn_left direction,
        neighbour_below hi]
      split_ifs with bottom
      · exact bitIn_left rotate direction h
      · exact (ringBit_inside p (by omega)).symm
    | false =>
      rw [ringBit_inside _ inside, shiftStep_right_getLsbD h _ direction inside, ringTurn_right direction]
      split_ifs with last
      · rw [bitIn_right rotate direction, last, Nat.sub_add_cancel pos]
      · rw [Nat.mod_eq_of_lt (by omega), ringBit_inside p (by omega)]
  · rw [carry, ringBit_carry]
    cases direction : goesLeft k with
    | true =>
      rw [shiftStep_left h _ direction, ringTurn_left direction, neighbour_below (carry ▸ hi), if_neg pos.ne',
        ringBit_inside p (by omega)]
    | false =>
      rw [shiftStep_right h _ direction, ringTurn_right direction, ← size, Nat.mod_self, ringBit_inside p pos]

theorem ringBit_shiftN {k : ShiftKind} (rotate : k.isShift = false) {w : Width} {p : Word × Bool} (h : Fits w p.1)
    (n : Nat) {i : Nat} (hi : i < ringSize k w) :
    ringBit w (shiftN k w n p) i = ringBit w p ((i + n * ringTurn k w) % ringSize k w) := by
  induction n generalizing p with
  | zero => rw [shiftN, Nat.zero_mul, Nat.add_zero, Nat.mod_eq_of_lt hi]
  | succ n ih =>
    rw [shiftN, ih (shiftStep_fits k w _ _), ringBit_shiftStep rotate h (Nat.mod_lt _ (ringSize_pos k w)),
      Nat.mod_add_mod, Nat.add_assoc, ← Nat.succ_mul]

/-- A whole turn of the ring. -/
theorem ringBit_whole_turn {k : ShiftKind} (rotate : k.isShift = false) {w : Width} {p : Word × Bool} (h : Fits w p.1)
    {i : Nat} (hi : i < ringSize k w) : ringBit w (shiftN k w (ringSize k w) p) i = ringBit w p i := by
  rw [ringBit_shiftN rotate h _ hi, Nat.add_mul_mod_self_left, Nat.mod_eq_of_lt hi]

/-- A turn up and as far down. -/
theorem ringBit_turn_back {up down : ShiftKind} (rotateUp : up.isShift = false) (rotateDown : down.isShift = false)
    {w : Width} {p : Word × Bool} (h : Fits w p.1) (size : ringSize down w = ringSize up w)
    (turns : ringTurn up w + ringTurn down w = ringSize up w) (n : Nat) {i : Nat} (hi : i < ringSize up w) :
    ringBit w (shiftN down w n (shiftN up w n p)) i = ringBit w p i := by
  rw [ringBit_shiftN rotateDown (shiftN_fits up w n h) n (size ▸ hi), size,
    ringBit_shiftN rotateUp h n (Nat.mod_lt _ (ringSize_pos up w)), Nat.mod_add_mod, Nat.add_assoc, ← Nat.mul_add,
    Nat.add_comm (ringTurn down w), turns, Nat.add_mul_mod_self_right, Nat.mod_eq_of_lt hi]

/-- Operands with the same ring of bits, without CF. -/
theorem eq_of_ringBit {w : Width} {p q : Word × Bool} (hp : Fits w p.1) (hq : Fits w q.1)
    (bits : ∀ i < bitsOf w, ringBit w p i = ringBit w q i) : p.1 = q.1 :=
  eq_of_bits hp hq fun i hi => by
    have same := bits i hi
    rwa [ringBit_inside p hi, ringBit_inside q hi] at same

/-- The same with CF. -/
theorem eq_of_ringBit_carry {w : Width} {p q : Word × Bool} (hp : Fits w p.1) (hq : Fits w q.1)
    (bits : ∀ i < bitsOf w + 1, ringBit w p i = ringBit w q i) : p = q := by
  have carry := bits _ (Nat.lt_succ_self _)
  rw [ringBit_carry, ringBit_carry] at carry
  exact Prod.ext (eq_of_ringBit hp hq fun i hi => bits i (hi.trans (Nat.lt_succ_self _))) carry

/-- Settles O20: SHL, SHR and SAR by induction on the positions, the rotates by their rings of bits. -/
theorem shiftsByManyPositions : Obligations.ShiftsByManyPositions := by
  intro w v cf k h
  dsimp only
  rw [← bitsOf_eq, ← modOf, ← halfOf]
  refine ⟨shl_toNat h cf k, shl_carry h cf k, shr_toNat h cf k, shr_carry h cf k, sar_signedValue h cf k,
    sar_carry h cf k, ⟨?_, ?_⟩, ⟨?_, ?_⟩, ⟨?_, ?_⟩, ⟨?_, ?_⟩, fun kind => ⟨rfl, shiftN_succ kind w k _⟩, ?_, ?_, ?_, ?_,
    ?_, ?_⟩
  · rw [← msb_toNat h]; exact shiftStep_left_toNat h cf rfl
  · exact congrArg Prod.snd (shiftStep_left h cf (k := .rol) rfl)
  · have bottom : (v.getLsbD 0).toNat = v.toNat % 2 := (Nat.toNat_testBit _ 0).trans (by rw [pow_zero, Nat.div_one])
    rw [← bottom]
    exact shiftStep_right_toNat h cf rfl
  · exact congrArg Prod.snd (shiftStep_right h cf (k := .ror) rfl)
  · exact shiftStep_left_toNat h cf rfl
  · exact congrArg Prod.snd (shiftStep_left h cf (k := .rcl) rfl)
  · exact shiftStep_right_toNat h cf rfl
  · exact congrArg Prod.snd (shiftStep_right h cf (k := .rcr) rfl)
  · exact eq_of_ringBit (shiftN_fits _ w _ h) h fun i hi => ringBit_whole_turn (k := .rol) rfl h hi
  · exact eq_of_ringBit (shiftN_fits _ w _ h) h fun i hi => ringBit_whole_turn (k := .ror) rfl h hi
  · exact eq_of_ringBit_carry (shiftN_fits _ w _ h) h fun i hi => ringBit_whole_turn (k := .rcl) rfl h hi
  · exact eq_of_ringBit_carry (shiftN_fits _ w _ h) h fun i hi => ringBit_whole_turn (k := .rcr) rfl h hi
  · exact eq_of_ringBit (shiftN_fits _ w _ (shiftN_fits _ w _ h)) h fun i hi =>
      ringBit_turn_back (up := .rol) (down := .ror) rfl rfl h rfl (Nat.sub_add_cancel (ringSize_pos _ w)) k hi
  · exact eq_of_ringBit_carry (shiftN_fits _ w _ (shiftN_fits _ w _ h)) h fun i hi =>
      ringBit_turn_back (up := .rcl) (down := .rcr) rfl rfl h rfl (Nat.sub_add_cancel (ringSize_pos _ w)) k hi

end Sys2Proof.Certificates.Shifts

/-! SUPPORT and CERTIFICATE. The string instructions: what one element does to the CPU and the memory, and what a turn of
the repetition loop adds to it. -/

namespace Sys2Proof.Certificates.Strings

open Sys2Proof.Machine Sys2Proof.Certificates.DataTransfer

/-! ### Updates of the CPU that do not look at its queue -/

/-- What an update makes of the registers does not depend on the queue. -/
def IgnoresQueue (g : Cpu → Cpu) : Prop := ∀ c d : Cpu, c.core = d.core → (g c).core = (g d).core

theorem loads_update {s t : State} {c : Cpu} (h : s.Loads t c) {g : Cpu → Cpu} (ignores : IgnoresQueue g) :
    s.Loads { t with cpu := g t.cpu } (g c) := by
  obtain ⟨cpu, bytes, beyond⟩ := h
  exact ⟨ignores _ _ cpu, bytes, beyond⟩

theorem stores_update {s t : State} {c : Cpu} {n : Nat} {addr : Nat → Nat} {v : Nat} (h : s.Stores t c n addr v)
    {g : Cpu → Cpu} (ignores : IgnoresQueue g) : s.Stores { t with cpu := g t.cpu } (g c) n addr v := by
  obtain ⟨cpu, stored, beyond⟩ := h
  exact ⟨ignores _ _ cpu, stored, beyond⟩

/-! ### One element (43_string.md R301-R306) -/

/-- Where the source element stands: at SI, in DS or the override segment. -/
def sourceAddr (c : Cpu) (k : Nat) : Nat := phys (c.segFor .ds) (c.si + BitVec.ofNat 16 k)

/-- Where the destination element stands: at ES:DI. -/
def destAddr (c : Cpu) (k : Nat) : Nat := phys c.es (c.di + BitVec.ofNat 16 k)

/-- DI past the element. -/
def pastDest (w : Width) (c : Cpu) : Cpu := { c with di := c.di + stringStep c w }

/-- SI and DI past their elements. -/
def pastBoth (w : Width) (c : Cpu) : Cpu := { c with si := c.si + stringStep c w, di := c.di + stringStep c w }

theorem delta_eq (s : State) (w : Width) : s.delta w = stringStep s.cpu w := by
  unfold State.delta stringStep
  cases s.cpu.f.df <;> cases w <;> rfl

theorem stepDi_eq (s : State) (w : Width) : s.stepDi w = { s with cpu := pastDest w s.cpu } := by
  rw [State.stepDi, delta_eq]
  rfl

theorem stepBoth_eq (s : State) (w : Width) : (s.stepSi w).stepDi w = { s with cpu := pastBoth w s.cpu } := by
  rw [stepDi_eq, State.stepSi, delta_eq]
  rfl

theorem pastDest_ignoresQueue (w : Width) : IgnoresQueue (pastDest w) := fun c d h => by
  rw [Cpu.core_eq h]
  rfl

theorem pastBoth_ignoresQueue (w : Width) : IgnoresQueue (pastBoth w) := fun c d h => by
  rw [Cpu.core_eq h]
  rfl

theorem source_quiet (s : State) (w : Width) : s.Quiet (s.source w).2 := s.readMem_quiet w _ _

theorem source_value (s : State) (w : Width) : s.BytesAre w (sourceAddr s.cpu) (s.source w).1 := s.readMem_value w _ _

theorem dest_quiet (s : State) (w : Width) : s.Quiet (s.dest w).2 := s.readMem_quiet w _ _

theorem dest_value (s : State) (w : Width) : s.BytesAre w (destAddr s.cpu) (s.dest w).1 := s.readMem_value w _ _

/-- An element written at ES:DI, after reads of the bus. -/
theorem writeDest_stores {s t : State} (h : s.Quiet t) (w : Width) (v : Word) :
    s.Stores (t.writeMem w s.cpu.es s.cpu.di v) s.cpu (widthBytes w) (destAddr s.cpu) v.toNat := by
  obtain ⟨⟨cpu, beyond⟩, stored⟩ := t.writeMem_spec w s.cpu.es s.cpu.di v
  rw [h.1] at cpu
  exact quiet_stores h ⟨cpu, stored, beyond⟩

theorem movsElem_stores (s : State) (w : Width) :
    s.Stores (movsElem w s) (pastBoth w s.cpu) (widthBytes w) (destAddr s.cpu) (s.source w).1.toNat := by
  rw [movsElem, stepBoth_eq]
  exact stores_update (writeDest_stores (source_quiet s w) w _) (pastBoth_ignoresQueue w)

/-- The destination element is read second; the first read has changed nothing that it depends on. -/
theorem cmpsElem_loads (s : State) (w : Width) :
    ∃ b, s.BytesAre w (destAddr s.cpu) b ∧
      s.Loads (cmpsElem w s) (pastBoth w { s.cpu with f := s.cpu.f.sub w (s.source w).1 b false }) := by
  have first := source_quiet s w
  have second := dest_quiet (s.source w).2 w
  have value := (dest_value (s.source w).2 w).quiet first
  rw [first.1] at value
  refine ⟨_, value, ?_⟩
  rw [cmpsElem, stepBoth_eq]
  exact quiet_loads (first.trans second) fun c =>
    pastBoth w { c with f := s.cpu.f.sub w (s.source w).1 ((s.source w).2.dest w).1 false }

theorem scasElem_loads (s : State) (w : Width) :
    s.Loads (scasElem w s) (pastDest w { s.cpu with f := s.cpu.f.sub w (s.cpu.reg w .ax) (s.dest w).1 false }) := by
  rw [scasElem, stepDi_eq]
  exact quiet_loads (dest_quiet s w) fun c =>
    pastDest w { c with f := s.cpu.f.sub w (s.cpu.reg w .ax) (s.dest w).1 false }

/-- The accumulator is written before SI moves, and neither sees the other. -/
theorem lodsElem_loads (s : State) (w : Width) :
    s.Loads (lodsElem w s)
      { s.cpu.setReg w .ax (s.source w).1 with si := s.cpu.si + stringStep s.cpu w } := by
  have loaded := quiet_loads (source_quiet s w) fun c =>
    { c.setReg w .ax (s.source w).1 with si := c.si + stringStep c w }
  rw [lodsElem, State.stepSi, delta_eq]
  cases w <;> exact loaded

theorem stosElem_stores (s : State) (w : Width) :
    s.Stores (stosElem w s) (pastDest w s.cpu) (widthBytes w) (destAddr s.cpu) (s.cpu.reg w .ax).toNat := by
  rw [stosElem, stepDi_eq]
  exact stores_update (writeDest_stores (.refl s) w _) (pastDest_ignoresQueue w)

/-! ### One turn of the repetition loop (R308, R309) -/

theorem lead_of_core {c d : Cpu} (h : c.core = d.core) : c.lead = d.lead := by rw [Cpu.core_eq h]

theorem afterElement_none {c : Cpu} (h : c.lead.rep = none) (i : Instr) (compares : Bool) :
    afterElement c i compares = c := by
  rw [afterElement, h]

theorem afterElement_some {c : Cpu} {z : Bool} (h : c.lead.rep = some z) (i : Instr) (compares : Bool) :
    afterElement c i compares = { c with
      cx := c.cx - 1#16,
      phase := if c.cx - 1#16 = 0#16 ∨ (compares = true ∧ c.f.zf ≠ z) then c.phase else .element i } := by
  rw [afterElement, h]

theorem afterElement_ignoresQueue (i : Instr) (compares : Bool) :
    IgnoresQueue fun c => afterElement c i compares := fun c d h => by
  have lead := lead_of_core h
  dsimp only
  cases rep : d.lead.rep with
  | none => rwa [afterElement_none (lead ▸ rep), afterElement_none rep]
  | some z =>
    rw [afterElement_some (lead ▸ rep), afterElement_some rep, Cpu.core_eq h]
    rfl

/-- With CX = 0 a repeat byte lets no element happen. -/
theorem repeated_zero {s : State} (rep : s.cpu.lead.rep ≠ none) (zero : s.cpu.cx = 0#16) (i : Instr) (compares : Bool)
    (elem : State → State) : repeated i compares elem s = .next s := by
  obtain ⟨z, hz⟩ := Option.ne_none_iff_exists'.mp rep
  rw [repeated, hz]
  exact if_pos zero

section
variable {s : State} (active : s.cpu.lead.rep = none ∨ s.cpu.cx ≠ 0#16) {i : Instr} {compares : Bool}
  {elem : State → State}
include active

/-- Else a turn is one element, after which CX is counted and the instruction ends or stands between two elements. -/
theorem repeated_active (lead : (elem s).cpu.lead = s.cpu.lead) :
    repeated i compares elem s = .next { elem s with cpu := afterElement (elem s).cpu i compares } := by
  cases rep : s.cpu.lead.rep with
  | none =>
    rw [repeated, rep, afterElement_none (lead ▸ rep)]
  | some z =>
    have count : s.cpu.cx ≠ 0#16 := active.resolve_left (by rw [rep]; exact Option.some_ne_none z)
    rw [repeated, rep, afterElement_some (lead ▸ rep)]
    dsimp only
    rw [if_neg count]
    split <;> rfl

variable {c : Cpu} (runs : exec i s = repeated i compares elem s)
include runs

/-- An instruction whose element reads the bus and updates the CPU. -/
theorem becomes_afterElement (loads : s.Loads (elem s) c) (lead : c.lead = s.cpu.lead) :
    Becomes s i (afterElement c i compares) :=
  ⟨_, runs.trans (repeated_active active ((lead_of_core loads.1).trans lead)),
    loads_update loads (afterElement_ignoresQueue i compares)⟩

/-- An instruction whose element is stored. -/
theorem writes_afterElement {n : Nat} {addr : Nat → Nat} {v : Nat} (stores : s.Stores (elem s) c n addr v)
    (lead : c.lead = s.cpu.lead) : Writes s i (afterElement c i compares) n addr v :=
  ⟨_, runs.trans (repeated_active active ((lead_of_core stores.1).trans lead)),
    stores_update stores (afterElement_ignoresQueue i compares)⟩

end

/-- Settles O21: an element is reads of the bus, at most one store and an update of the CPU, and under a repeat byte the
count of CX follows it. -/
theorem stringElements : Obligations.StringElements := by
  intro s w
  dsimp only
  refine ⟨fun active => ⟨?_, ?_, ?_, ?_, ?_⟩, fun rep zero => ?_⟩
  · exact ⟨_, source_value s w, writes_afterElement active rfl (movsElem_stores s w) rfl⟩
  · obtain ⟨b, value, loads⟩ := cmpsElem_loads s w
    exact ⟨_, b, source_value s w, value, becomes_afterElement active rfl loads rfl⟩
  · exact ⟨_, dest_value s w, becomes_afterElement active rfl (scasElem_loads s w) rfl⟩
  · exact ⟨_, source_value s w,
      becomes_afterElement active rfl (lodsElem_loads s w) (s.cpu.setReg_lead w .ax _)⟩
  · exact writes_afterElement active rfl (stosElem_stores s w) rfl
  · exact ⟨repeated_zero rep zero .., repeated_zero rep zero .., repeated_zero rep zero .., repeated_zero rep zero ..,
      repeated_zero rep zero ..⟩

end Sys2Proof.Certificates.Strings

/-! SUPPORT and CERTIFICATE. Requests while an instruction is in progress: between the elements of a repeated string
instruction and inside WAIT the boundary procedure leaves the instruction, and in the halt it waits for a request. -/

namespace Sys2Proof.Certificates.Interruption

open Sys2Proof.Machine

/-- What a boundary inside an instruction looks for: a request, or a single step. -/
def Asked (s : State) : Prop := s.requested = true ∨ s.cpu.stepPending = true

/-- The instruction is left at `ip` when something is asked, and goes on when nothing is. -/
theorem leave_iff_asked (s : State) (ip : Word) :
    let after := if (s.requested || s.cpu.stepPending) = true then (s.leave ip).takeAll else s
    (¬Asked s → after = s) ∧ (Asked s → after = (s.leave ip).takeAll) := by
  have asked : (s.requested || s.cpu.stepPending) = true ↔ Asked s := by rw [Bool.or_eq_true]; rfl
  exact ⟨fun quiet => if_neg (mt asked.mp quiet), fun h => if_pos (asked.mpr h)⟩

/-- Between two elements the instruction goes on again from its last leading byte (60_exceptions.md R814). -/
theorem boundary_element {s : State} {i : Instr} (phase : s.cpu.phase = .element i) :
    (¬Asked s → s.boundary = s) ∧ (Asked s → s.boundary = (s.leave s.cpu.lead.last).takeAll) := by
  rw [State.boundary, phase]
  exact leave_iff_asked s _

/-- WAIT goes on again from its first leading byte, or from itself (R814, D20). -/
theorem boundary_testing {s : State} (phase : s.cpu.phase = .testing) :
    (¬Asked s → s.boundary = s) ∧
      (Asked s → s.boundary = (s.leave (s.cpu.lead.first.getD s.cpu.instrAddr)).takeAll) := by
  rw [State.boundary, phase]
  exact leave_iff_asked s _

theorem haltedStep_unrequested {s : State} (h : s.requested = false) : s.haltedStep = s := by
  rw [State.haltedStep, h, if_neg Bool.false_ne_true]

theorem requested_of_nmi {s : State} (h : s.cpu.nmiPending = true) : s.requested = true := by
  rw [State.requested, h, Bool.true_or]

theorem requested_closed {s : State} (gate : s.cpu.f.ifl = false) (nmi : s.cpu.nmiPending = false) :
    s.requested = false := by
  rw [State.requested, nmi, gate, Bool.false_and, Bool.or_false]

/-- Settles O35: the two boundaries inside an instruction, and what the halt waits for. -/
theorem requestsInterruptLongInstructions : Obligations.RequestsInterruptLongInstructions := fun _ =>
  ⟨fun _ phase => boundary_element phase, boundary_testing, haltedStep_unrequested, requested_of_nmi, requested_closed⟩

end Sys2Proof.Certificates.Interruption

/-! SUPPORT and CERTIFICATES. Control transfer: jumps, calls, returns, conditional jumps and loops, software interrupts
and the return from an interrupt, and what the flags of a comparison tell of its operands. -/

namespace Sys2Proof.Certificates.ControlTransfer

open Sys2Proof.Machine Sys2Proof.Certificates.Arithmetic Sys2Proof.Certificates.DataTransfer
  Sys2Proof.Certificates.Strings

/-! ### Jumps (44_control_transfer.md R321-R325) -/

/-- Settles O22: a jump is one update of the CPU, after the reads of its operand. -/
theorem unconditionalJumps : Obligations.UnconditionalJumps := by
  refine fun s => ⟨fun rel => ?_, fun rel => ?_, fun rm => ?_, fun off seg => ?_, fun m => ?_⟩
  · exact ⟨_, rfl, rfl, sameOutside_update s _ s.free⟩
  · exact ⟨_, rfl, rfl, sameOutside_update s _ s.free⟩
  · exact ⟨_, s.readRm_value .word rm, _, rfl,
      quiet_loads (s.readRm_quiet .word rm) fun c => { c with ip := _, stale := [], ahead := [] }⟩
  · exact ⟨_, rfl, rfl, sameOutside_update s _ s.free⟩
  · exact ⟨_, _, s.readFar_value m, _, rfl,
      quiet_loads (s.readFar_quiet m) fun c => { c with cs := _, ip := _, stale := [], ahead := [] }⟩

/-! ### Calls (R326-R329) -/

theorem jumpNear_stores {s t : State} {c : Cpu} {n : Nat} {addr : Nat → Nat} {v : Nat} (h : s.Stores t c n addr v)
    (ip : Word) : s.Stores (t.jumpNear ip) { c with ip := ip } n addr v :=
  stores_update h (g := fun c => { c with ip := ip, stale := [], ahead := [] }) fun c d h => by rw [Cpu.core_eq h]

theorem jumpFar_stores {s t : State} {c : Cpu} {n : Nat} {addr : Nat → Nat} {v : Nat} (h : s.Stores t c n addr v)
    (cs ip : Word) : s.Stores (t.jumpFar cs ip) { c with cs := cs, ip := ip } n addr v :=
  stores_update h (g := fun c => { c with cs := cs, ip := ip, stale := [], ahead := [] }) fun c d h => by
    rw [Cpu.core_eq h]

/-- A word pushed after reads of the bus. -/
theorem push_stores {s t : State} (h : s.Quiet t) (v : Word) :
    s.Stores (t.push16 v) { s.cpu with sp := s.cpu.sp - 2#16 } 2 (stackAddr s.cpu.ss (s.cpu.sp - 2#16)) v.toNat := by
  have pushed := quiet_stores h (t.push16_spec v)
  rwa [h.1] at pushed

/-- Two words pushed after reads of the bus: the second lies below the first. -/
theorem push_push_stores {s t : State} (h : s.Quiet t) (v w : Word) :
    s.Stores ((t.push16 v).push16 w) { s.cpu with sp := s.cpu.sp - 4#16 } 4 (stackAddr s.cpu.ss (s.cpu.sp - 4#16))
      (w.toNat + 2 ^ 16 * v.toNat) := by
  obtain ⟨cpu, stored, beyond⟩ := push_stores h v
  obtain ⟨cpu', stored', beyond'⟩ := (t.push16 v).push16_spec w
  obtain ⟨ss, sp, -⟩ := Cpu.core_regs cpu
  have twice : s.cpu.sp - 2#16 - 2#16 = s.cpu.sp - 4#16 := by
    simp only [BitVec.sub_eq_add_neg, BitVec.add_assoc]
    rfl
  rw [ss, sp] at stored'
  have both := State.StoredAt.pushed (Queue.plat_of_sameBeyondBus beyond) (by decide) stored stored'
  rw [twice] at both
  refine ⟨?_, both, beyond.trans beyond'⟩
  rw [cpu', Cpu.core_eq cpu, ← twice]
  rfl

/-- Settles O23: one or two pushes after the reads of the operand, in this order (D4), then a jump. -/
theorem callsPushTheReturnAddress : Obligations.CallsPushTheReturnAddress := by
  refine fun s => ⟨fun rel => ?_, fun rm => ?_, fun off seg => ?_, fun m => ?_⟩
  · exact ⟨_, rfl, jumpNear_stores (push_stores (.refl s) _) _⟩
  · exact ⟨_, s.readRm_value .word rm, _, rfl, jumpNear_stores (push_stores (s.readRm_quiet .word rm) _) _⟩
  · exact ⟨_, rfl, jumpFar_stores (push_push_stores (.refl s) _ _) _ _⟩
  · exact ⟨_, _, s.readFar_value m, _, rfl, jumpFar_stores (push_push_stores (s.readFar_quiet m) _ _) _ _⟩

/-! ### Returns (R330-R333, R358) -/

/-- The machine with SP `k` bytes further up. -/
def raiseSp (s : State) (k : Nat) : State := { s with cpu := { s.cpu with sp := s.cpu.sp + BitVec.ofNat 16 k } }

/-- A pop when `k` bytes are already off the stack: the word above them, and SP past it. -/
theorem pop_above {s t : State} {k : Nat} (h : (raiseSp s k).Quiet t) :
    s.StackIs k (t.pop16).1 ∧ (raiseSp s (k + 2)).Quiet (t.pop16).2 := by
  obtain ⟨cpu, mem, beyond⟩ := t.pop16_spec
  refine ⟨?_, ?_, mem.trans h.2.1, h.2.2.trans beyond⟩
  · change (raiseSp s k).BytesAre .word (fun j => stackAddr s.cpu.ss s.cpu.sp (k + j)) _
    refine (t.pop16_value.quiet h).congr fun j => ?_
    rw [h.1, Nat.zero_add, stackAddr_add]
    rfl
  · rw [cpu, h.1]
    simp only [raiseSp, BitVec.ofNat_add, BitVec.add_assoc]

theorem pop_first (s : State) : s.StackIs 0 (s.pop16).1 ∧ (raiseSp s 2).Quiet (s.pop16).2 :=
  ⟨s.pop16_value, pop16_quiet s⟩

/-- Settles O24: one or two pops, then a jump and the step of SP. -/
theorem returnsPopTheAddress : Obligations.ReturnsPopTheAddress := by
  intro s
  obtain ⟨ip, popped⟩ := pop_first s
  obtain ⟨cs, popped'⟩ := pop_above popped
  refine ⟨⟨_, ip, ⟨_, rfl, ?_⟩, fun n => ⟨_, rfl, ?_⟩⟩, ⟨_, _, ip, cs, ⟨_, rfl, ?_⟩, fun n => ⟨_, rfl, ?_⟩⟩⟩
  · exact quiet_loads popped fun c => { c with ip := _, stale := [], ahead := [] }
  · exact quiet_loads popped fun c => { c with sp := c.sp + n, ip := _, stale := [], ahead := [] }
  · exact quiet_loads popped' fun c => { c with cs := _, ip := _, stale := [], ahead := [] }
  · exact quiet_loads popped' fun c => { c with sp := c.sp + n, cs := _, ip := _, stale := [], ahead := [] }

/-- Settles O28: three pops, then a jump and the flags. -/
theorem interruptReturnPopsThreeWords : Obligations.InterruptReturnPopsThreeWords := by
  intro s
  obtain ⟨ip, popped⟩ := pop_first s
  obtain ⟨cs, popped'⟩ := pop_above popped
  obtain ⟨f, popped''⟩ := pop_above popped'
  exact ⟨_, _, _, ip, cs, f, _, rfl,
    quiet_loads popped'' fun c => { c with cs := _, ip := _, f := Flags.ofWord _, stale := [], ahead := [] }⟩

/-! ### Conditional jumps and loops (R334-R354) -/

/-- What each condition of Table 2.11 asks of the flags. -/
def Asks (f : Flags) : Cond → Prop
  | .o => f.ofl = true
  | .no => f.ofl = false
  | .b => f.cf = true
  | .nb => f.cf = false
  | .e => f.zf = true
  | .ne => f.zf = false
  | .be => f.cf = true ∨ f.zf = true
  | .a => f.cf = false ∧ f.zf = false
  | .s => f.sf = true
  | .ns => f.sf = false
  | .p => f.pf = true
  | .np => f.pf = false
  | .l => f.sf ≠ f.ofl
  | .ge => f.sf = f.ofl
  | .le => f.sf ≠ f.ofl ∨ f.zf = true
  | .g => f.sf = f.ofl ∧ f.zf = false

theorem holds_iff (c : Cond) (f : Flags) : Cond.holds c f = true ↔ Asks f c := by
  cases c <;> simp [Cond.holds, Asks]

theorem branch_true (rel : Byte) (s : State) : branch true rel s = .next (s.jumpNear (s.cpu.ip + rel.signExtend 16)) :=
  rfl

theorem branch_false (rel : Byte) (s : State) : branch false rel s = .next s := rfl

/-- A conditional jump (R334): the jump, or no effect at all. -/
theorem branch_jumps {s : State} {i : Instr} {rel : Byte} (c : Cond)
    (runs : exec i s = branch (c.holds s.cpu.f) rel s) :
    (Asks s.cpu.f c → Only s i { s.cpu with ip := s.cpu.ip + rel.signExtend 16 }) ∧
      (¬Asks s.cpu.f c → exec i s = .next s) := by
  rw [← holds_iff]
  refine ⟨fun holds => ?_, fun fails => ?_⟩
  · rw [holds, branch_true] at runs
    exact ⟨_, runs, rfl, sameOutside_update s _ s.free⟩
  · rwa [Bool.eq_false_of_not_eq_true fails, branch_false] at runs

/-- A jump that follows an update of the CPU, here the count of CX (R351). -/
theorem branch_only {s : State} {c : Cpu} {i : Instr} {rel : Byte} {b : Bool} {p : Prop} [Decidable p]
    (runs : exec i s = branch b rel { s with cpu := c }) (asks : b = true ↔ p) :
    Only s i { c with ip := if p then c.ip + rel.signExtend 16 else c.ip } := by
  cases b with
  | true =>
    rw [if_pos (asks.mp rfl)]
    exact ⟨_, runs, rfl, sameOutside_update s _ s.free⟩
  | false =>
    rw [if_neg fun h => Bool.false_ne_true (asks.mpr h)]
    exact ⟨_, runs, rfl, sameOutside_update s c s.free⟩

/-- Settles O25: each of the sixteen branches on its condition; the loops branch after CX is counted. -/
theorem conditionalJumpsAndLoops : Obligations.ConditionalJumpsAndLoops := by
  refine ⟨fun s rel => ?_, fun s rel => ⟨?_, ?_, ?_, ?_⟩⟩
  · exact ⟨branch_jumps .o rfl, branch_jumps .no rfl, branch_jumps .b rfl, branch_jumps .nb rfl, branch_jumps .e rfl,
      branch_jumps .ne rfl, branch_jumps .be rfl, branch_jumps .a rfl, branch_jumps .s rfl, branch_jumps .ns rfl,
      branch_jumps .p rfl, branch_jumps .np rfl, branch_jumps .l rfl, branch_jumps .ge rfl, branch_jumps .le rfl,
      branch_jumps .g rfl⟩
  · exact branch_only (c := s.decCx.cpu) rfl bne_iff_ne
  · exact branch_only (c := s.decCx.cpu) rfl (by rw [Bool.and_eq_true, bne_iff_ne]; rfl)
  · exact branch_only (c := s.decCx.cpu) rfl (by rw [Bool.and_eq_true, bne_iff_ne, Bool.not_eq_true']; rfl)
  · exact branch_only (c := s.cpu) rfl beq_iff_eq

/-! ### The order of the operands of a comparison (R335-R344, 41_arithmetic.md R237) -/

section
variable (f : Flags) {w : Width} {a b : Word} (ha : Fits w a) (hb : Fits w b)
include ha hb

theorem compare_cf : (f.sub w a b false).cf = true ↔ a.toNat < b.toNat := by
  obtain ⟨-, borrow, -⟩ := subtractionFlags f w a b false ha hb
  exact borrow

theorem compare_zf : (f.sub w a b false).zf = true ↔ a = b := by
  have zero : (f.sub w a b false).zf = true ↔ (subResult w a b false).toNat % modOf w = 0 := beq_iff_eq
  have result := subResult_toNat w false hb (a := a)
  have la := fits_lt ha
  have lb := fits_lt hb
  rw [zero, ← BitVec.toNat_inj]
  cases w with
  | byte => simp only [modOf, bitsOf, Bool.toNat_false] at *; omega
  | word => simp only [modOf, bitsOf, Bool.toNat_false] at *; omega

/-- SF differs from OF exactly when the signed difference is negative: SF is the sign of the difference modulo 2^N, and
OF tells whether that difference is out of range. -/
theorem compare_sf_ofl :
    (f.sub w a b false).sf ≠ (f.sub w a b false).ofl ↔ signedValue w a < signedValue w b := by
  have sign : (f.sub w a b false).sf = true ↔ halfOf w ≤ (subResult w a b false).toNat % modOf w := decide_eq_true_iff
  have range := (sub_ofl_iff f w a b false).trans (borrows_differ_iff false ha hb)
  have result := subResult_toNat w false hb (a := a)
  have la := fits_lt ha
  have lb := fits_lt hb
  rw [ne_eq, Bool.eq_iff_iff, sign, range, signedValue_eq ha, signedValue_eq hb]
  cases w with
  | byte => simp only [halfOf, modOf, bitsOf, Bool.toNat_false] at *; split_ifs <;> omega
  | word => simp only [halfOf, modOf, bitsOf, Bool.toNat_false] at *; split_ifs <;> omega

/-- Different values of a width are different signed numbers. -/
theorem signedValue_inj : signedValue w a = signedValue w b ↔ a = b := by
  have la := fits_lt ha
  have lb := fits_lt hb
  rw [← BitVec.toNat_inj, signedValue_eq ha, signedValue_eq hb]
  cases w with
  | byte => simp only [halfOf, modOf, bitsOf] at *; split_ifs <;> omega
  | word => simp only [halfOf, modOf, bitsOf] at *; split_ifs <;> omega

end

/-- Settles O26: of two operands CMP tells whether the left one is less, unsigned and signed, and whether they are equal;
every condition is made of these three facts. -/
theorem jumpsAfterCompareTellTheOrder : Obligations.JumpsAfterCompareTellTheOrder := by
  intro f w a b ha hb
  have below := compare_cf f ha hb
  have less := compare_sf_ofl f ha hb
  have equal := compare_zf f ha hb
  have notBelow : (f.sub w a b false).cf = false ↔ ¬a.toNat < b.toNat := by rw [← below, Bool.not_eq_true]
  have notLess : (f.sub w a b false).sf = (f.sub w a b false).ofl ↔ ¬signedValue w a < signedValue w b := by
    rw [← less, not_ne_iff]
  have notEqual : (f.sub w a b false).zf = false ↔ a ≠ b := by rw [ne_eq, ← equal, Bool.not_eq_true]
  have number : a = b ↔ a.toNat = b.toNat := BitVec.toNat_inj.symm
  have signed := signedValue_inj ha hb
  simp only [holds_iff, Asks]
  refine ⟨below, ?_, ?_, ?_, less, ?_, ?_, ?_, equal, notEqual⟩
  · rw [below, equal, number]; omega
  · rw [notBelow, notEqual, ne_eq, number]; omega
  · rw [notBelow]; omega
  · rw [less, equal, ← signed]; omega
  · rw [notLess, notEqual, ne_eq, ← signed]; omega
  · rw [notLess]; omega

/-! ### Software interrupts (R355-R357) -/

/-- Settles O27: the entry sequence of the type, which INTO takes under its condition. -/
theorem softwareInterruptsEnter : Obligations.SoftwareInterruptsEnter := by
  refine fun s => ⟨fun n => ⟨_, rfl, s.interrupt_spec n⟩, ⟨_, rfl, s.interrupt_spec 3#8⟩, fun overflow => ?_,
    fun fits => ?_⟩
  · exact ⟨_, congrArg Host.Outcome.next (if_pos overflow), s.interrupt_spec 4#8⟩
  · exact congrArg Host.Outcome.next (if_neg (Bool.not_eq_true _ ▸ fits))

end Sys2Proof.Certificates.ControlTransfer

/-! SUPPORT and CERTIFICATE. Processor control: TEST and WAIT, ESC without a coprocessor, the leading bytes, and which
agents a LOCK keeps off the bus. -/

namespace Sys2Proof.Certificates.ProcessorControl

open Sys2Proof.Machine Sys2Proof.Certificates.DataTransfer

/-! ### WAIT (45_processor_control.md R371) -/

/-- The pin BUSY is SR.B, and 1 while the VM87 executes (10_state.md R53, R59). -/
theorem bit_fpuStatus (s : State) : bit s.fpuStatus 15 = (s.fpu.sr.getLsbD 15 || s.run.active) := by
  unfold State.fpuStatus
  cases s.run.active with
  | false => exact (Bool.or_false _).symm
  | true => rw [if_pos rfl, Fpu.srActive, bit, setBit_getLsbD _ _ _ _ (by decide), if_pos rfl, Bool.or_true]

theorem wait_goesOn {s : State} (h : s.testLevel = false) : exec .wait s = .next s :=
  if_neg (by rw [h]; exact Bool.false_ne_true)

theorem wait_stays {s : State} (h : s.testLevel = true) : Only s .wait { s.cpu with phase := .testing } :=
  ⟨_, if_pos h, rfl, sameOutside_update s _ s.free⟩

/-! ### ESC without a coprocessor (R372) -/

/-- Every instruction of the VM87 asks first whether it is there, so that without one only the first branch counts. -/
theorem ite_absent {s : State} (absent : s.plat.hasVm87 = false) (without beside : Result) :
    (if !s.plat.hasVm87 then without else beside) = without := by
  rw [absent]; rfl

/-- The CPU's read of an operand leaves its registers and the memory. -/
theorem becomes_of_reads {s : State} {i : Instr} {m : MemOp} (runs : exec i s = .next (s.readOp .word m).2) :
    Becomes s i s.cpu :=
  ⟨_, runs, quiet_loads (s.readOp_quiet .word m) id⟩

theorem forall_becomes_of_reads {s : State} {m : MemOp} {l : List Instr}
    (runs : ∀ i ∈ l, exec i s = .next (s.readOp .word m).2) :
    ∀ i ∈ l, exec i s = .next (s.readOp .word m).2 ∧ Becomes s i s.cpu :=
  fun i listed => ⟨runs i listed, becomes_of_reads (runs i listed)⟩

/-- An ESC that no VM87 lists. -/
theorem esc_absent {s : State} (absent : s.plat.hasVm87 = false) (x y : BitVec 3) :
    (∀ r, exec (.esc x y (.reg r)) s = .next s) ∧
      ∀ m, exec (.esc x y (.mem m)) s = .next (s.readOp .word m).2 ∧ Becomes s (.esc x y (.mem m)) s.cpu := by
  have there : ¬s.plat.hasVm87 = true := by rw [absent]; exact Bool.false_ne_true
  exact ⟨fun r => if_neg there, fun m => ⟨if_neg there, becomes_of_reads (if_neg there)⟩⟩

/-! ### Leading bytes (10_state.md R42) -/

/-- After a leading byte no request is looked at. -/
theorem boundary_leading {s : State} (phase : s.cpu.phase = .leading) : s.boundary = s := by
  rw [State.boundary, phase]

/-! ### The bus under LOCK (20_memory.md R125, R369) -/

section Locked

variable {s : State} (lock : s.cpu.lead.lock = true)
include lock

theorem grantWaits_of_lock : s.grantWaits = true := by
  rw [State.grantWaits, State.cpuLocks, lock, Bool.true_or, Bool.true_or]

/-- The VM87 moves exactly when its turn needs no bus. -/
theorem fpuMay_of_lock : s.fpuMay = (s.fpuReady && !s.run.needsBus) := by
  rw [State.fpuMay, State.cpuLocks, lock]; rfl

theorem iopMay_of_lock : s.iopMay = (s.iopReady && !s.iopNeedsBus) := by
  rw [State.iopMay, State.cpuLocks, lock]; rfl

theorem needsBus_of_fpuMay (may : s.fpuMay = true) : s.run.needsBus = false := by
  rw [fpuMay_of_lock lock, Bool.and_eq_true, Bool.not_eq_true'] at may
  exact may.2

theorem iopNeedsBus_of_iopMay (may : s.iopMay = true) : s.iopNeedsBus = false := by
  rw [iopMay_of_lock lock, Bool.and_eq_true, Bool.not_eq_true'] at may
  exact may.2

theorem cpuOrFpu_of_lock (own : s.iop.lockOut = false) :
    s.cpuOrFpu.1 = .cpu ∨ s.cpuOrFpu.1 = .fpu ∧ s.run.needsBus = false := by
  rw [State.cpuOrFpu, own, if_neg Bool.false_ne_true]
  cases may : s.fpuMay with
  | false => exact .inl rfl
  | true =>
    have quiet := needsBus_of_fpuMay lock may
    rw [Bool.not_true, if_neg Bool.false_ne_true]
    split
    · exact .inr ⟨rfl, quiet⟩
    · dsimp only
      split
      · exact .inr ⟨rfl, quiet⟩
      · exact .inl rfl

/-- Two agents that ask for the bus at once are two that may have it. -/
theorem bothAsk_of_lock : s.bothAsk = false := by
  rw [State.bothAsk]
  cases may : s.fpuMay with
  | false => rw [Bool.and_false, Bool.false_and]
  | true => rw [needsBus_of_fpuMay lock may, Bool.and_false]

theorem freeAgent_of_lock (own : s.iop.lockOut = false) :
    s.freeAgent.1 = .cpu ∨ s.freeAgent.1 = .fpu ∧ s.run.needsBus = false ∨
      s.freeAgent.1 = .iop ∧ s.iopNeedsBus = false := by
  have others : ∀ {a : Agent}, (a = .cpu ∨ a = .fpu ∧ s.run.needsBus = false) →
      a = .cpu ∨ a = .fpu ∧ s.run.needsBus = false ∨ a = .iop ∧ s.iopNeedsBus = false :=
    Or.imp_right .inl
  rw [State.freeAgent, bothAsk_of_lock lock, Bool.false_and]
  cases may : s.iopMay with
  | false => exact others (cpuOrFpu_of_lock lock own)
  | true =>
    have quiet := iopNeedsBus_of_iopMay lock may
    rw [Bool.not_true, if_neg Bool.false_ne_true, if_neg Bool.false_ne_true]
    split
    · exact .inr (.inr ⟨rfl, quiet⟩)
    · split
      · exact .inr (.inr ⟨rfl, quiet⟩)
      · exact others (cpuOrFpu_of_lock (s := s.bump) lock own)

/-- A WAIT under LOCK lets the VM87 execute, which ends it (R369). -/
theorem freeAgent_of_wait (own : s.iop.lockOut = false) (testing : s.cpu.phase = .testing)
    (unrequested : s.requested = false) (noIop : s.iopReady = false) (fpu : s.fpuReady = true)
    (quiet : s.run.needsBus = false) : s.freeAgent.1 = .fpu := by
  have iop : s.iopMay = false := by rw [iopMay_of_lock lock, noIop, Bool.false_and]
  have may : s.fpuMay = true := by rw [fpuMay_of_lock lock, fpu, quiet]; rfl
  have waits : (!s.cpuReady || (s.cpu.phase == .testing && !s.requested)) = true := by
    rw [testing, unrequested]
    exact Bool.or_true _
  rw [State.freeAgent, iop, if_pos (by rfl), State.cpuOrFpu, own, may, waits]
  rfl

end Locked

/-! ### Who moves next (49_platform_devices.md R748; log 10) -/

/-- A delayed grant is given as soon as nothing forbids it. -/
theorem nextAgent_delayed {s : State} {e : Event} {r : List Event} (delayed : s.env.delayed = e :: r)
    (goes : s.grantWaits = false) : s.nextAgent = (.event e, { s with env := { s.env with delayed := r } }) := by
  rw [State.nextAgent, delayed, goes]

section Waiting

variable {s : State} (waits : s.grantWaits = true)
include waits

theorem nextAgent_free (agenda : s.env.agenda = []) : s.nextAgent = s.freeAgent := by
  rw [State.nextAgent, waits, agenda]
  cases s.env.delayed <;> rfl

theorem nextAgent_grantIop {r : List Event} (agenda : s.env.agenda = .grantIop :: r) :
    s.nextAgent.1 = if s.iopMay then .iop else .event .grantIop := by
  rw [State.nextAgent, waits, agenda]
  cases s.env.delayed <;> rfl

theorem nextAgent_grantFpu {r : List Event} (agenda : s.env.agenda = .grantFpu :: r) :
    s.nextAgent.1 = if s.fpuMay then .fpu else .event .grantFpu := by
  rw [State.nextAgent, waits, agenda]
  cases s.env.delayed <;> rfl

/-- A grant to the VT37 that must wait is delayed. -/
theorem nextAgent_dmaGrant {k : Nat} {eop : Bool} {data : List Byte} {r : List Event}
    (agenda : s.env.agenda = .dmaGrant k eop data :: r) :
    s.nextAgent = (.nobody, { s with env := { s.env with
      agenda := r, delayed := s.env.delayed ++ [.dmaGrant k eop data] } }) := by
  rw [State.nextAgent, waits, agenda]
  cases s.env.delayed <;> rfl

end Waiting

theorem grantWaits_of_unlocked {s : State} (lock : s.cpu.lead.lock = false) (own : s.iop.lockOut = false)
    (yield : s.vt37.yield = false) (yields : ∀ d ∈ s.cascaded, d.yield = false) : s.grantWaits = false := by
  have none : s.cascaded.any Vt37.yield = false := List.any_eq_false.mpr fun d hd => by
    rw [yields d hd]; exact Bool.false_ne_true
  rw [State.grantWaits, State.cpuLocks, lock, own, yield, none]
  rfl

/-- Settles O30: flags and leading bytes are updates of the CPU, an ESC without a VM87 takes its first branch, and the
agents that LOCK lets move are those whose turn needs no bus. -/
theorem processorControlAndLeadingBytes : Obligations.ProcessorControlAndLeadingBytes := by
  refine ⟨fun s => ?_, fun s => ?_⟩ <;>
    have only (c : Cpu) : s.SameOutside { s with cpu := c } := sameOutside_update s c s.free
  · refine ⟨⟨_, rfl, rfl, only _⟩, ⟨_, rfl, rfl, only _⟩, ⟨_, rfl, rfl, only _⟩, ⟨_, rfl, rfl, only _⟩,
      ⟨_, rfl, rfl, only _⟩, ⟨_, rfl, rfl, only _⟩, ⟨_, rfl, rfl, only _⟩, ⟨_, rfl, rfl, only _⟩, ?_, esc_absent,
      fun absent => ⟨?_, fun j => ?_, fun m => forall_becomes_of_reads ?_⟩⟩
    · rw [← bit_fpuStatus]
      exact ⟨wait_goesOn, wait_stays⟩
    all_goals
      simp only [List.forall_mem_cons, List.not_mem_nil, false_implies, implies_true, and_true]
      and_intros <;> exact ite_absent absent _ _
  · refine ⟨fun z => ⟨_, rfl, rfl, only _⟩, ⟨_, rfl, rfl, only _⟩, fun sr => ⟨_, rfl, rfl, only _⟩, boundary_leading,
      fun lock own => ?_, fun e r delayed lock own yield yields =>
        nextAgent_delayed delayed (grantWaits_of_unlocked lock own yield yields)⟩
    have waits := grantWaits_of_lock lock
    refine ⟨fun agenda => ?_, fun agenda testing unrequested noIop fpu quiet => ?_, fun r =>
      ⟨fun agenda needs => ?_, fun agenda needs => ?_, fun agenda fpu quiet => ?_,
        fun k e d agenda => nextAgent_dmaGrant waits agenda⟩⟩
    · rw [nextAgent_free waits agenda]
      exact freeAgent_of_lock lock own
    · rw [nextAgent_free waits agenda]
      exact freeAgent_of_wait lock own testing unrequested noIop fpu quiet
    · rw [nextAgent_grantIop waits agenda, iopMay_of_lock lock, needs, Bool.not_true, Bool.and_false]
      rfl
    · rw [nextAgent_grantFpu waits agenda, fpuMay_of_lock lock, needs, Bool.not_true, Bool.and_false]
      rfl
    · rw [nextAgent_grantFpu waits agenda, fpuMay_of_lock lock, fpu, quiet]
      rfl

end Sys2Proof.Certificates.ProcessorControl

/-! SUPPORT. Temporary reals as numbers: the fields, class and magnitude of a pattern, and rounding, which chooses a
multiple of a unit by the fraction of the unit that is left (46_vm87_numerics.md R404, R410-R412). -/

namespace Sys2Proof.Certificates.Numbers

open Sys2Proof.Machine

/-! ### The fields of a pattern (R404) -/

theorem extMant_lt (v : Ext80) : extMant v < 2 ^ 64 := Nat.mod_lt _ (by norm_num)

theorem extExp_lt (v : Ext80) : extExp v < 2 ^ 15 := Nat.mod_lt _ (by norm_num)

theorem bitNat_le_one (b : Bool) : bitNat b ≤ 1 := by cases b <;> decide

theorem mkExt_toNat (sign : Bool) (e m : ℕ) :
    (mkExt sign e m).toNat = bitNat sign * 2 ^ 79 + e % 2 ^ 15 * 2 ^ 64 + m % 2 ^ 64 := by
  have hs := bitNat_le_one sign
  rw [mkExt, BitVec.toNat_ofNat, Nat.mod_eq_of_lt (by omega)]

theorem extSign_eq_testBit (v : Ext80) : extSign v = decide (v.toNat / 2 ^ 79 = 1) := by
  have hv := v.isLt
  rw [extSign, bit, BitVec.getLsbD, Nat.testBit_eq_decide_div_mod_eq, Nat.mod_eq_of_lt (by omega)]

@[simp] theorem extSign_mkExt (sign : Bool) (e m : ℕ) : extSign (mkExt sign e m) = sign := by
  rw [extSign_eq_testBit, mkExt_toNat]
  cases sign
  · rw [decide_eq_false]; simp only [bitNat, Bool.false_eq_true, if_false]; omega
  · rw [decide_eq_true]; simp only [bitNat, if_true]; omega

theorem extExp_mkExt (sign : Bool) {e : ℕ} (m : ℕ) (h : e < 2 ^ 15) : extExp (mkExt sign e m) = e := by
  rw [extExp, fieldNat, mkExt_toNat]
  omega

theorem extMant_mkExt (sign : Bool) (e : ℕ) {m : ℕ} (h : m < 2 ^ 64) : extMant (mkExt sign e m) = m := by
  rw [extMant, fieldNat, mkExt_toNat]
  omega

/-- A pattern is its three fields. -/
theorem mkExt_fields (v : Ext80) : mkExt (extSign v) (extExp v) (extMant v) = v := by
  have hv := v.isLt
  apply BitVec.eq_of_toNat_eq
  rw [mkExt_toNat, extSign_eq_testBit, extExp, extMant, fieldNat, fieldNat]
  by_cases h : v.toNat / 2 ^ 79 = 1
  · rw [decide_eq_true h]; simp only [bitNat, if_true]; omega
  · rw [decide_eq_false h]; simp only [bitNat, Bool.false_eq_true, if_false]; omega

/-! ### Classes (Table 3.5) -/

theorem extClass_normal_iff (v : Ext80) :
    extClass v = .normal ↔ extExp v ≠ 0 ∧ extExp v ≠ 32767 ∧ 2 ^ 63 ≤ extMant v := by
  unfold extClass
  dsimp only
  split_ifs <;> simp <;> omega

theorem extClass_zero_iff (v : Ext80) : extClass v = .zero ↔ extExp v = 0 ∧ extMant v = 0 := by
  unfold extClass
  dsimp only
  split_ifs <;> simp <;> omega

theorem extClass_mkExt_normal (sign : Bool) {e m : ℕ} (he : 1 ≤ e) (he' : e ≤ 32766) (hm : 2 ^ 63 ≤ m) (hm' : m < 2 ^ 64) :
    extClass (mkExt sign e m) = .normal := by
  rw [extClass_normal_iff, extExp_mkExt _ _ (by omega), extMant_mkExt _ _ hm']
  omega

theorem extClass_mkExt_unnormal (sign : Bool) {e m : ℕ} (he : 1 ≤ e) (he' : e ≤ 32766) (h0 : m ≠ 0) (hm : m < 2 ^ 63) :
    extClass (mkExt sign e m) = .unnormal := by
  unfold extClass
  rw [extExp_mkExt _ _ (by omega), extMant_mkExt _ _ (by omega)]
  dsimp only
  rw [if_neg (by omega), if_neg (by omega), if_neg h0, if_pos hm]

theorem extClass_mkExt_top (sign : Bool) {m : ℕ} (hm : 2 ^ 63 ≤ m) (hm' : m < 2 ^ 64) :
    extClass (mkExt sign 32767 m) = if m = 2 ^ 63 then .infinity else .nan := by
  unfold extClass
  rw [extExp_mkExt _ _ (by omega), extMant_mkExt _ _ hm']
  dsimp only
  rw [if_neg (by omega), if_pos rfl, if_neg (show ¬m < 2 ^ 63 by omega)]

@[simp] theorem extClass_extZero (sign : Bool) : extClass (extZero sign) = .zero := by
  rw [extClass_zero_iff, extZero, extExp_mkExt _ _ (by norm_num), extMant_mkExt _ _ (by norm_num)]
  exact ⟨rfl, rfl⟩

@[simp] theorem extSign_extZero (sign : Bool) : extSign (extZero sign) = sign := extSign_mkExt ..

/-! ### Numbers -/

/-- The number `m` times two to the `e`. -/
noncomputable def scaled (m : ℕ) (e : ℤ) : ℝ := m * 2 ^ e

theorem scaled_shift (m d : ℕ) (e : ℤ) : scaled (m * 2 ^ d) e = scaled m (e + d) := by
  rw [scaled, scaled, zpow_add₀ two_ne_zero, zpow_natCast]
  push_cast
  ring

/-- The same number with a smaller exponent. -/
theorem scaled_align (m : ℕ) {q e : ℤ} (h : q ≤ e) : scaled (m * 2 ^ (e - q).toNat) q = scaled m e := by
  rw [scaled_shift, show q + ((e - q).toNat : ℤ) = e by omega]

theorem scaled_two_pow (d : ℕ) (e : ℤ) : scaled (2 ^ d) e = 2 ^ (e + d) := by
  rw [← one_mul (2 ^ d), scaled_shift, scaled, Nat.cast_one, one_mul]

theorem scaled_log2 {m : ℕ} (h : m ≠ 0) (e : ℤ) :
    (2 : ℝ) ^ (e + (Nat.log2 m : ℤ)) ≤ scaled m e ∧ scaled m e + 2 ^ e ≤ 2 ^ (e + (Nat.log2 m : ℤ) + 1) := by
  have unit : (0 : ℝ) < 2 ^ e := by positivity
  have low : ((2 ^ Nat.log2 m : ℕ) : ℝ) ≤ m := by exact_mod_cast Nat.log2_self_le h
  have high : (m : ℝ) + 1 ≤ ((2 ^ (Nat.log2 m + 1) : ℕ) : ℝ) := by exact_mod_cast Nat.lt_log2_self (n := m)
  have top (k : ℕ) : (2 : ℝ) ^ (e + (k : ℤ)) = ((2 ^ k : ℕ) : ℝ) * 2 ^ e := by
    rw [zpow_add₀ two_ne_zero, zpow_natCast, mul_comm]; push_cast; rfl
  rw [add_assoc, ← Nat.cast_succ, top, top, scaled]
  exact ⟨by nlinarith, by nlinarith⟩

theorem extMagnitude_eq (v : Ext80) : extMagnitude v = scaled (extMag v).m (extMag v).e := by
  have exponent : (if extExp v = 0 then (1 : ℤ) else (extExp v : ℤ)) = (effExp v : ℤ) := by
    unfold effExp; split <;> rfl
  have mantissa : v.toNat % 2 ^ 64 = extMant v := by rw [extMant, fieldNat, pow_zero, Nat.div_one]
  rw [scaled, extMag, ← exponent, ← mantissa]
  rfl

theorem extMagnitude_mkExt (sign : Bool) {e m : ℕ} (he : 1 ≤ e) (he' : e < 2 ^ 15) (hm : m < 2 ^ 64) :
    extMagnitude (mkExt sign e m) = scaled m ((e : ℤ) - 16446) := by
  rw [extMagnitude_eq, extMag, effExp, extExp_mkExt _ _ he', if_neg (by omega), extMant_mkExt _ _ hm]

/-- The magnitude does not depend on the sign. -/
theorem extMagnitude_congr {v w : Ext80} (he : extExp v = extExp w) (hm : extMant v = extMant w) :
    extMagnitude v = extMagnitude w := by
  rw [extMagnitude_eq, extMagnitude_eq, extMag, extMag, effExp, effExp, he, hm]

theorem extMagnitude_of_mant_zero {v : Ext80} (h : extMant v = 0) : extMagnitude v = 0 := by
  rw [extMagnitude_eq, extMag, h, scaled, Nat.cast_zero, zero_mul]

@[simp] theorem extMagnitude_extZero (sign : Bool) : extMagnitude (extZero sign) = 0 :=
  extMagnitude_of_mant_zero (extMant_mkExt sign 0 (by norm_num))

theorem mant_of_normal {v : Ext80} (h : extClass v = .normal) : 2 ^ 63 ≤ extMant v :=
  ((extClass_normal_iff v).mp h).2.2

/-- Two normal numbers of one sign and one magnitude are one pattern. -/
theorem normal_ext {v w : Ext80} (hv : extClass v = .normal) (hw : extClass w = .normal)
    (sign : extSign v = extSign w) (magnitude : extMagnitude v = extMagnitude w) : v = w := by
  obtain ⟨v0, v1, v2⟩ := (extClass_normal_iff v).mp hv
  obtain ⟨w0, w1, w2⟩ := (extClass_normal_iff w).mp hw
  have below {a b : Ext80} (a0 : extExp a ≠ 0) (b0 : extExp b ≠ 0) (b2 : 2 ^ 63 ≤ extMant b)
      (h : extMagnitude a = extMagnitude b) : extExp b ≤ extExp a := by
    by_contra less
    have e : extMant a = extMant b * 2 ^ (extExp b - extExp a) := by
      rw [extMagnitude_eq, extMagnitude_eq, extMag, extMag, effExp, effExp, if_neg a0, if_neg b0] at h
      dsimp only at h
      rw [← scaled_align (extMant b) (show (extExp a : ℤ) - 16446 ≤ (extExp b : ℤ) - 16446 by omega), scaled, scaled,
        show ((extExp b : ℤ) - 16446 - ((extExp a : ℤ) - 16446)).toNat = extExp b - extExp a by omega] at h
      exact_mod_cast mul_right_cancel₀ (by positivity) h
    have two : 2 ^ 1 ≤ 2 ^ (extExp b - extExp a) := Nat.pow_le_pow_right (by norm_num) (by omega)
    have := extMant_lt a
    nlinarith
  have exponent : extExp v = extExp w := le_antisymm (below w0 v0 v2 magnitude.symm) (below v0 w0 w2 magnitude)
  have mantissa : extMant v = extMant w := by
    rw [extMagnitude_eq, extMagnitude_eq, extMag, extMag, effExp, effExp, exponent] at magnitude
    exact_mod_cast mul_right_cancel₀ (by positivity) magnitude
  rw [← mkExt_fields v, ← mkExt_fields w, sign, exponent, mantissa]

/-! ### Rounding to a multiple of a unit (R410) -/

/-- The magnitude that `x` describes: exact, or with a part below the last place. -/
def Holds (x : Mag) (r : ℝ) : Prop :=
  if x.sticky = true then scaled x.m x.e < r ∧ r < scaled x.m x.e + 2 ^ x.e else r = scaled x.m x.e

theorem holds_exact (m : ℕ) (e : ℤ) : Holds { m := m, e := e, sticky := false } (scaled m e) := rfl

theorem holds_extMag (v : Ext80) : Holds (extMag v) (extMagnitude v) := extMagnitude_eq v

/-- Between two multiples of the unit, a fraction `f` above the multiple `k`, the upper one is chosen. -/
def RoundsUp (rc : ℕ) (neg : Bool) (k : ℕ) (f : ℝ) : Prop :=
  match rc with
  | 0 => 1 / 2 < f ∨ (f = 1 / 2 ∧ k % 2 = 1)
  | 1 => 0 < f ∧ neg = true
  | 2 => 0 < f ∧ neg = false
  | _ => False

theorem roundsTo_up {rc : ℕ} {neg : Bool} {k : ℕ} {f u : ℝ} (hf' : f < 1) (hu : 0 < u)
    (up : RoundsUp rc neg k f) : RoundsTo rc neg ((k + f) * u) u ((k + 1 : ℕ) * u) := by
  refine ⟨⟨k + 1, rfl⟩, ?_⟩
  have gap : ((k + 1 : ℕ) : ℝ) * u - (k + f) * u = (1 - f) * u := by push_cast; ring
  match rc with
  | 0 =>
    rw [gap, abs_of_nonneg (mul_nonneg (by linarith) hu.le)]
    rcases up with above | ⟨half, odd⟩
    · exact ⟨by nlinarith, fun tie => by nlinarith⟩
    · refine ⟨by nlinarith, fun _ => ⟨k / 2 + 1, ?_⟩⟩
      have e : k + 1 = 2 * (k / 2 + 1) := by omega
      rw [e]; push_cast; ring
  | 1 =>
    obtain ⟨pos, neg⟩ := up
    simp only [neg, if_true]
    exact ⟨by nlinarith, by nlinarith⟩
  | 2 =>
    obtain ⟨pos, neg⟩ := up
    simp only [neg, Bool.false_eq_true, if_false]
    exact ⟨by nlinarith, by nlinarith⟩
  | n + 3 => exact up.elim

theorem roundsTo_down {rc : ℕ} {neg : Bool} {k : ℕ} {f u : ℝ} (hf : 0 ≤ f) (hf' : f < 1) (hu : 0 < u)
    (down : ¬RoundsUp rc neg k f) : RoundsTo rc neg ((k + f) * u) u (k * u) := by
  refine ⟨⟨k, rfl⟩, ?_⟩
  have gap : (k : ℝ) * u - (k + f) * u = -(f * u) := by ring
  have vanishes (h : ¬0 < f) : f = 0 := le_antisymm (not_lt.mp h) hf
  match rc with
  | 0 =>
    simp only [RoundsUp, not_or, not_and, not_lt] at down
    obtain ⟨below, even⟩ := down
    rw [gap, abs_neg, abs_of_nonneg (mul_nonneg hf hu.le)]
    refine ⟨by nlinarith, fun tie => ⟨k / 2, ?_⟩⟩
    have half : f = 1 / 2 := by
      have : (f - 1 / 2) * u = 0 := by linarith
      rcases mul_eq_zero.mp this with h | h <;> linarith
    have e : k = 2 * (k / 2) := by have := even half; omega
    rw [show (k : ℝ) = 2 * (k / 2 : ℕ) by exact_mod_cast e]
  | 1 =>
    cases neg with
    | true => rw [vanishes fun pos => down ⟨pos, rfl⟩]; simpa using hu
    | false => simp only [Bool.false_eq_true, if_false]; exact ⟨by nlinarith, by nlinarith⟩
  | 2 =>
    cases neg with
    | true => simp only [if_true]; exact ⟨by nlinarith, by nlinarith⟩
    | false => rw [vanishes fun pos => down ⟨pos, rfl⟩]; simpa using hu
  | n + 3 => exact ⟨by nlinarith, by nlinarith⟩

/-- A multiple of the unit rounds to itself. -/
theorem roundsTo_self (rc : ℕ) (neg : Bool) (k : ℕ) {u : ℝ} (hu : 0 < u) : RoundsTo rc neg (k * u) u (k * u) := by
  have down : ¬RoundsUp rc neg k 0 := by
    match rc with
    | 0 => simp only [RoundsUp]; norm_num
    | 1 => exact fun h => lt_irrefl _ h.1
    | 2 => exact fun h => lt_irrefl _ h.1
    | n + 3 => exact id
  simpa using roundsTo_down (u := u) le_rfl one_pos hu down

/-- The rounded number lies less than a unit away. -/
theorem abs_lt_of_roundsTo {rc : ℕ} {neg : Bool} {x u v : ℝ} (hu : 0 < u) (h : RoundsTo rc neg x u v) : |v - x| < u := by
  obtain ⟨-, choice⟩ := h
  rw [abs_lt]
  match rc with
  | 0 =>
    obtain ⟨near, -⟩ := choice
    obtain ⟨low, high⟩ := abs_le.mp near
    exact ⟨by linarith, by linarith⟩
  | 1 => cases neg <;> simp only [Bool.false_eq_true, if_false, if_true] at choice <;> exact ⟨by linarith, by linarith⟩
  | 2 => cases neg <;> simp only [Bool.false_eq_true, if_false, if_true] at choice <;> exact ⟨by linarith, by linarith⟩
  | n + 3 => exact ⟨by linarith [choice.2], by linarith [choice.1]⟩

/-- Rounding does not pass a multiple of the unit. -/
theorem multiple_bounds {k a b : ℕ} {x u : ℝ} (hu : 0 < u) (near : |k * u - x| < u) (low : a * u ≤ x) (high : x ≤ b * u) :
    a ≤ k ∧ k ≤ b := by
  obtain ⟨l, r⟩ := abs_lt.mp near
  have hl : (a : ℝ) < k + 1 := lt_of_mul_lt_mul_right (by linarith) hu.le
  have hr : (k : ℝ) < b + 1 := lt_of_mul_lt_mul_right (by linarith) hu.le
  exact ⟨by exact_mod_cast Nat.lt_succ_iff.mp (by exact_mod_cast hl), Nat.lt_succ_iff.mp (by exact_mod_cast hr)⟩

/-- What is left below a multiple of `2 ^ d`, as a fraction of it: `r` whole steps and a part `s` of a step. -/
theorem fraction_facts {d : ℕ} (hd : 1 ≤ d) {r : ℕ} (hr : r < 2 ^ d) {s : ℝ} (h0 : 0 ≤ s) (h1 : s < 1) :
    let f := ((r : ℝ) + s) / 2 ^ d
    0 ≤ f ∧ f < 1 ∧ (0 < f ↔ r ≠ 0 ∨ 0 < s) ∧ (1 / 2 < f ↔ 2 ^ (d - 1) < r ∨ r = 2 ^ (d - 1) ∧ 0 < s) ∧
      (f = 1 / 2 ↔ r = 2 ^ (d - 1) ∧ s = 0) := by
  have unit : (0 : ℝ) < 2 ^ d := by positivity
  have half : (2 : ℝ) ^ d = 2 * (2 ^ (d - 1) : ℕ) := by
    have e : 2 ^ d = 2 * 2 ^ (d - 1) := by rw [← pow_succ']; congr 1; omega
    exact_mod_cast e
  have size : (r : ℝ) + 1 ≤ 2 ^ d := by exact_mod_cast hr
  have more {a b : ℕ} : (a : ℝ) < b + s ↔ a < b ∨ a = b ∧ 0 < s := by
    rcases lt_trichotomy a b with h | h | h
    · have : (a : ℝ) + 1 ≤ b := by exact_mod_cast h
      exact ⟨fun _ => .inl h, fun _ => by linarith⟩
    · subst h
      simp
    · have : (b : ℝ) + 1 ≤ a := by exact_mod_cast h
      exact ⟨fun _ => by linarith, fun _ => by omega⟩
  have same {a b : ℕ} : (a : ℝ) = b + s ↔ b = a ∧ s = 0 := by
    refine ⟨fun h => ?_, fun ⟨h, z⟩ => by rw [h, z, add_zero]⟩
    have l : (b : ℝ) ≤ a := by linarith
    have g : (a : ℝ) < b + 1 := by linarith
    have e : b = a := le_antisymm (by exact_mod_cast l) (Nat.lt_succ_iff.mp (by exact_mod_cast g))
    exact ⟨e, by rw [e] at h; linarith⟩
  refine ⟨by positivity, ?_, ?_, ?_, ?_⟩
  · rw [div_lt_one unit]; linarith
  · have := more (a := 0) (b := r)
    rw [Nat.cast_zero] at this
    rw [div_pos_iff_of_pos_right unit, this, Nat.pos_iff_ne_zero]
    by_cases h : r = 0 <;> simp [h]
  · rw [lt_div_iff₀ unit, half, ← mul_assoc, one_div, inv_mul_cancel₀ two_ne_zero, one_mul, more]
    exact or_congr_right (and_congr_left fun _ => eq_comm)
  · rw [div_eq_iff unit.ne', half, ← mul_assoc, one_div, inv_mul_cancel₀ two_ne_zero, one_mul, eq_comm, same]

/-! ### Rounding a magnitude (R410-R412) -/

/-- A magnitude below the unit: a multiple of the unit and a fraction, by which `Mag.round` chooses and tells whether
the magnitude is a multiple itself. -/
theorem round_above {x : Mag} {r : ℝ} (h : Holds x r) {q : ℤ} (hq : x.e < q) (rc : ℕ) (neg : Bool) :
    ∃ (k : ℕ) (f : ℝ), 0 ≤ f ∧ f < 1 ∧ r = (k + f) * 2 ^ q ∧ ((x.round rc neg q).2 = true ↔ 0 < f) ∧
      (RoundsUp rc neg k f → (x.round rc neg q).1 = k + 1) ∧ (¬RoundsUp rc neg k f → (x.round rc neg q).1 = k) := by
  obtain ⟨d, hd, rfl⟩ : ∃ d : ℕ, 1 ≤ d ∧ q = x.e + d := ⟨(q - x.e).toNat, by omega, by omega⟩
  obtain ⟨s, s0, s1, sticky, value⟩ : ∃ s : ℝ, 0 ≤ s ∧ s < 1 ∧ (0 < s ↔ x.sticky = true) ∧ r = (x.m + s) * 2 ^ x.e := by
    have unit : (0 : ℝ) < 2 ^ x.e := by positivity
    unfold Holds scaled at h
    split at h
    · rename_i st
      obtain ⟨low, high⟩ := h
      refine ⟨r / 2 ^ x.e - x.m, ?_, ?_, iff_of_true ?_ st, ?_⟩
      · rw [sub_nonneg, le_div_iff₀ unit]; exact low.le
      · rw [sub_lt_iff_lt_add, div_lt_iff₀ unit]; linarith
      · rw [sub_pos, lt_div_iff₀ unit]; exact low
      · field_simp; ring
    · rename_i st
      exact ⟨0, le_rfl, one_pos, iff_of_false (lt_irrefl _) st, by rw [h, add_zero]⟩
  have split : (x.m : ℝ) = 2 ^ d * (x.m / 2 ^ d : ℕ) + (x.m % 2 ^ d : ℕ) := by exact_mod_cast (Nat.div_add_mod _ _).symm
  have hd' : (x.e + (d : ℤ) - x.e).toNat = d := by omega
  have below : ¬x.e + (d : ℤ) ≤ x.e := by omega
  obtain ⟨f0, f1, pos, more, half⟩ := fraction_facts hd (Nat.mod_lt x.m (by positivity)) s0 s1
  refine ⟨x.m / 2 ^ d, _, f0, f1, ?_, ?_⟩
  · rw [value, split, zpow_add₀ two_ne_zero, zpow_natCast]; field_simp; ring
  have zero : s = 0 ↔ x.sticky = false := by
    rw [← Bool.not_eq_true, ← sticky, not_lt]; exact ⟨fun h => h.le, fun h => le_antisymm h s0⟩
  rw [sticky] at pos more
  rw [zero] at half
  simp only [Mag.round, if_neg below, hd']
  refine ⟨by rw [pos]; simp, ?_⟩
  generalize x.m % 2 ^ d = rest at *
  generalize ((rest : ℝ) + s) / 2 ^ d = f at *
  have chosen {up : Bool} {k : ℕ} {P : Prop} (h : P ↔ up = true) :
      (P → (if up = true then k + 1 else k) = k + 1) ∧ (¬P → (if up = true then k + 1 else k) = k) :=
    ⟨fun p => if_pos (h.mp p), fun p => if_neg (mt h.mpr p)⟩
  match rc with
  | 0 =>
    refine chosen ?_
    rw [RoundsUp, more, half]
    cases x.sticky <;> simp
  | 1 => exact chosen (by rw [RoundsUp, pos]; simp)
  | 2 => exact chosen (by rw [RoundsUp, pos]; simp)
  | n + 3 => exact chosen (by simp [RoundsUp])

/-- A magnitude lies in the binade of its leading bit. -/
theorem top_bounds {x : Mag} {r : ℝ} (h : Holds x r) (h0 : x.m ≠ 0) : (2 : ℝ) ^ x.top ≤ r ∧ r < 2 ^ (x.top + 1) := by
  have unit : (0 : ℝ) < 2 ^ x.e := by positivity
  obtain ⟨low, high⟩ := scaled_log2 h0 x.e
  unfold Holds at h
  unfold Mag.top
  split at h
  · exact ⟨low.trans h.1.le, h.2.trans_le high⟩
  · rw [h]; exact ⟨low, by linarith⟩

theorem roundsUp_pos {rc : ℕ} {neg : Bool} {k : ℕ} {f : ℝ} (h : RoundsUp rc neg k f) : 0 < f := by
  match rc with
  | 0 =>
    rcases h with above | ⟨half, -⟩
    · linarith
    · linarith
  | 1 => exact h.1
  | 2 => exact h.1
  | n + 3 => exact h.elim

/-- Rounding a magnitude chooses the multiple that RC wants, and tells whether the magnitude is another number. -/
theorem round_spec {x : Mag} {r : ℝ} (h : Holds x r) {q : ℤ} (hq : x.sticky = true → x.e < q) (rc : ℕ) (neg : Bool) :
    RoundsTo rc neg r (2 ^ q) (scaled (x.round rc neg q).1 q) ∧
      ((x.round rc neg q).2 = true ↔ scaled (x.round rc neg q).1 q ≠ r) := by
  have unit : (0 : ℝ) < 2 ^ q := by positivity
  by_cases le : q ≤ x.e
  · have noSticky : x.sticky = false := by
      cases st : x.sticky with
      | false => rfl
      | true => exact absurd (hq st) (not_lt.mpr le)
    have value : r = scaled (x.m * 2 ^ (x.e - q).toNat) q := by
      rw [scaled_align x.m le]; simpa [Holds, noSticky] using h
    simp only [Mag.round, if_pos le, noSticky]
    exact ⟨by rw [value]; exact roundsTo_self rc neg _ unit, by simp [value]⟩
  · obtain ⟨k, f, f0, f1, value, inexact, up, down⟩ := round_above h (not_le.mp le) rc neg
    rw [inexact, value]
    by_cases choice : RoundsUp rc neg k f
    · rw [up choice]
      refine ⟨roundsTo_up f1 unit choice, iff_of_true (roundsUp_pos choice) fun same => ?_⟩
      have := mul_right_cancel₀ unit.ne' same
      push_cast at this
      linarith
    · rw [down choice]
      refine ⟨roundsTo_down f0 f1 unit choice, ?_⟩
      rw [scaled, ne_eq, mul_left_inj' unit.ne', left_eq_add]
      exact ⟨fun p => p.ne', fun p => lt_of_le_of_ne f0 (Ne.symm p)⟩

/-- A number that is a multiple of the unit is rounded to itself. -/
theorem round_exact {x : Mag} {n : ℕ} {q : ℤ} (h : Holds x (scaled n q)) (hq : x.sticky = true → x.e < q) (rc : ℕ)
    (neg : Bool) : x.round rc neg q = (n, false) := by
  have unit : (0 : ℝ) < 2 ^ q := by positivity
  obtain ⟨rounds, inexact⟩ := round_spec h hq rc neg
  obtain ⟨low, high⟩ := multiple_bounds unit (abs_lt_of_roundsTo unit rounds) le_rfl le_rfl
  have multiple : (x.round rc neg q).1 = n := le_antisymm high low
  rw [multiple] at inexact
  exact Prod.ext multiple (by simpa using inexact)

/-- A number rounded to `p` bits: a mantissa with its leading bit, the exponent of that bit, and whether it differs. -/
theorem roundMant_spec {x : Mag} {r : ℝ} (h : Holds x r) (h0 : x.m ≠ 0) (rc : ℕ) {p : ℕ} (hp : 1 ≤ p) (neg : Bool)
    (fine : x.sticky = true → p ≤ Nat.log2 x.m) :
    let t := roundMant rc p neg x
    2 ^ (p - 1) ≤ t.1 ∧ t.1 < 2 ^ p ∧ (t.2.1 = x.top ∨ t.2.1 = x.top + 1) ∧
      RoundsTo rc neg r (2 ^ (x.top + 1 - p)) (scaled t.1 (t.2.1 + 1 - p)) ∧
      (t.2.2 = true ↔ scaled t.1 (t.2.1 + 1 - p) ≠ r) := by
  have unit : (0 : ℝ) < 2 ^ (x.top + 1 - p) := by positivity
  have q : x.top - ((p : ℤ) - 1) = x.top + 1 - p := by ring
  obtain ⟨rounds, inexact⟩ := round_spec h (q := x.top + 1 - p)
    (fun st => by have := fine st; unfold Mag.top; omega) rc neg
  obtain ⟨low, high⟩ := top_bounds h h0
  have bottom : scaled (2 ^ (p - 1)) (x.top + 1 - p) = 2 ^ x.top := by rw [scaled_two_pow]; congr 1; omega
  have ceiling : scaled (2 ^ p) (x.top + 1 - p) = 2 ^ (x.top + 1) := by rw [scaled_two_pow]; congr 1; omega
  obtain ⟨lower, upper⟩ := multiple_bounds unit (abs_lt_of_roundsTo unit rounds) (bottom.trans_le low)
    (high.le.trans_eq ceiling.symm)
  simp only [roundMant, q]
  generalize x.round rc neg (x.top + 1 - p) = k at *
  split
  · rename_i full
    have carried : scaled (2 ^ (p - 1)) (x.top + 1 + 1 - p) = scaled k.1 (x.top + 1 - p) := by
      rw [full, scaled_two_pow, scaled_two_pow]; congr 1; omega
    rw [carried]
    exact ⟨le_rfl, Nat.pow_lt_pow_right one_lt_two (by omega), .inr rfl, rounds, inexact⟩
  · exact ⟨lower, lt_of_le_of_ne upper ‹_›, .inl rfl, rounds, inexact⟩

/-! ### Delivering a number in range (R412, R424, R425) -/

theorem inRange_pos {r : ℝ} (h : InRange r) : 0 < r := lt_of_lt_of_le (by positivity) h.1

theorem packNormal_rounded (c : FCtl) {p : ℕ} (hp : 1 ≤ p) (hp' : p ≤ 64) (neg : Bool) {x : Mag} {r : ℝ} (h : Holds x r)
    (h0 : x.m ≠ 0) (fine : x.sticky = true → p ≤ Nat.log2 x.m) (range : InRange r) :
    RoundedResult c p neg r (packNormal c p neg x) := by
  obtain ⟨low, high⟩ := top_bounds h h0
  have least : -16382 ≤ x.top := by
    have := (zpow_lt_zpow_iff_right₀ (one_lt_two (α := ℝ))).mp (range.1.trans_lt high)
    omega
  have greatest : x.top < 16383 := (zpow_lt_zpow_iff_right₀ (one_lt_two (α := ℝ))).mp (low.trans_lt range.2)
  obtain ⟨lead, size, exponent, rounds, inexact⟩ := roundMant_spec h h0 c.rc hp neg fine
  unfold packNormal
  generalize roundMant c.rc p neg x = t at *
  have lead' : 2 ^ 63 ≤ t.1 * 2 ^ (64 - p) := by
    calc 2 ^ 63 = 2 ^ (p - 1) * 2 ^ (64 - p) := by rw [← pow_add]; congr 1; omega
      _ ≤ t.1 * 2 ^ (64 - p) := Nat.mul_le_mul_right _ lead
  have size' : t.1 * 2 ^ (64 - p) < 2 ^ 64 := by
    calc t.1 * 2 ^ (64 - p) < 2 ^ p * 2 ^ (64 - p) := Nat.mul_lt_mul_of_pos_right size (by positivity)
      _ = 2 ^ 64 := by rw [← pow_add]; congr 1; omega
  have field : 1 ≤ (t.2.1 + 16383).toNat ∧ (t.2.1 + 16383).toNat ≤ 32766 := by omega
  have value : extMagnitude (mkExt neg (t.2.1 + 16383).toNat (t.1 * 2 ^ (64 - p))) = scaled t.1 (t.2.1 + 1 - p) := by
    rw [extMagnitude_mkExt neg field.1 (by omega) size', scaled_shift]
    congr 1
    omega
  dsimp only
  rw [if_neg (show ¬32766 < t.2.1 + 16383 by omega), if_neg (show ¬t.2.1 + 16383 < 1 by omega)]
  refine ⟨rfl, rfl, rfl, rfl, rfl, extClass_mkExt_normal neg field.1 field.2 lead' size', extSign_mkExt .., ?_, x.top, low,
    high, ?_⟩
  · dsimp only [FRes.exact]
    rw [value, inexact]
  · dsimp only [FRes.exact]
    rw [value]
    exact rounds

/-- A multiple of the unit is rounded to itself alone. -/
theorem roundsTo_multiple {rc n : ℕ} {neg : Bool} {u v : ℝ} (hu : 0 < u) (h : RoundsTo rc neg (n * u) u v) : v = n * u := by
  obtain ⟨k, rfl⟩ := h.1
  obtain ⟨low, high⟩ := multiple_bounds hu (abs_lt_of_roundsTo hu h) le_rfl le_rfl
  rw [le_antisymm high low]

/-- With 64 bits of precision a result that is a normal number is exact (R410). -/
theorem roundedResult_exact {c : FCtl} {neg : Bool} {v : Ext80} {r : FRes} (hv : extClass v = .normal)
    (sign : extSign v = neg) (h : RoundedResult c 64 neg (extMagnitude v) r) : r = FRes.exact v := by
  obtain ⟨ie, de, ze, oe, ue, normal, sign', inexact, e, low, high, rounds⟩ := h
  have value := extMagnitude_eq v
  have size : extMagnitude v < 2 ^ ((extMag v).e + 64) := by
    rw [value, ← Nat.cast_ofNat (n := 64), ← scaled_two_pow, scaled, scaled]
    exact mul_lt_mul_of_pos_right (by exact_mod_cast extMant_lt v) (by positivity)
  have unit : e + 1 - (64 : ℕ) ≤ (extMag v).e := by
    have := (zpow_lt_zpow_iff_right₀ (one_lt_two (α := ℝ))).mp (low.trans_lt size)
    omega
  rw [← scaled_align _ unit] at value
  have same : extMagnitude r.val = extMagnitude v := by
    rw [value] at rounds ⊢
    exact roundsTo_multiple (by positivity) rounds
  have noPe : r.pe = false := by
    rw [same] at inexact
    simpa using inexact
  obtain ⟨_⟩ := r
  simp only at ie de ze oe ue noPe normal sign' same
  rw [FRes.exact, ie, de, ze, oe, ue, noPe, normal_ext normal hv (sign'.trans sign.symm) same]

/-! ### Integers (R406) -/

theorem extOfIntValue_zero : extOfIntValue 0 = extZero false := rfl

/-- The mantissa of an integer: its bits, shifted so that the leading one is bit 63. -/
theorem intMant_bounds {m : ℕ} (h0 : m ≠ 0) (h : m < 2 ^ 64) :
    Nat.log2 m ≤ 63 ∧ 2 ^ 63 ≤ m * 2 ^ (63 - Nat.log2 m) ∧ m * 2 ^ (63 - Nat.log2 m) < 2 ^ 64 := by
  have hlog : Nat.log2 m ≤ 63 := Nat.lt_succ_iff.mp ((Nat.log2_lt h0).mpr h)
  have pos : 0 < 2 ^ (63 - Nat.log2 m) := by positivity
  refine ⟨hlog, ?_, ?_⟩
  · calc 2 ^ 63 = 2 ^ Nat.log2 m * 2 ^ (63 - Nat.log2 m) := by rw [← pow_add]; congr 1; omega
      _ ≤ _ := Nat.mul_le_mul_right _ (Nat.log2_self_le h0)
  · calc m * 2 ^ (63 - Nat.log2 m) < 2 ^ (Nat.log2 m + 1) * 2 ^ (63 - Nat.log2 m) :=
        Nat.mul_lt_mul_of_pos_right Nat.lt_log2_self pos
      _ = 2 ^ 64 := by rw [← pow_add]; congr 1; omega

theorem extSign_extOfIntValue (n : ℤ) : extSign (extOfIntValue n) = decide (n < 0) := by
  unfold extOfIntValue
  split
  · rename_i h0; rw [h0]; rfl
  · exact extSign_mkExt ..

/-- An integer other than 0 is loaded as a normal number with its magnitude. -/
theorem extOfIntValue_spec {n : ℤ} (h0 : n ≠ 0) (h : n.natAbs < 2 ^ 64) :
    extClass (extOfIntValue n) = .normal ∧ extMagnitude (extOfIntValue n) = n.natAbs := by
  obtain ⟨hlog, lead, size⟩ := intMant_bounds (Int.natAbs_ne_zero.mpr h0) h
  unfold extOfIntValue
  rw [if_neg h0]
  refine ⟨extClass_mkExt_normal _ (by omega) (by omega) lead size, ?_⟩
  rw [extMagnitude_mkExt _ (by omega) (by omega) size, scaled_shift, scaled]
  have unit : (((16383 + Nat.log2 n.natAbs : ℕ) : ℤ) - 16446 + (63 - Nat.log2 n.natAbs : ℕ)) = 0 := by omega
  rw [unit, zpow_zero, mul_one]

theorem extMagnitude_extOfIntValue {n : ℤ} (h : n.natAbs < 2 ^ 64) : extMagnitude (extOfIntValue n) = n.natAbs := by
  by_cases h0 : n = 0
  · rw [h0, extOfIntValue_zero, extMagnitude_extZero]; simp
  · exact (extOfIntValue_spec h0 h).2

/-- Zero, or a normal number. -/
def Plain (v : Ext80) : Prop := extClass v = .zero ∨ extClass v = .normal

theorem plain_extOfIntValue {n : ℤ} (h : n.natAbs < 2 ^ 64) : Plain (extOfIntValue n) := by
  by_cases h0 : n = 0
  · rw [h0, extOfIntValue_zero]; exact .inl (extClass_extZero false)
  · exact .inr (extOfIntValue_spec h0 h).1

theorem extNumber_extOfIntValue {n : ℤ} (h : n.natAbs < 2 ^ 64) : extNumber (extOfIntValue n) = n := by
  rw [extNumber, extMagnitude_extOfIntValue h, extSign_extOfIntValue, Nat.cast_natAbs, Int.cast_abs]
  by_cases neg : n < 0
  · rw [decide_eq_true neg, if_pos rfl, abs_of_neg (by exact_mod_cast neg), neg_neg]
  · rw [decide_eq_false neg, if_neg Bool.false_ne_true, abs_of_nonneg (by exact_mod_cast not_lt.mp neg)]

end Sys2Proof.Certificates.Numbers

/-! SUPPORT. The four operations on zeros and normal numbers: the exact result as a magnitude, delivered rounded; and the
relation of two numbers (46_vm87_numerics.md R410-R412, R423, R440). -/

namespace Sys2Proof.Certificates.NumberArithmetic

open Sys2Proof.Machine Sys2Proof.Certificates.Numbers

/-! ### Operands that are zeros or normal numbers -/

/-- The operand that a pattern is, not denormalised in its format. -/
def operand (v : Ext80) : Opnd := { v := v, den := false }

theorem operand_cls (v : Ext80) : (operand v).cls = extClass v := rfl

theorem ofReg_plain {v : Ext80} (h : Plain v) : Opnd.ofReg v = operand v := by
  unfold Opnd.ofReg operand
  rcases h with h | h <;> rw [h] <;> rfl

/-- The tests of a class that the operations make. -/
theorem plain_tests {v : Ext80} (h : Plain v) :
    ((operand v).cls == .nan) = false ∧ ((operand v).cls == .infinity) = false ∧ ((operand v).cls == .pseudoZero) = false ∧
      ((operand v).cls == .unnormal) = false ∧ ((operand v).cls == .denormal) = false ∧ (operand v).cls.odd = false := by
  rw [operand_cls]
  rcases h with h | h <;> rw [h] <;> exact ⟨rfl, rfl, rfl, rfl, rfl, rfl⟩

theorem normal_tests {v : Ext80} (h : extClass v = .normal) :
    ((operand v).cls == .zero) = false ∧ (operand v).cls.zeroLike = false := by
  rw [operand_cls, h]
  exact ⟨rfl, rfl⟩

/-- A rounded result of operands that are not denormalised. -/
theorem roundedResult_de {c : FCtl} {p : ℕ} {neg : Bool} {x : ℝ} {r : FRes} (h : RoundedResult c p neg x r) :
    RoundedResult c p neg x { r with de := false } := by
  obtain ⟨ie, -, rest⟩ := h
  exact ⟨ie, rfl, rest⟩

/-! ### Sums (R493-R501) -/

/-- A magnitude with a sign. -/
def withSignOf (neg : Bool) (x : ℝ) : ℝ := if neg = true then -x else x

theorem extNumber_eq (v : Ext80) : extNumber v = withSignOf (extSign v) (extMagnitude v) := rfl

theorem withSignOf_not (neg : Bool) (x : ℝ) : withSignOf (!neg) x = -withSignOf neg x := by
  cases neg <;> simp [withSignOf]

theorem signed_cast (neg : Bool) (n : ℕ) : ((signed neg n : ℤ) : ℝ) = withSignOf neg n := by
  cases neg <;> simp [signed, withSignOf]

/-- A magnitude brought to a smaller exponent, with its sign. -/
theorem signed_align (neg : Bool) (m : ℕ) {q e : ℤ} (h : q ≤ e) :
    ((signed neg (m * 2 ^ (e - q).toNat) : ℤ) : ℝ) * 2 ^ q = withSignOf neg (scaled m e) := by
  rw [signed_cast, ← scaled_align m h]
  cases neg <;> simp [withSignOf, scaled]

/-- The smaller of two exponents. -/
theorem smaller_le (x y : ℤ) : (if x ≤ y then x else y) ≤ x ∧ (if x ≤ y then x else y) ≤ y := by
  split <;> omega

theorem addFinite_rounded (c : FCtl) (hp : 1 ≤ c.prec) (hp' : c.prec ≤ 64) {a b : Ext80} (ha : Plain a) (hb : Plain b)
    (bs : Bool) {v : ℝ} (hv : v = extNumber a + withSignOf bs (extMagnitude b)) (range : InRange |v|) :
    RoundedResult c c.prec (decide (v < 0)) |v| (addFinite c (operand a) (operand b) bs) := by
  obtain ⟨-, -, -, -, -, oddA⟩ := plain_tests ha
  obtain ⟨-, -, -, -, -, oddB⟩ := plain_tests hb
  obtain ⟨lowA, lowB⟩ := smaller_le (extMag a).e (extMag b).e
  unfold addFinite
  simp only [oddA, oddB, Bool.or_self, Bool.false_eq_true, if_false]
  rw [show (operand a).v = a from rfl, show (operand b).v = b from rfl]
  generalize (if (extMag a).e ≤ (extMag b).e then (extMag a).e else (extMag b).e) = e at *
  have total : ((signed (extSign a) ((extMag a).m * 2 ^ ((extMag a).e - e).toNat) +
      signed bs ((extMag b).m * 2 ^ ((extMag b).e - e).toNat) : ℤ) : ℝ) * 2 ^ e = v := by
    rw [hv, extNumber_eq, extMagnitude_eq a, extMagnitude_eq b, Int.cast_add, add_mul, signed_align _ _ lowA,
      signed_align _ _ lowB]
  generalize signed (extSign a) ((extMag a).m * 2 ^ ((extMag a).e - e).toNat) +
    signed bs ((extMag b).m * 2 ^ ((extMag b).e - e).toNat) = sum at *
  have unit : (0 : ℝ) < 2 ^ e := by positivity
  have holds : Holds { m := sum.natAbs, e := e, sticky := false } |v| := by
    rw [← total, abs_mul, abs_of_pos unit, ← Int.cast_abs, ← Int.natCast_natAbs, Int.cast_natCast]
    exact holds_exact _ _
  have sum0 : sum ≠ 0 := by
    rintro rfl
    rw [← total] at range
    simpa using inRange_pos range
  have sign : decide (sum < 0) = decide (v < 0) := by
    rw [← total, ← zero_mul ((2 : ℝ) ^ e)]
    exact decide_eq_decide.mpr (by rw [mul_lt_mul_iff_left₀ unit, Int.cast_lt_zero])
  rw [if_neg sum0, sign]
  exact roundedResult_de (packNormal_rounded c hp hp' _ holds (Int.natAbs_ne_zero.mpr sum0) (fun h => by simp at h) range)

/-- Addition and subtraction of zeros and normal numbers: the exact result rounded. -/
theorem fpAdd_rounded (c : FCtl) (hp : 1 ≤ c.prec) (hp' : c.prec ≤ 64) (sub : Bool) {a b : Ext80} (ha : Plain a)
    (hb : Plain b) (d : Bool) {v : ℝ} (hv : v = extNumber a + withSignOf sub (extNumber b)) (range : InRange |v|) :
    RoundedResult c c.prec (decide (v < 0)) |v| (fpAdd c sub (operand a) (operand b) d) := by
  obtain ⟨nanA, infA, -⟩ := plain_tests ha
  obtain ⟨nanB, infB, -⟩ := plain_tests hb
  have bs : withSignOf sub (extNumber b) = withSignOf (extSign b != sub) (extMagnitude b) := by
    rw [extNumber_eq]
    cases sub
    · simp [withSignOf]
    · rw [Bool.bne_true, withSignOf_not]; rfl
  simp only [fpAdd, nanA, infA, nanB, infB, Bool.or_self, Bool.false_eq_true, if_false]
  exact addFinite_rounded c hp hp' ha hb _ (by rw [hv, bs]; rfl) range

/-! ### Products and quotients (R502-R510) -/

theorem fpMul_rounded (c : FCtl) (hp : 1 ≤ c.prec) (hp' : c.prec ≤ 64) {a b : Ext80} (ha : extClass a = .normal)
    (hb : extClass b = .normal) (d : Bool) (range : InRange (extMagnitude a * extMagnitude b)) :
    RoundedResult c c.prec (extSign a != extSign b) (extMagnitude a * extMagnitude b)
      (fpMul c (operand a) (operand b) d) := by
  obtain ⟨nanA, infA, pseudoA, -, -, oddA⟩ := plain_tests (.inr ha)
  obtain ⟨nanB, infB, pseudoB, -, -, oddB⟩ := plain_tests (.inr hb)
  obtain ⟨zeroA, -⟩ := normal_tests ha
  obtain ⟨zeroB, -⟩ := normal_tests hb
  have mA : (extMag a).m ≠ 0 := by have := mant_of_normal ha; rw [extMag]; dsimp only; omega
  have mB : (extMag b).m ≠ 0 := by have := mant_of_normal hb; rw [extMag]; dsimp only; omega
  simp only [fpMul, nanA, infA, nanB, infB, pseudoA, pseudoB, oddA, oddB, zeroA, zeroB, Bool.or_self,
    Bool.and_self, Bool.false_eq_true, if_false]
  refine roundedResult_de (packNormal_rounded c hp hp' _ ?_ (mul_ne_zero mA mB) (fun h => by simp at h) range)
  have product : extMagnitude a * extMagnitude b =
      scaled ((extMag a).m * (extMag b).m) ((extMag a).e + (extMag b).e) := by
    rw [extMagnitude_eq, extMagnitude_eq, scaled, scaled, scaled, zpow_add₀ two_ne_zero]
    push_cast
    ring
  rw [product]
  exact holds_exact _ _

/-- The quotient cut off 130 bits below, with what is left as the part below the last place. -/
theorem holds_quotient (m e : ℤ) {x y : ℕ} (hy : y ≠ 0) :
    Holds { m := x * 2 ^ 130 / y, e := m - e - 130, sticky := x * 2 ^ 130 % y != 0 } (scaled x m / scaled y e) := by
  have hy' : (0 : ℝ) < y := by exact_mod_cast Nat.pos_of_ne_zero hy
  have unit : (0 : ℝ) < 2 ^ (m - e - 130) := by positivity
  have quotient : scaled x m / scaled y e = ((x * 2 ^ 130 : ℕ) : ℝ) / y * 2 ^ (m - e - 130) := by
    rw [scaled, scaled, zpow_sub₀ two_ne_zero, zpow_sub₀ two_ne_zero]
    rw [Nat.cast_mul, Nat.cast_pow, Nat.cast_ofNat, ← zpow_natCast]
    field_simp
    norm_cast
  rw [quotient]
  generalize x * 2 ^ 130 = n
  have division : (n : ℝ) / y = (n / y : ℕ) + (n % y : ℕ) / y := by
    rw [div_eq_iff hy'.ne', add_mul, div_mul_cancel₀ _ hy'.ne', mul_comm]
    exact_mod_cast (Nat.div_add_mod n y).symm
  have below : ((n % y : ℕ) : ℝ) / y < 1 := by
    rw [div_lt_one hy']; exact_mod_cast Nat.mod_lt n (Nat.pos_of_ne_zero hy)
  rw [division]
  unfold Holds scaled
  split
  · rename_i rest
    have pos : (0 : ℝ) < (n % y : ℕ) / y := by
      have : 0 < n % y := Nat.pos_of_ne_zero (by simpa using rest)
      positivity
    constructor <;> nlinarith
  · rename_i rest
    have zero : n % y = 0 := by simpa using rest
    rw [zero, Nat.cast_zero, zero_div, add_zero]

theorem fpDiv_rounded (c : FCtl) (hp : 1 ≤ c.prec) (hp' : c.prec ≤ 64) {a b : Ext80} (ha : extClass a = .normal)
    (hb : extClass b = .normal) (d : Bool) (range : InRange (extMagnitude a / extMagnitude b)) :
    RoundedResult c c.prec (extSign a != extSign b) (extMagnitude a / extMagnitude b)
      (fpDiv c (operand a) (operand b) d) := by
  obtain ⟨nanA, infA, -, -, -, oddA⟩ := plain_tests (.inr ha)
  obtain ⟨nanB, infB, -, unnormalB, denormalB, -⟩ := plain_tests (.inr hb)
  obtain ⟨-, zeroA⟩ := normal_tests ha
  obtain ⟨-, zeroB⟩ := normal_tests hb
  have large : 2 ^ 129 ≤ (extMag a).m * 2 ^ 130 / (extMag b).m := by
    have lead : 2 ^ 63 ≤ (extMag a).m := mant_of_normal ha
    have size : (extMag b).m < 2 ^ 64 := extMant_lt b
    have some : 2 ^ 63 ≤ (extMag b).m := mant_of_normal hb
    rw [Nat.le_div_iff_mul_le (by omega)]
    omega
  have mB : (extMag b).m ≠ 0 := by have := mant_of_normal hb; rw [extMag]; dsimp only; omega
  simp only [fpDiv, nanA, infA, nanB, infB, unnormalB, denormalB, oddA, zeroA, zeroB, Bool.or_self, Bool.and_self,
    Bool.false_eq_true, if_false]
  have holds := holds_quotient (x := (extMag a).m) (extMag a).e (extMag b).e mB
  rw [← extMagnitude_eq, ← extMagnitude_eq] at holds
  have m0 : (extMag a).m * 2 ^ 130 / (extMag b).m ≠ 0 := by omega
  refine roundedResult_de (packNormal_rounded c hp hp' _ holds m0 (fun _ => ?_) range)
  exact hp'.trans ((by norm_num : 64 ≤ 129).trans ((Nat.le_log2 m0).mpr large))

/-- A normal number divided by a zero is an infinity, with ZE (R423). -/
theorem fpDiv_zero (c : FCtl) {a : Ext80} (ha : extClass a = .normal) (zero d : Bool) :
    fpDiv c (operand a) (operand (extZero zero)) d =
      { FRes.exact (extInf (extSign a != zero)) with ze := true } := by
  obtain ⟨nanA, infA, -⟩ := plain_tests (.inr ha)
  obtain ⟨nanB, infB, -, unnormalB, denormalB, -⟩ := plain_tests (v := extZero zero) (.inl (extClass_extZero zero))
  obtain ⟨-, zeroA⟩ := normal_tests ha
  have zeroB : (operand (extZero zero)).cls.zeroLike = true := by rw [operand_cls, extClass_extZero]; rfl
  simp only [fpDiv, nanA, infA, nanB, infB, unnormalB, denormalB, zeroA, zeroB, Bool.or_self, Bool.and_self,
    Bool.false_eq_true, if_false, if_true]
  rw [show (operand (extZero zero)).v = extZero zero from rfl, extSign_extZero]
  rfl

/-! ### Comparing (R440) -/

/-- Two finite patterns are related as their numbers. -/
theorem relFinite_eq (a b : Ext80) : relFinite a b =
    if extNumber a < extNumber b then .lt else if extNumber a = extNumber b then .eq else .gt := by
  obtain ⟨lowA, lowB⟩ := smaller_le (extMag a).e (extMag b).e
  unfold relFinite
  dsimp only
  generalize (if (extMag a).e ≤ (extMag b).e then (extMag a).e else (extMag b).e) = e at *
  have unit : (0 : ℝ) < 2 ^ e := by positivity
  have difference : ((signed (extSign a) ((extMag a).m * 2 ^ ((extMag a).e - e).toNat) -
      signed (extSign b) ((extMag b).m * 2 ^ ((extMag b).e - e).toNat) : ℤ) : ℝ) * 2 ^ e = extNumber a - extNumber b := by
    rw [extNumber_eq, extNumber_eq, extMagnitude_eq a, extMagnitude_eq b, Int.cast_sub, sub_mul, signed_align _ _ lowA,
      signed_align _ _ lowB]
  generalize signed (extSign a) ((extMag a).m * 2 ^ ((extMag a).e - e).toNat) -
    signed (extSign b) ((extMag b).m * 2 ^ ((extMag b).e - e).toNat) = diff at *
  have less : extNumber a < extNumber b ↔ diff < 0 := by
    rw [← sub_neg, ← difference, ← zero_mul ((2 : ℝ) ^ e), mul_lt_mul_iff_left₀ unit, Int.cast_lt_zero]
  have same : extNumber a = extNumber b ↔ diff = 0 := by
    rw [← sub_eq_zero, ← difference, mul_eq_zero_iff_right unit.ne', Int.cast_eq_zero]
  simp only [less, same]
  rcases lt_trichotomy diff 0 with h | h | h
  · rw [if_neg h.ne, if_pos h, if_pos h]
  · rw [if_pos h, if_neg h.not_lt, if_pos h]
  · rw [if_neg h.ne', if_neg h.not_gt, if_neg h.not_gt, if_neg h.ne']

theorem fpCompare_plain (affine : Bool) {a b : Ext80} (ha : Plain a) (hb : Plain b) :
    fpCompare affine (operand a) (operand b) = (false, false, relFinite a b) := by
  obtain ⟨nanA, infA, -⟩ := plain_tests ha
  obtain ⟨nanB, infB, -⟩ := plain_tests hb
  simp only [fpCompare, nanA, infA, nanB, infB, Bool.or_self, Bool.false_and, Bool.false_eq_true, if_false]
  rfl

end Sys2Proof.Certificates.NumberArithmetic

/-! CERTIFICATES. The arithmetic of the VM87 on numbers and on integers: an integer is a normal number or a zero, and with
64 bits of precision each result that is an integer is exact. -/

namespace Sys2Proof.Certificates.Integers

open Sys2Proof.Machine Sys2Proof.Certificates.Numbers Sys2Proof.Certificates.NumberArithmetic

/-! ### Storing an integer (46_vm87_numerics.md R413) -/

theorem roundedMagnitude_eq (rc : ℕ) (v : Ext80) : roundedMagnitude rc v = (extMag v).round rc (extSign v) 0 := by
  unfold roundedMagnitude
  dsimp only
  split
  · rename_i h
    rw [Mag.round, if_pos h, sub_zero]
    rfl
  · rfl

/-- A whole number is rounded to itself. -/
theorem roundedMagnitude_whole (rc : ℕ) {v : Ext80} {n : ℕ} (h : extMagnitude v = n) :
    roundedMagnitude rc v = (n, false) := by
  rw [roundedMagnitude_eq]
  refine round_exact ?_ (fun st => by cases st) _ _
  rw [scaled, zpow_zero, mul_one, ← h]
  exact holds_extMag v

/-- A zero or a normal number that the format holds, rounded. -/
theorem storeInt_held (c : FCtl) {bits : ℕ} {v : Ext80} (hv : Plain v) (h : (roundedMagnitude c.rc v).1 < 2 ^ (bits - 1)) :
    storeInt c bits v =
      let r := roundedMagnitude c.rc v
      { SRes.exact (if extSign v && r.1 != 0 then 2 ^ bits - r.1 else r.1) with pe := r.2 } := by
  rcases hv with kind | kind <;> simp only [storeInt, kind, if_pos h]

theorem storeInt_integer (c : FCtl) {bits : ℕ} (hb : bits ≤ 64) {n : ℤ} (h : n.natAbs < 2 ^ (bits - 1)) :
    storeInt c bits (extOfIntValue n) = SRes.exact (if n < 0 then 2 ^ bits - n.natAbs else n.natAbs) := by
  have size : n.natAbs < 2 ^ 64 := h.trans_le (Nat.pow_le_pow_right two_pos (by omega))
  have rounded := roundedMagnitude_whole c.rc (extMagnitude_extOfIntValue size)
  have sign : (extSign (extOfIntValue n) && n.natAbs != 0) = decide (n < 0) := by
    rw [extSign_extOfIntValue]
    by_cases neg : n < 0
    · have : n.natAbs ≠ 0 := by omega
      simp [neg, this]
    · simp [neg]
  rw [storeInt_held c (plain_extOfIntValue size) (by rw [rounded]; exact h), rounded]
  simp only [sign, decide_eq_true_eq]
  rfl

/-- An integer of `bits` bits but the most negative one, from its pattern and back. -/
theorem signedBits_range {bits w : ℕ} (hb : 1 ≤ bits) (hw : w < 2 ^ bits) (most : w ≠ 2 ^ (bits - 1)) :
    (signedBits bits w).natAbs < 2 ^ (bits - 1) ∧
      (if signedBits bits w < 0 then 2 ^ bits - (signedBits bits w).natAbs else (signedBits bits w).natAbs) = w := by
  have double : 2 ^ bits = 2 * 2 ^ (bits - 1) := by rw [← pow_succ']; congr 1; omega
  unfold signedBits
  generalize 2 ^ (bits - 1) = half at *
  rw [double] at hw ⊢
  split
  · rw [if_neg (by omega)]; omega
  · rw [if_pos (by omega)]; omega

/-! ### Results that are integers (R400, R410) -/

theorem inRange_integer {n : ℤ} (h0 : n ≠ 0) (h : n.natAbs < 2 ^ 64) : InRange |(n : ℝ)| := by
  have low : (1 : ℝ) ≤ |(n : ℝ)| := by
    rw [← Int.cast_abs]
    exact_mod_cast Int.one_le_abs h0
  have high : |(n : ℝ)| < 2 ^ (64 : ℤ) := by
    rw [← Int.cast_abs, ← Int.natCast_natAbs]
    exact_mod_cast h
  exact ⟨(zpow_le_one_of_nonpos₀ one_le_two (by norm_num)).trans low,
    high.trans (zpow_lt_zpow_right₀ one_lt_two (by norm_num))⟩

/-- A rounded result that is an integer other than 0 is that integer. -/
theorem exact_of_rounded {c : FCtl} {n : ℤ} {neg : Bool} {r : FRes} (h0 : n ≠ 0) (h : n.natAbs < 2 ^ 64)
    (sign : neg = decide (n < 0)) (rounded : RoundedResult c 64 neg |(n : ℝ)| r) :
    r = FRes.exact (extOfIntValue n) := by
  obtain ⟨normal, magnitude⟩ := extOfIntValue_spec h0 h
  refine roundedResult_exact (c := c) normal ((extSign_extOfIntValue n).trans sign.symm) ?_
  rwa [magnitude, Nat.cast_natAbs, Int.cast_abs]

theorem fpAdd_integers {c : FCtl} (hp : c.prec = 64) (sub d : Bool) {a b n : ℤ} (ha : a.natAbs < 2 ^ 64)
    (hb : b.natAbs < 2 ^ 64) (hn : (n : ℝ) = a + withSignOf sub b) (h0 : n ≠ 0) (h : n.natAbs < 2 ^ 64) :
    fpAdd c sub (operand (extOfIntValue a)) (operand (extOfIntValue b)) d = FRes.exact (extOfIntValue n) := by
  rw [← extNumber_extOfIntValue ha, ← extNumber_extOfIntValue hb] at hn
  have rounded := fpAdd_rounded c (by omega) (by omega) sub (plain_extOfIntValue ha) (plain_extOfIntValue hb) d hn
    (inRange_integer h0 h)
  rw [hp] at rounded
  exact exact_of_rounded h0 h (decide_eq_decide.mpr Int.cast_lt_zero) rounded

theorem fpMul_integers {c : FCtl} (hp : c.prec = 64) (d : Bool) {a b : ℤ} (ha : a.natAbs < 2 ^ 64)
    (hb : b.natAbs < 2 ^ 64) (h0 : a * b ≠ 0) (h : (a * b).natAbs < 2 ^ 64) :
    fpMul c (operand (extOfIntValue a)) (operand (extOfIntValue b)) d = FRes.exact (extOfIntValue (a * b)) := by
  obtain ⟨a0, b0⟩ := mul_ne_zero_iff.mp h0
  obtain ⟨normalA, magnitudeA⟩ := extOfIntValue_spec a0 ha
  obtain ⟨normalB, magnitudeB⟩ := extOfIntValue_spec b0 hb
  have product : extMagnitude (extOfIntValue a) * extMagnitude (extOfIntValue b) = |((a * b : ℤ) : ℝ)| := by
    rw [magnitudeA, magnitudeB, Nat.cast_natAbs, Nat.cast_natAbs, Int.cast_abs, Int.cast_abs, ← abs_mul, Int.cast_mul]
  have rounded := fpMul_rounded c (by omega) (by omega) normalA normalB d (by rw [product]; exact inRange_integer h0 h)
  rw [product, hp] at rounded
  refine exact_of_rounded h0 h ?_ rounded
  rw [extSign_extOfIntValue, extSign_extOfIntValue]
  rcases lt_or_gt_of_ne a0 with na | pa <;> rcases lt_or_gt_of_ne b0 with nb | pb
  · simp [na, nb, (mul_pos_of_neg_of_neg na nb).le]
  · simp [na, pb.not_gt, mul_neg_of_neg_of_pos na pb]
  · simp [pa.not_gt, nb, mul_neg_of_pos_of_neg pa nb]
  · simp [pa.not_gt, pb.not_gt, (mul_pos pa pb).le]

theorem fpCompare_integers (affine : Bool) {a b : ℤ} (ha : a.natAbs < 2 ^ 64) (hb : b.natAbs < 2 ^ 64) :
    fpCompare affine (operand (extOfIntValue a)) (operand (extOfIntValue b)) =
      (false, false, if a < b then .lt else if a = b then .eq else .gt) := by
  rw [fpCompare_plain affine (plain_extOfIntValue ha) (plain_extOfIntValue hb), relFinite_eq, extNumber_extOfIntValue ha,
    extNumber_extOfIntValue hb]
  simp only [Int.cast_lt, Int.cast_inj]

/-- Settles O51: integers are normal numbers or zeros with at most 64 bits, and a result with 64 bits is rounded to
itself. -/
theorem coprocessorIntegersAreExact : Obligations.CoprocessorIntegersAreExact := by
  refine ⟨fun c n w bits hw most => ?_, fun c a b d hp ha hb => ?_⟩
  · have hn : 1 ≤ n ∧ n ≤ 64 := by omega
    obtain ⟨range, back⟩ := signedBits_range hn.1 hw most
    rw [storeInt_integer c hn.2 range, back]
  · have product : (a * b).natAbs < 2 ^ 64 := by
      rw [Int.natAbs_mul]
      calc a.natAbs * b.natAbs < 2 ^ 31 * 2 ^ 31 := Nat.mul_lt_mul'' ha hb
        _ < 2 ^ 64 := by norm_num
    have ha' : a.natAbs < 2 ^ 64 := ha.trans (by norm_num)
    have hb' : b.natAbs < 2 ^ 64 := hb.trans (by norm_num)
    exact ⟨fun h0 => fpAdd_integers hp false d ha' hb' (by simp [withSignOf]) h0 (by omega),
      fun h0 => fpAdd_integers hp true d ha' hb' (by simp [withSignOf, sub_eq_add_neg]) h0 (by omega),
      fun h0 => fpMul_integers hp d ha' hb' h0 product, fpCompare_integers c.affine ha' hb'⟩

end Sys2Proof.Certificates.Integers

/-! SUPPORT. An ESC that completes: what it does to the VM87 does not look at the exception pointers, which it notes first
(10_state.md R57, 47_vm87_instructions.md R462). -/

namespace Sys2Proof.Certificates.EscapeInstructions

open Sys2Proof.Machine Sys2Proof.Certificates.Escape

/-! ### The exception pointers -/

/-- The VM87 `f` with the exception pointers of `e`. -/
def withEp (f e : Fpu) : Fpu := { f with epInstr := e.epInstr, epOpcode := e.epOpcode, epOperand := e.epOperand }

theorem withEp_setTop (f e : Fpu) (t : BitVec 3) : (withEp f e).setTop t = withEp (f.setTop t) e := rfl

theorem withEp_put (f e : Fpu) (i : BitVec 3) (v : Ext80) : (withEp f e).put i v = withEp (f.put i v) e := rfl

theorem withEp_raise (f e : Fpu) (k : ℕ) : (withEp f e).raise k = withEp (f.raise k) e := by
  unfold Fpu.raise
  dsimp only
  rw [show bit (withEp f e).cr k = bit f.cr k from rfl]
  split <;> rfl

theorem withEp_popN (f e : Fpu) (n : ℕ) : (withEp f e).popN n = withEp (f.popN n) e := by
  induction n generalizing f with
  | zero => rfl
  | succ n ih => exact ih f.pop

theorem ite_withEp (p : Prop) [Decidable p] (f g e : Fpu) :
    (if p then withEp f e else withEp g e) = withEp (if p then f else g) e := by
  split <;> rfl

theorem withEp_load (f e : Fpu) (o : Opnd) (empty : Bool) : (withEp f e).load o empty = withEp (f.load o empty) e := by
  have masked (k : ℕ) : (withEp f e).masked k = f.masked k := rfl
  have top : (withEp f e).top = f.top := rfl
  have free (g : Fpu) : (withEp g e).isEmpty 0 = g.isEmpty 0 := rfl
  simp only [Fpu.load, masked, top, free, withEp_setTop, withEp_raise, ite_withEp, withEp_put]

/-- A delivery, when what it does with the value does not look at the exception pointers either. -/
theorem withEp_deliver (f e : Fpu) (r : FRes) {put : Fpu → Ext80 → Fpu}
    (h : ∀ g v, put (withEp g e) v = withEp (put g v) e) : (withEp f e).deliver r put = withEp (f.deliver r put) e := by
  have masked (k : ℕ) : (withEp f e).masked k = f.masked k := rfl
  simp only [Fpu.deliver, masked, withEp_raise, ite_withEp, h]

/-! ### The state in which an ESC executes (R462) -/

/-- The state in which an ESC with a source operand of `n` bytes executes. -/
def sourced (s : State) (x y n : ℕ) (m : MemOp) : State :=
  ((s.fpuSource m n).2.noteEp x (escByte y m)).noteOperand (s.escAddr m)

theorem noteEp_fpu_withEp (s : State) (x second : ℕ) :
    (s.noteEp x second).fpu = withEp s.fpu (s.noteEp x second).fpu := rfl

theorem sourced_fpu_withEp (s : State) (x y : ℕ) {n : ℕ} (hn : 2 ≤ n) (m : MemOp) :
    (sourced s x y n m).fpu = withEp s.fpu (sourced s x y n m).fpu := by
  obtain ⟨⟨-, -, ⟨fpu, -⟩, -⟩, -⟩ := s.fpuSource_spec m n hn
  rw [← fpu]
  rfl

theorem operand_of_withEp {t : State} {f : Fpu} (ht : t.fpu = withEp f t.fpu) (i : BitVec 3) :
    t.fpu.operand i = f.operand i := by
  rw [ht]; rfl

/-- The VM87 has become `f` but for the exception pointers, which stay. -/
def completed (t : State) (f : Fpu) (free : ℕ) : State := { t with fpu := withEp f t.fpu, free := free }

theorem escCode_toNat {x : ℕ} (hx : x < 8) : (byteOf (0xD8 + x)).toNat % 8 = x := by
  rw [byteOf, BitVec.toNat_ofNat]
  omega

theorem becomes_of_escReg {s : State} (ready : s.FpuReady) {i : Instr} {x y n second : ℕ} (hx : x < 8)
    (hs : 192 + 8 * y + n = second) (size : second < 256) (code : encode i = encFReg x y n) {k : State → Result} {f : Fpu}
    {free : ℕ} (run : exec i s = escReg false x second s k)
    (after : k (s.noteEp x second) = .next (completed (s.noteEp x second) f free)) : FpuBecomes s i none f := by
  obtain ⟨opcode, address, operand⟩ := s.noteEp_fpu x second
  have beside := sameBesideFpu_of_quiet (.refl s)
  refine ⟨completed (s.noteEp x second) f free, (run.trans (escReg_ready ready ..)).trans after, rfl,
    ⟨?_, address, operand⟩, fun _ => rfl, beside⟩
  have low : (byteOf second).toNat = second := by rw [byteOf, BitVec.toNat_ofNat, Nat.mod_eq_of_lt size]
  refine opcode.trans ?_
  rw [code, encFReg, hs, List.headD_cons, List.tail_cons, List.headD_cons, escCode_toNat hx, low]

theorem becomes_of_escSrc {s : State} (ready : s.FpuReady) {i : Instr} {x y n : ℕ} (hx : x < 8) {m : MemOp} (hn : 2 ≤ n)
    (code : encode i = encFMem x y m) {k : ℕ → State → Result} {f : Fpu} {free : ℕ} (run : exec i s = escSrc x y n m s k)
    (after : k (s.fpuSource m n).1 (sourced s x y n m) = .next (completed (sourced s x y n m) f free)) :
    FpuBecomes s i (some (s.escAddr m)) f := by
  obtain ⟨quiet, -⟩ := s.fpuSource_spec m n hn
  obtain ⟨opcode, address, operand⟩ := (s.fpuSource m n).2.noteEp_fpu x (escByte y m)
  have beside := sameBesideFpu_of_quiet quiet
  refine ⟨completed (sourced s x y n m) f free, (run.trans (escSrc_ready ready ..)).trans after, rfl,
    ⟨?_, fun lead => ?_, rfl⟩, quiet.bytes, beside⟩
  · refine opcode.trans ?_
    rw [code, encFMem, List.headD_cons, List.tail_cons, escCode_toNat hx]
    rfl
  · rw [← quiet.1] at lead ⊢
    exact address lead

end Sys2Proof.Certificates.EscapeInstructions

/-! CERTIFICATE. The arithmetic instructions of the VM87: every form is an ESC that delivers the result of one dyadic
operation. -/

namespace Sys2Proof.Certificates.ArithmeticForms

open Sys2Proof.Machine Sys2Proof.Certificates.Numbers Sys2Proof.Certificates.NumberArithmetic
  Sys2Proof.Certificates.EscapeInstructions

/-! ### The control of a computation (10_state.md R55) -/

theorem ctl_prec (f : Fpu) (k : ℕ) :
    (f.ctl k).prec = match f.cr.toNat / 2 ^ 8 % 4 with
      | 0 => 24
      | 1 => 1 + Config.reservedPrecision % 64
      | 2 => 53
      | _ => 64 := rfl

theorem ctl_prec_bounds (f : Fpu) (k : ℕ) : 1 ≤ (f.ctl k).prec ∧ (f.ctl k).prec ≤ 64 := by
  rw [ctl_prec]
  split
  · norm_num
  · have : Config.reservedPrecision % 64 < 64 := Nat.mod_lt _ (by norm_num)
    exact ⟨Nat.le_add_right 1 _, (Nat.add_comm 1 _).trans_le this⟩
  · norm_num
  · norm_num

/-! ### One dyadic operation -/

section Forms

variable {s : State} (ready : s.FpuReady) (g : Machine.Dyadic) (rev : Bool)

/-- What a form delivers: the operands in the order of the instruction, into ST(dst), with its pops. -/
def delivered (f : Fpu) (k : ℕ) (y : Opnd) (intoTop : Bool) (dst : BitVec 3) (pops : ℕ) : Fpu :=
  let x := Opnd.ofReg (f.operand 0)
  f.deliver (if rev = true then g (f.ctl k) y x (!intoTop) else g (f.ctl k) x y intoTop)
    fun h v => (h.put dst v).popN pops

theorem fpuDyadic_completes {t : State} {f : Fpu} (ht : t.fpu = withEp f t.fpu) {a b : Opnd} (ha : a.cls ≠ .bad)
    (hb : b.cls ≠ .bad) (d : Bool) (dst : BitVec 3) (pops : ℕ) :
    fpuDyadic g a b d dst pops t = .next (completed t
      (f.deliver (g (f.ctl t.free) a b d) fun h v => (h.put dst v).popN pops) (t.free + 1)) := by
  have good : (a.cls == .bad || b.cls == .bad) = false := by simp [ha, hb]
  have ctl : t.fpu.ctl t.free = f.ctl t.free := by rw [ht]; rfl
  have deliver (r : FRes) : t.fpu.deliver r (fun h v => (h.put dst v).popN pops) =
      withEp (f.deliver r fun h v => (h.put dst v).popN pops) t.fpu := by
    conv_lhs => rw [ht]
    exact withEp_deliver _ _ _ fun h v => by rw [withEp_put, withEp_popN]
  simp only [fpuDyadic, good, Bool.false_eq_true, if_false, ctl, deliver]
  rfl

/-- The two orders of the operands. -/
theorem dyadic_orders {t : State} {f : Fpu} (ht : t.fpu = withEp f t.fpu) {y : Opnd}
    (hx : (Opnd.ofReg (f.operand 0)).cls ≠ .bad) (hy : y.cls ≠ .bad) (intoTop : Bool) (dst : BitVec 3) (pops : ℕ) :
    (if rev = true then fpuDyadic g y (Opnd.ofReg (f.operand 0)) (!intoTop) dst pops t
      else fpuDyadic g (Opnd.ofReg (f.operand 0)) y intoTop dst pops t) =
      .next (completed t (delivered g rev f t.free y intoTop dst pops) (t.free + 1)) := by
  cases rev
  · exact fpuDyadic_completes g ht hx hy intoTop dst pops
  · exact fpuDyadic_completes g ht hy hx (!intoTop) dst pops

include ready

/-- A form with a memory operand. -/
theorem memArith_becomes {x y : ℕ} (hx : x < 8) {k : FSrc} {i : Instr} {m : MemOp} (code : encode i = encFMem x y m)
    (run : exec i s = fpuMemArith x y k g rev m s) :
    ∃ w, s.SourceIs (s.escAddr m) k.size w ∧
      ((Opnd.ofReg (s.fpu.operand 0)).cls ≠ .bad → (k.opnd w).cls ≠ .bad →
        ∃ n, FpuBecomes s i (some (s.escAddr m)) (delivered g rev s.fpu n (k.opnd w) true 0 0)) := by
  have size : 2 ≤ k.size := by cases k <;> decide
  have ht := sourced_fpu_withEp s x y size m
  refine ⟨_, (s.fpuSource_spec m k.size size).2, fun goodX goodY => ⟨(sourced s x y k.size m).free,
    becomes_of_escSrc ready (free := (sourced s x y k.size m).free + 1) hx size code run ?_⟩⟩
  dsimp only
  rw [operand_of_withEp ht]
  exact dyadic_orders g rev ht goodX goodY true 0 0

/-- ST(0) and ST(i), into ST(0). -/
theorem topArith_becomes {y : ℕ} (hy : y < 8) {i : Instr} {j : BitVec 3} (code : encode i = encFReg 0 y j.toNat)
    (run : exec i s = fpuTopArith 0 (192 + 8 * y) g rev j s) (goodX : (Opnd.ofReg (s.fpu.operand 0)).cls ≠ .bad)
    (goodY : (Opnd.ofReg (s.fpu.operand j)).cls ≠ .bad) :
    ∃ n, FpuBecomes s i none (delivered g rev s.fpu n (Opnd.ofReg (s.fpu.operand j)) true 0 0) := by
  have ht := noteEp_fpu_withEp s 0 (192 + 8 * y + j.toNat)
  refine ⟨(s.noteEp 0 (192 + 8 * y + j.toNat)).free,
    becomes_of_escReg ready (free := (s.noteEp 0 (192 + 8 * y + j.toNat)).free + 1) (by norm_num) rfl (by omega) code run ?_⟩
  dsimp only
  rw [operand_of_withEp ht, operand_of_withEp ht]
  exact dyadic_orders g rev ht goodX goodY true 0 0

/-- ST(0) and ST(i), into ST(i), with or without a pop. -/
theorem stiArith_becomes {x y pops : ℕ} (hx : x < 8) (hy : y < 8) {i : Instr} {j : BitVec 3}
    (code : encode i = encFReg x y j.toNat) (run : exec i s = fpuStiArith x (192 + 8 * y) g rev pops j s)
    (goodX : (Opnd.ofReg (s.fpu.operand 0)).cls ≠ .bad) (goodY : (Opnd.ofReg (s.fpu.operand j)).cls ≠ .bad) :
    ∃ n, FpuBecomes s i none (delivered g rev s.fpu n (Opnd.ofReg (s.fpu.operand j)) false j pops) := by
  have ht := noteEp_fpu_withEp s x (192 + 8 * y + j.toNat)
  refine ⟨(s.noteEp x (192 + 8 * y + j.toNat)).free, becomes_of_escReg ready (free := (s.noteEp x (192 + 8 * y + j.toNat)).free + 1) hx rfl (by omega) code run ?_⟩
  dsimp only
  rw [operand_of_withEp ht, operand_of_withEp ht]
  exact dyadic_orders g rev ht goodX goodY false j pops

end Forms

/-! ### The seven forms of an operation (47_vm87_instructions.md R493-R510) -/

/-- The code and the meaning of a memory form, by the field `y` of its operation. -/
def MemForm (s : State) (g : Machine.Dyadic) (rev : Bool) (x y : ℕ) (k : FSrc) (i : MemOp → Instr) : Prop :=
  ∀ m, encode (i m) = encFMem x y m ∧ exec (i m) s = fpuMemArith x y k g rev m s

/-- The code and the meaning of a register form. -/
def RegForm (s : State) (x y : ℕ) (i : BitVec 3 → Instr) (meaning : BitVec 3 → State → Result) : Prop :=
  ∀ j, encode (i j) = encFReg x y j.toNat ∧ exec (i j) s = meaning j s

theorem arithmeticFamily_of_forms {s : State} (ready : s.FpuReady) {g : Machine.Dyadic} {rev : Bool} (y : ℕ) (hy : y < 8)
    {m32 m64 m16i m32i : MemOp → Instr} {top sti pop : BitVec 3 → Instr} (short : MemForm s g rev 0 y .short m32)
    (long : MemForm s g rev 4 y .long m64) (word : MemForm s g rev 6 y .word m16i)
    (dword : MemForm s g rev 2 y .dword m32i) (intoTop : RegForm s 0 y top (fpuTopArith 0 (192 + 8 * y) g rev))
    (intoSti : RegForm s 4 y sti (fpuStiArith 4 (192 + 8 * y) g rev 0))
    (popping : RegForm s 6 y pop (fpuStiArith 6 (192 + 8 * y) g rev 1)) :
    ArithmeticFamily s g rev m32 m64 m16i m32i top sti pop :=
  ⟨fun m => memArith_becomes ready g rev (by norm_num) (short m).1 (short m).2,
    fun m => memArith_becomes ready g rev (by norm_num) (long m).1 (long m).2,
    fun m => memArith_becomes ready g rev (by norm_num) (word m).1 (word m).2,
    fun m => memArith_becomes ready g rev (by norm_num) (dword m).1 (dword m).2,
    fun j => ⟨topArith_becomes ready g rev hy (intoTop j).1 (intoTop j).2,
      stiArith_becomes ready g rev (by norm_num) hy (intoSti j).1 (intoSti j).2,
      stiArith_becomes ready g rev (by norm_num) hy (popping j).1 (popping j).2⟩⟩

/-- Settles O46: the control is fields of CR, the results are those of the operations on normal numbers, and the forms
have the codes and the meanings of their family. -/
theorem coprocessorArithmetic : Obligations.CoprocessorArithmetic := by
  refine ⟨fun f k => ?_, fun c a b d zero hp hp' ha hb => ?_, fun s ready => ?_⟩
  · obtain ⟨low, high⟩ := ctl_prec_bounds f k
    refine ⟨rfl, rfl, low, high, fun pc => ?_, fun pc => ?_, fun pc => ?_⟩ <;> rw [ctl_prec, pc] <;> rfl
  · dsimp only
    rw [ofReg_plain (.inr ha), ofReg_plain (.inr hb), ofReg_plain (.inl (extClass_extZero zero))]
    exact ⟨fun range => ⟨_, by rw [decide_eq_true_eq], fpAdd_rounded c hp hp' false (.inr ha) (.inr hb) d rfl range⟩,
      fun range => ⟨_, by rw [decide_eq_true_eq],
        fpAdd_rounded c hp hp' true (.inr ha) (.inr hb) d (sub_eq_add_neg _ _) range⟩,
      fpMul_rounded c hp hp' ha hb d, fpDiv_rounded c hp hp' ha hb d, fpDiv_zero c ha zero d⟩
  · refine ⟨arithmeticFamily_of_forms ready 0 (by norm_num) ?_ ?_ ?_ ?_ ?_ ?_ ?_,
      arithmeticFamily_of_forms ready 4 (by norm_num) ?_ ?_ ?_ ?_ ?_ ?_ ?_,
      arithmeticFamily_of_forms ready 5 (by norm_num) ?_ ?_ ?_ ?_ ?_ ?_ ?_,
      arithmeticFamily_of_forms ready 1 (by norm_num) ?_ ?_ ?_ ?_ ?_ ?_ ?_,
      arithmeticFamily_of_forms ready 6 (by norm_num) ?_ ?_ ?_ ?_ ?_ ?_ ?_,
      arithmeticFamily_of_forms ready 7 (by norm_num) ?_ ?_ ?_ ?_ ?_ ?_ ?_⟩ <;>
      exact fun _ => ⟨rfl, rfl⟩

end Sys2Proof.Certificates.ArithmeticForms

/-! CERTIFICATE. The loads of the VM87: the values of the memory formats as temporary reals, and the instructions that push
them (46_vm87_numerics.md R402, R403, R406; 47_vm87_instructions.md R470-R485). -/

namespace Sys2Proof.Certificates.Loads

open Sys2Proof.Machine Sys2Proof.Certificates.Numbers Sys2Proof.Certificates.EscapeInstructions

/-! ### Short and long reals (R403, R406) -/

/-- The widths and the bias of a format, as far as the conversions need them. -/
theorem format_facts (long : Bool) : ∃ bias : ℕ, (realShape long).2.2 = bias ∧ exponentBias long = bias ∧
    1 ≤ fractionBits long ∧ fractionBits long ≤ 52 ∧ 1 ≤ bias ∧ bias ≤ 1023 ∧
    2 ^ exponentBits long = 2 * (bias + 1) := by
  cases long
  · exact ⟨127, rfl, rfl, by decide, by decide, by decide, by decide, rfl⟩
  · exact ⟨1023, rfl, rfl, by decide, by decide, by decide, by decide, rfl⟩

/-- The conversion of a real, in the widths and the sign bit of its format. -/
theorem ofReal_eq (long : Bool) (w : ℕ) : ofReal long w =
    let f := fractionBits long
    let e := w / 2 ^ f % 2 ^ exponentBits long
    let fr := w % 2 ^ f
    let sg := w.testBit (f + exponentBits long)
    let bias := (realShape long).2.2
    if e = 0 then
      if fr = 0 then { v := extZero sg, den := false }
      else { v := mkExt sg (16384 - bias) (fr * 2 ^ (63 - f)), den := true }
    else if e = 2 ^ exponentBits long - 1 then { v := mkExt sg 32767 (2 ^ 63 + fr * 2 ^ (63 - f)), den := false }
    else { v := mkExt sg (e + 16383 - bias) (2 ^ 63 + fr * 2 ^ (63 - f)), den := false } := by
  simp only [Nat.testBit_eq_decide_div_mod_eq, ← beq_eq_decide]
  cases long <;> rfl

/-- A fraction at the top of the mantissa, below the integer bit. -/
theorem fraction_shift {f : ℕ} (hf : f ≤ 52) {fr : ℕ} (h : fr < 2 ^ f) :
    fr * 2 ^ (63 - f) < 2 ^ 63 ∧ (fr * 2 ^ (63 - f) = 0 ↔ fr = 0) ∧
      2 ^ 63 + fr * 2 ^ (63 - f) = (2 ^ f + fr) * 2 ^ (63 - f) := by
  have top : 2 ^ f * 2 ^ (63 - f) = 2 ^ 63 := by rw [← pow_add]; congr 1; omega
  have pos : 0 < 2 ^ (63 - f) := by positivity
  refine ⟨?_, ?_, by rw [add_mul, top]⟩
  · calc fr * 2 ^ (63 - f) < 2 ^ f * 2 ^ (63 - f) := Nat.mul_lt_mul_of_pos_right h pos
      _ = 2 ^ 63 := top
  · rw [Nat.mul_eq_zero]; omega

theorem realMagnitude_zero_field {long : Bool} {w : ℕ} (h : w / 2 ^ fractionBits long % 2 ^ exponentBits long = 0) :
    realMagnitude long w = scaled (w % 2 ^ fractionBits long) (1 - exponentBias long - fractionBits long) := by
  simp only [realMagnitude, h, if_true, scaled]

theorem realMagnitude_normal {long : Bool} {w : ℕ} (h : w / 2 ^ fractionBits long % 2 ^ exponentBits long ≠ 0) :
    realMagnitude long w = scaled (2 ^ fractionBits long + w % 2 ^ fractionBits long)
      ((w / 2 ^ fractionBits long % 2 ^ exponentBits long : ℕ) - exponentBias long - fractionBits long) := by
  simp only [realMagnitude, h, if_false, scaled]

section Reals

variable (long : Bool) (w : ℕ)

theorem ofReal_sign : extSign (ofReal long w).v = w.testBit (fractionBits long + exponentBits long) := by
  rw [ofReal_eq]
  dsimp only
  split
  · split
    · exact extSign_extZero _
    · exact extSign_mkExt ..
  · split <;> exact extSign_mkExt ..

theorem ofReal_finite (h : w / 2 ^ fractionBits long % 2 ^ exponentBits long ≠ 2 ^ exponentBits long - 1) :
    let e := w / 2 ^ fractionBits long % 2 ^ exponentBits long
    let fraction := w % 2 ^ fractionBits long
    extMagnitude (ofReal long w).v = realMagnitude long w ∧ ((ofReal long w).den = true ↔ e = 0 ∧ fraction ≠ 0) ∧
      extClass (ofReal long w).v = if e = 0 then (if fraction = 0 then .zero else .unnormal) else .normal := by
  obtain ⟨bias, nat, int, f1, f52, b1, b1023, width⟩ := format_facts long
  have below : w / 2 ^ fractionBits long % 2 ^ exponentBits long < 2 ^ exponentBits long := Nat.mod_lt _ (by positivity)
  obtain ⟨size, vanishes, joined⟩ := fraction_shift f52 (Nat.mod_lt w (show 0 < 2 ^ fractionBits long by positivity))
  rw [ofReal_eq]
  dsimp only
  by_cases e0 : w / 2 ^ fractionBits long % 2 ^ exponentBits long = 0
  · rw [realMagnitude_zero_field e0]
    by_cases f0 : w % 2 ^ fractionBits long = 0
    · simp [e0, f0, scaled]
    · simp only [if_pos e0, if_neg f0, nat]
      refine ⟨?_, by simp [e0, f0], extClass_mkExt_unnormal _ (by omega) (by omega) (by rwa [ne_eq, vanishes]) size⟩
      rw [extMagnitude_mkExt _ (by omega) (by omega) (by omega), scaled_shift, int]
      congr 1
      omega
  · simp only [if_neg e0, if_neg h, nat]
    refine ⟨?_, by simp [e0], extClass_mkExt_normal _ (by omega) (by omega) (by omega) (by omega)⟩
    rw [realMagnitude_normal e0, extMagnitude_mkExt _ (by omega) (by omega) (by omega), joined, scaled_shift, int]
    congr 1
    omega

theorem ofReal_special (h : w / 2 ^ fractionBits long % 2 ^ exponentBits long = 2 ^ exponentBits long - 1) :
    let fraction := w % 2 ^ fractionBits long
    (ofReal long w).den = false ∧ extMant (ofReal long w).v = 2 ^ 63 + fraction * 2 ^ (63 - fractionBits long) ∧
      extClass (ofReal long w).v = if fraction = 0 then .infinity else .nan := by
  obtain ⟨bias, -, -, -, f52, b1, -, width⟩ := format_facts long
  obtain ⟨size, vanishes, -⟩ := fraction_shift f52 (Nat.mod_lt w (show 0 < 2 ^ fractionBits long by positivity))
  rw [ofReal_eq]
  dsimp only
  rw [if_neg (by omega), if_pos h]
  refine ⟨rfl, extMant_mkExt _ _ (by omega), ?_⟩
  rw [extClass_mkExt_top _ (by omega) (by omega)]
  exact if_congr (by omega) rfl rfl

end Reals

/-! ### Packed decimals (R402) -/

theorem bcdDigits_eq (n w : ℕ) (h : ∀ i, i < n → w / 16 ^ i % 16 ≤ 9) :
    bcdDigits n w = some (((List.range n).map fun i => w / 16 ^ i % 16 * 10 ^ i).sum) := by
  induction n generalizing w with
  | zero => rfl
  | succ n ih =>
    have digit : w % 16 ≤ 9 := by simpa using h 0 (by omega)
    have next (i : ℕ) : w / 16 / 16 ^ i = w / 16 ^ (i + 1) := by rw [Nat.div_div_eq_div_mul, pow_succ']
    have rest := ih (w / 16) fun i hi => by rw [next]; exact h (i + 1) (by omega)
    rw [bcdDigits, if_pos digit, rest]
    simp only [next]
    rw [List.sum_range_succ', ← List.sum_map_mul_left]
    simp only [pow_zero, Nat.div_one, mul_one, Nat.succ_eq_add_one, pow_succ' 10, mul_left_comm]

theorem decimal_lt {n : ℕ} {digit : ℕ → ℕ} (h : ∀ i, i < n → digit i ≤ 9) :
    ((List.range n).map fun i => digit i * 10 ^ i).sum < 10 ^ n := by
  induction n with
  | zero => exact one_pos
  | succ n ih =>
    have rest := ih fun i hi => h i (by omega)
    have last : digit n * 10 ^ n ≤ 9 * 10 ^ n := Nat.mul_le_mul_right _ (h n (by omega))
    rw [List.sum_range_succ, pow_succ]
    omega

theorem decimalValue_lt {w : ℕ} (h : ∀ i, i < 18 → w / 16 ^ i % 16 ≤ 9) : decimalValue w < 2 ^ 64 :=
  (decimal_lt h).trans (by norm_num)

/-- A packed decimal with 18 digits is loaded exactly, with its sign. -/
theorem ofBcd_value (x : Ext80) {w : ℕ} (h : ∀ i, i < 18 → w / 16 ^ i % 16 ≤ 9) :
    extMagnitude (ofBcd x w) = (decimalValue w : ℝ) ∧ extSign (ofBcd x w) = w.testBit 79 := by
  have sign : (w / 2 ^ 79 % 2 == 1) = w.testBit 79 := by rw [Nat.testBit_eq_decide_div_mod_eq, beq_eq_decide]
  have digits : bcdDigits 18 w = some (decimalValue w) := bcdDigits_eq 18 w h
  have size := decimalValue_lt h
  unfold ofBcd
  rw [digits, sign]
  match h : decimalValue w, size with
  | 0, _ => exact ⟨by simp, extSign_extZero _⟩
  | n + 1, size =>
    refine ⟨?_, extSign_mkExt ..⟩
    simp only
    rw [extMagnitude_congr (extExp_mkExt _ _ (extExp_lt _)) (extMant_mkExt _ _ (extMant_lt _)),
      extMagnitude_extOfIntValue (by rw [Int.natAbs_natCast]; exact size)]
    rfl

/-! ### The instructions -/

section Instructions

variable {s : State} (ready : s.FpuReady)

theorem load_completes {t : State} {f : Fpu} (ht : t.fpu = withEp f t.fpu) (o : Opnd) (empty : Bool) :
    t.setFpu (t.fpu.load o empty) = completed t (f.load o empty) t.free := by
  have load : t.fpu.load o empty = withEp (f.load o empty) t.fpu := by
    conv_lhs => rw [ht]
    exact withEp_load f t.fpu o empty
  rw [load]
  rfl

include ready

/-- A load from memory in one of the formats of FSrc. -/
theorem memLoad_becomes {x y : ℕ} (hx : x < 8) {k : FSrc} {i : Instr} {m : MemOp} (code : encode i = encFMem x y m)
    (run : exec i s = fpuMemLoad x y k m s) :
    ∃ w, s.SourceIs (s.escAddr m) k.size w ∧
      FpuBecomes s i (some (s.escAddr m)) (s.fpu.load (k.opnd w) false) := by
  have size : 2 ≤ k.size := by cases k <;> decide
  have ht := sourced_fpu_withEp s x y size m
  exact ⟨_, (s.fpuSource_spec m k.size size).2,
    becomes_of_escSrc ready hx size code run (congrArg _ (load_completes ht _ _))⟩

/-- FLD of a temporary real. -/
theorem fldM80_becomes (m : MemOp) :
    ∃ w, s.SourceIs (s.escAddr m) 10 w ∧ (extClass (BitVec.ofNat 80 w) ≠ .bad →
      FpuBecomes s (.fldM80 m) (some (s.escAddr m)) (s.fpu.load { v := BitVec.ofNat 80 w, den := false } false)) := by
  have run : exec (.fldM80 m) s = execFldM80 m s := rfl
  have ht := sourced_fpu_withEp s 3 5 (show 2 ≤ 10 by norm_num) m
  unfold execFldM80 at run
  refine ⟨_, (s.fpuSource_spec m 10 (by norm_num)).2, fun good =>
    becomes_of_escSrc ready (free := (sourced s 3 5 10 m).free) (by norm_num) (by norm_num) rfl run ?_⟩
  have accepted : (extClass (BitVec.ofNat 80 (s.fpuSource m 10).1) == .bad) = false := by simp [good]
  simp only [accepted, Bool.false_eq_true, if_false]
  exact congrArg _ (load_completes ht _ _)

/-- FBLD, with any value for a digit above 9. -/
theorem fbldM80_becomes (m : MemOp) :
    ∃ w x, s.SourceIs (s.escAddr m) 10 w ∧
      FpuBecomes s (.fbldM80 m) (some (s.escAddr m)) (s.fpu.load { v := ofBcd x w, den := false } false) := by
  have run : exec (.fbldM80 m) s = execFbldM80 m s := rfl
  have ht := sourced_fpu_withEp s 7 4 (show 2 ≤ 10 by norm_num) m
  unfold execFbldM80 at run
  exact ⟨_, Config.freeExt (sourced s 7 4 10 m).free, (s.fpuSource_spec m 10 (by norm_num)).2,
    becomes_of_escSrc ready (by norm_num) (by norm_num) rfl run
      (congrArg _ (load_completes (t := (sourced s 7 4 10 m).bump) ht _ _))⟩

/-- FLD ST(i): an empty register is the other stack fault. -/
theorem fldSti_becomes (i : BitVec 3) (good : extClass (s.fpu.operand i) ≠ .bad) :
    FpuBecomes s (.fldSti i) none (s.fpu.load { v := s.fpu.operand i, den := false } (s.fpu.isEmpty i)) := by
  have run : exec (.fldSti i) s = execFldSti i s := rfl
  have ht := noteEp_fpu_withEp s 1 (0xC0 + i.toNat)
  unfold execFldSti at run
  refine becomes_of_escReg ready (y := 0) (n := i.toNat) (free := (s.noteEp 1 (0xC0 + i.toNat)).free) (by norm_num)
    (by omega) (by omega) rfl run ?_
  have accepted : (extClass (s.fpu.operand i) == .bad) = false := by simp [good]
  have empty : (s.noteEp 1 (0xC0 + i.toNat)).fpu.isEmpty i = s.fpu.isEmpty i := rfl
  rw [operand_of_withEp ht]
  simp only [accepted, empty, Bool.false_eq_true, if_false]
  exact congrArg _ (load_completes ht _ _)

/-- A constant (R479-R485). -/
theorem const_becomes {n : ℕ} (hn : n < 8) {i : Instr} {v : Ext80} (code : encode i = encFReg 1 5 n)
    (run : exec i s = fpuConst (0xE8 + n) v s) : FpuBecomes s i none (s.fpu.load { v := v, den := false } false) :=
  becomes_of_escReg ready (by norm_num) (by omega) (by omega) code run
    (congrArg _ (load_completes (noteEp_fpu_withEp s 1 (0xE8 + n)) _ _))

/-- One of the five constants that the platform rounds down or up. -/
theorem romConst_becomes {n : ℕ} (hn : n < 8) {i : Instr} (k e m : ℕ) (code : encode i = encFReg 1 5 n)
    (run : exec i s = fpuConst (0xE8 + n) (romConst k e m) s) :
    ∃ v, (v = m ∨ v = m + 1) ∧ FpuBecomes s i none (s.fpu.load { v := mkExt false e v, den := false } false) := by
  refine ⟨m + bitNat (Config.constUp k), ?_, const_becomes ready hn code run⟩
  cases Config.constUp k
  · exact .inl rfl
  · exact .inr rfl

end Instructions

/-- Settles O42: the conversions are exact, and each instruction is an ESC that loads a value on the stack. -/
theorem coprocessorLoads : Obligations.CoprocessorLoads := by
  refine ⟨fun long w x => ⟨ofReal_sign long w, ofReal_finite long w, ofReal_special long w, ofBcd_value x⟩,
    fun s ready => ⟨fun m => ?_, fun m => ?_, fun m => ?_, fun m => ?_, fun m => ?_, fldM80_becomes ready,
      fbldM80_becomes ready, fldSti_becomes ready, ?_, ?_, ?_, ?_, ?_, ?_, ?_⟩⟩
  · exact memLoad_becomes ready (by norm_num) (k := .short) rfl rfl
  · exact memLoad_becomes ready (by norm_num) (k := .long) rfl rfl
  · exact memLoad_becomes ready (by norm_num) (k := .word) rfl rfl
  · exact memLoad_becomes ready (by norm_num) (k := .dword) rfl rfl
  · exact memLoad_becomes ready (by norm_num) (k := .qword) rfl rfl
  · exact const_becomes ready (n := 6) (by norm_num) rfl rfl
  · exact const_becomes ready (n := 0) (by norm_num) rfl rfl
  · exact romConst_becomes ready (n := 3) (by norm_num) 0 _ _ rfl rfl
  · exact romConst_becomes ready (n := 1) (by norm_num) 1 _ _ rfl rfl
  · exact romConst_becomes ready (n := 2) (by norm_num) 2 _ _ rfl rfl
  · exact romConst_becomes ready (n := 4) (by norm_num) 3 _ _ rfl rfl
  · exact romConst_becomes ready (n := 5) (by norm_num) 4 _ _ rfl rfl

end Sys2Proof.Certificates.Loads

/-! CERTIFICATE. The instructions that move registers of the VM87 or the stack pointer (47_vm87_instructions.md R473, R475,
R478, R534-R537). -/

namespace Sys2Proof.Certificates.StackMoves

open Sys2Proof.Machine Sys2Proof.Certificates.Coprocessor Sys2Proof.Certificates.EscapeInstructions

/-- An operation on the VM87 that does not look at the exception pointers. -/
def KeepsEp (g : Fpu → Fpu) : Prop := ∀ f e, g (withEp f e) = withEp (g f) e

theorem next_setFpu {g : Fpu → Fpu} (keeps : KeepsEp g) {t : State} {f : Fpu} (ht : t.fpu = withEp f t.fpu) :
    (Host.Outcome.next (t.setFpu (g t.fpu)) : Result) = .next (completed t (g f) t.free) := by
  conv_lhs => rw [ht, keeps]
  rfl

/-- An ESC without a memory operand that is one operation on the VM87. -/
theorem becomes_of_update {s : State} (ready : s.FpuReady) {i : Instr} (x y n second : ℕ) {k : State → Result}
    {g : Fpu → Fpu} (keeps : KeepsEp g) (run : exec i s = escReg false x second s k)
    (after : k (s.noteEp x second) = .next ((s.noteEp x second).setFpu (g (s.noteEp x second).fpu)))
    (code : encode i = encFReg x y n) (hx : x < 8 := by norm_num) (hs : 192 + 8 * y + n = second := by norm_num)
    (size : second < 256 := by norm_num) : FpuBecomes s i none (g s.fpu) :=
  becomes_of_escReg ready hx hs size code run (after.trans (next_setFpu keeps (noteEp_fpu_withEp s x second)))

/-! ### FXCH (R478) -/

/-- The contents of ST(0) and ST(i) change places. -/
theorem exchange_st (f : Fpu) (i j : BitVec 3) :
    (f.exchange i).st j = if j = i then f.st 0 else if j = 0 then f.st i else f.st j := by
  rw [Fpu.exchange, st_setTag, st_put, st_setTag, st_put]

/-- The tags change places with them. -/
theorem exchange_tagOf (f : Fpu) (i j : BitVec 3) :
    (f.exchange i).tagOf j = if j = i then f.tagOf 0 else if j = 0 then f.tagOf i else f.tagOf j := by
  have tag_lt (k : BitVec 3) : f.tagOf k < 4 := Nat.mod_lt _ (by norm_num)
  rw [Fpu.exchange, tagOf_setTag _ _ _ (tag_lt 0), tagOf_put, tagOf_setTag _ _ _ (tag_lt i), tagOf_put]
  split_ifs <;> rfl

section Instructions

variable {s : State} (ready : s.FpuReady) {i : BitVec 3}

include ready

/-- FST ST(i) and FSTP ST(i), of a register that is not empty. -/
theorem storeSti_becomes {y pops : ℕ} (hy : y < 8) {j : Instr} (code : encode j = encFReg 5 y i.toNat)
    (run : exec j s = fpuStoreSti (192 + 8 * y) pops i s) (full : s.fpu.isEmpty 0 = false) :
    FpuBecomes s j none (((s.fpu.put i (s.fpu.st 0)).setTag i (s.fpu.tagOf 0)).popN pops) :=
  becomes_of_update ready 5 y i.toNat (192 + 8 * y + i.toNat)
    (g := fun f => ((f.put i (f.st 0)).setTag i (f.tagOf 0)).popN pops)
    (fun f e => withEp_popN ((f.put i (f.st 0)).setTag i (f.tagOf 0)) e pops) run
    (if_neg (ne_true_of_eq_false full)) code (by norm_num) rfl (by omega)

/-- FXCH of two registers that are not empty. -/
theorem fxchSti_becomes (top : s.fpu.isEmpty 0 = false) (other : s.fpu.isEmpty i = false) :
    FpuBecomes s (.fxchSti i) none (s.fpu.exchange i) :=
  becomes_of_update ready 1 1 i.toNat (0xC8 + i.toNat) (g := fun f => f.exchange i) (fun _ _ => rfl)
    (show exec (.fxchSti i) s = execFxchSti i s from rfl)
    (if_neg (ne_true_of_eq_false (Bool.or_eq_false_iff.mpr ⟨top, other⟩))) rfl (by norm_num) rfl (by omega)

end Instructions

/-- Settles O44: each instruction is an ESC that writes registers, tags or the stack pointer. -/
theorem coprocessorStackMoves : Obligations.CoprocessorStackMoves := by
  intro s i ready
  refine ⟨fun full => ⟨storeSti_becomes ready (y := 2) (pops := 0) (by norm_num) rfl rfl full,
    storeSti_becomes ready (y := 3) (pops := 1) (by norm_num) rfl rfl full⟩, fun top other => ?_, ?_, ?_, ?_, ?_⟩
  · refine ⟨_, fxchSti_becomes ready top other, ?_, ?_, ?_, ?_, fun j (j0 : ¬j = 0) ji => ⟨?_, ?_⟩, rfl, rfl⟩
    · rw [exchange_st, if_pos rfl]; split_ifs with h <;> simp [h]
    · rw [exchange_st, if_pos rfl]
    · rw [exchange_tagOf, if_pos rfl]; split_ifs with h <;> simp [h]
    · rw [exchange_tagOf, if_pos rfl]
    · rw [exchange_st, if_neg ji, if_neg j0]
    · rw [exchange_tagOf, if_neg ji, if_neg j0]
  · exact becomes_of_update ready 1 6 7 0xF7 (g := fun f => f.setTop (f.top + 1)) (fun _ _ => rfl)
      (show exec .fincstp s = execFincstp s from rfl) rfl rfl
  · exact becomes_of_update ready 1 6 6 0xF6 (g := fun f => f.setTop (f.top - 1)) (fun _ _ => rfl)
      (show exec .fdecstp s = execFdecstp s from rfl) rfl rfl
  · exact becomes_of_update ready 5 0 i.toNat (0xC0 + i.toNat) (g := fun f => f.setTag i 3) (fun _ _ => rfl)
      (show exec (.ffreeSti i) s = execFfreeSti i s from rfl) rfl rfl (size := by omega)
  · exact becomes_of_update ready 1 2 0 0xD0 (g := id) (fun _ _ => rfl) rfl rfl rfl

end Sys2Proof.Certificates.StackMoves

/-! SUPPORT. An ESC with a destination in memory, and the forms that need no WAIT: what stands between the state at the ESC
and the one after it (47_vm87_instructions.md R462, R463). -/

namespace Sys2Proof.Certificates.EscapeStores

open Sys2Proof.Machine Sys2Proof.Certificates.Escape Sys2Proof.Certificates.EscapeInstructions

/-! ### Changes of the VM87 before the bytes are stored -/

theorem sameBesideFpu_trans {s t u : State} (h : s.SameBesideFpu t) (g : t.SameBesideFpu u) : s.SameBesideFpu u := by
  obtain ⟨cpu, run, iop, io, env, plat, devices⟩ := h
  obtain ⟨cpu', run', iop', io', env', plat', devices'⟩ := g
  exact ⟨cpu'.trans cpu, run'.trans run, iop'.trans iop, ⟨io'.1.trans io.1, io'.2.trans io.2⟩, env'.trans env,
    plat'.trans plat, fun none => (devices none).trans (devices' (none.congr plat))⟩

/-- Bytes stored after a change of the VM87 and reads of the bus are stored. -/
theorem fpuStored_after {s t u : State} {a n v : ℕ} (bytes : s.SameBytes t) (beside : s.SameBesideFpu t)
    (h : t.FpuStored u a n v) : s.FpuStored u a n v := by
  have run : t.run = s.run := beside.2.1
  have plat : t.plat = s.plat := beside.2.2.2.2.2.1
  unfold State.FpuStored at h ⊢
  rw [run] at h
  cases feed : s.run.feed with
  | none =>
    rw [feed] at h
    obtain ⟨⟨outside, ram, rom⟩, rest⟩ := h
    refine ⟨⟨fun x hx => (outside x hx).trans (bytes x), fun k hk r => ram k hk ?_, fun k hk r => ?_⟩,
      sameBesideFpu_trans beside rest⟩
    · rwa [State.isRam_congr plat]
    · exact (rom k hk (by rwa [State.isRam_congr plat])).trans (bytes _)
  | some read =>
    rw [feed] at h
    obtain ⟨same, queued, rest⟩ := h
    exact ⟨fun x => (same x).trans (bytes x), queued, sameBesideFpu_trans beside rest⟩

/-! ### The state in which an ESC with a destination executes (R462) -/

/-- The state in which an ESC with a destination in memory executes. -/
def destined (s : State) (x y : ℕ) (m : MemOp) : State :=
  ((s.escRead m).noteEp x (escByte y m)).noteOperand (s.escAddr m)

theorem escRead_fpu (s : State) (m : MemOp) : (s.escRead m).fpu = s.fpu := by
  obtain ⟨-, -, ⟨fpu, -⟩, -⟩ := s.escRead_quiet m
  exact fpu

theorem destined_fpu_withEp (s : State) (x y : ℕ) (m : MemOp) :
    (destined s x y m).fpu = withEp s.fpu (destined s x y m).fpu := by
  rw [← escRead_fpu s m]
  rfl

/-- The exception pointers after an ESC with a memory operand and reads of the bus (10_state.md R57). -/
theorem epNoted_mem {s r t : State} (quiet : s.Quiet r) {x y : ℕ} (hx : x < 8) {m : MemOp} {i : Instr}
    (code : encode i = encFMem x y m) {f : Fpu}
    (ht : t.fpu = withEp f ((r.noteEp x (escByte y m)).noteOperand (s.escAddr m)).fpu) :
    s.EpNoted t i (some (s.escAddr m)) := by
  obtain ⟨opcode, address, -⟩ := r.noteEp_fpu x (escByte y m)
  have pointers : t.fpu.epOpcode = (r.noteEp x (escByte y m)).fpu.epOpcode ∧
      t.fpu.epInstr = (r.noteEp x (escByte y m)).fpu.epInstr ∧ t.fpu.epOperand = BitVec.ofNat 20 (s.escAddr m) := by
    rw [ht]; exact ⟨rfl, rfl, rfl⟩
  obtain ⟨sameOpcode, sameInstr, operand⟩ := pointers
  refine ⟨?_, fun lead => ?_, operand⟩
  · rw [sameOpcode, opcode, code, encFMem, List.headD_cons, List.tail_cons, escCode_toNat hx]
    rfl
  · rw [sameInstr]
    rw [← quiet.1] at lead ⊢
    exact address lead

/-- An ESC with a destination that stores nothing. -/
theorem becomes_of_destined {s : State} {i : Instr} {x y : ℕ} (hx : x < 8) {m : MemOp} (code : encode i = encFMem x y m)
    {f : Fpu} {free : ℕ} (run : exec i s = .next (completed (destined s x y m) f free)) :
    FpuBecomes s i (some (s.escAddr m)) f := by
  have quiet := s.escRead_quiet m
  have beside := sameBesideFpu_of_quiet quiet
  exact ⟨_, run, rfl, epNoted_mem quiet hx code rfl, quiet.bytes, beside⟩

/-- An ESC with a destination that stores `n` bytes. -/
theorem writes_of_destined {s : State} {i : Instr} {x y n v : ℕ} (hx : x < 8) {m : MemOp} (hn : n ≤ 2 ^ 16)
    (code : encode i = encFMem x y m) {f : Fpu} {free : ℕ}
    (run : exec i s = .next ((completed (destined s x y m) f free).fpuWrite (s.escAddr m) v n)) :
    FpuWrites s i (s.escAddr m) n v f := by
  have quiet := s.escRead_quiet m
  have beside := sameBesideFpu_of_quiet quiet
  obtain ⟨stored, fpu⟩ := (completed (destined s x y m) f free).fpuWrite_spec (s.escAddr m) v n hn
  refine ⟨_, run, by rw [fpu]; rfl, epNoted_mem quiet hx code fpu, fpuStored_after (fun a => ?_) ?_ stored⟩
  · exact quiet.bytes a
  · exact beside

/-! ### The forms that need no WAIT (R463) -/

theorem escReg_noWait {s : State} (there : s.FpuThere) (x second : ℕ) (k : State → Result) :
    escReg true x second s k = k (s.noteEp x second) := by
  have p : s.plat.hasVm87 = true := there
  simp [escReg, p]

theorem escDst_noWait {s : State} (there : s.FpuThere) (x y : ℕ) (m : MemOp) (k : ℕ → State → Result) :
    escDst true x y m s k = k (s.escAddr m) (destined s x y m) := by
  have p : s.plat.hasVm87 = true := there
  simp [escDst, p, destined]

/-- A register form that needs no WAIT. -/
theorem becomes_of_noWait {s : State} (there : s.FpuThere) {i : Instr} (x y n second : ℕ) {k : State → Result} {f : Fpu}
    {free : ℕ} (run : exec i s = escReg true x second s k)
    (after : k (s.noteEp x second) = .next (completed (s.noteEp x second) f free)) (code : encode i = encFReg x y n)
    (hx : x < 8 := by norm_num) (hs : 192 + 8 * y + n = second := by norm_num) (size : second < 256 := by norm_num) :
    FpuBecomes s i none f := by
  obtain ⟨opcode, address, operand⟩ := s.noteEp_fpu x second
  have beside := sameBesideFpu_of_quiet (.refl s)
  refine ⟨_, (run.trans (escReg_noWait there ..)).trans after, rfl, ⟨?_, address, operand⟩, fun _ => rfl, beside⟩
  have low : (byteOf second).toNat = second := by rw [byteOf, BitVec.toNat_ofNat, Nat.mod_eq_of_lt size]
  refine opcode.trans ?_
  rw [code, encFReg, hs, List.headD_cons, List.tail_cons, List.headD_cons, escCode_toNat hx, low]

end Sys2Proof.Certificates.EscapeStores

/-! CERTIFICATE. The control instructions of the VM87 (47_vm87_instructions.md R523-R529). -/

namespace Sys2Proof.Certificates.ControlInstructions

open Sys2Proof.Machine Sys2Proof.Certificates.Escape Sys2Proof.Certificates.EscapeInstructions
  Sys2Proof.Certificates.EscapeStores

/-! ### The request of a flag without a mask (10_state.md R53, R59, R526) -/

/-- The request rises, and BUSY with it when IEM does not gate it. -/
theorem request_sr (f : Fpu) :
    f.request.sr = if f.cr.getLsbD 7 = true then f.sr ||| 0x0080#16 else f.sr ||| 0x8080#16 := by
  unfold Fpu.request
  dsimp only
  rw [bit, bit]
  split
  · rename_i iem
    rw [iem, Bool.not_true, Bool.or_false]
    apply BitVec.eq_of_getLsbD_eq
    intro k _
    rw [setBit_getLsbD _ _ _ _ (by norm_num)]
    split
    · rename_i busy
      rw [busy, BitVec.getLsbD_or]
      simp
    · rfl
  · rename_i iem
    rw [Bool.not_eq_true] at iem
    rw [iem, Bool.not_false, Bool.or_true, setBit, setBit, if_pos rfl, if_pos rfl, BitVec.or_assoc]
    rfl

/-- The VM87 after a new word of control: a flag that it leaves unmasked raises the request. -/
theorem react_setCr (f : Fpu) (cr : Word) : ({ f with cr := cr } : Fpu).react =
    if f.sr &&& ~~~cr &&& 0x003F#16 = 0#16 then { f with cr := cr }
    else { f with cr := cr, sr := if cr.getLsbD 7 = true then f.sr ||| 0x0080#16 else f.sr ||| 0x8080#16 } := by
  have flagged : ({ f with cr := cr } : Fpu).unmaskedFlag = true ↔ f.sr &&& ~~~cr &&& 0x003F#16 ≠ 0#16 := bne_iff_ne
  unfold Fpu.react
  split
  · rename_i h
    rw [if_neg (flagged.mp h), ← request_sr { f with cr := cr }]
    rfl
  · rename_i h
    rw [if_pos (not_not.mp fun c => h (flagged.mpr c))]

theorem withEp_react (f e : Fpu) : (withEp f e).react = withEp f.react e := by
  rw [Fpu.react, Fpu.react, ← ite_withEp]
  rfl

/-! ### The instructions -/

section NoWait

variable {s : State} (there : s.FpuThere)

include there

/-- FINIT (R523): nothing outside the VM87 changes, and C3-C0 are unknown. -/
theorem finit_initialises : ∃ t codes, exec .finit s = .next t ∧ t.fpu.cr = 0x03BF#16 ∧ t.fpu.tag = 0xFFFF#16 ∧
    t.fpu.sr = codes &&& 0x4700#16 ∧ t.fpu.epInstr = 0#20 ∧ t.fpu.epOpcode = 0#11 ∧ t.fpu.epOperand = 0#20 ∧
    s.SameBytes t ∧ s.SameBesideFpu t := by
  have run : exec .finit s = .next (s.noteEp 3 0xE3).fpuInit :=
    (show exec .finit s = execFinit s from rfl).trans (escReg_noWait there ..)
  have beside := sameBesideFpu_of_quiet (.refl s)
  exact ⟨_, _, run, rfl, rfl, rfl, rfl, rfl, rfl, fun _ => rfl, beside⟩

/-- FENI (R524): the mask of all requests falls, and one that it has held appears. -/
theorem feni_becomes : FpuBecomes s .feni none ({ s.fpu with cr := s.fpu.cr &&& 0xFF7F#16 } : Fpu).react := by
  refine becomes_of_noWait there 3 4 0 0xE0 (free := (s.noteEp 3 0xE0).free)
    (show exec .feni s = execFeni s from rfl) ?_ rfl
  have react := withEp_react { s.fpu with cr := s.fpu.cr &&& 0xFF7F#16 } (s.noteEp 3 0xE0).fpu
  exact congrArg (fun f => Host.Outcome.next ((s.noteEp 3 0xE0).setFpu f)) react

theorem fdisi_becomes : FpuBecomes s .fdisi none { s.fpu with cr := s.fpu.cr ||| 0x0080#16 } :=
  becomes_of_noWait there 3 4 1 0xE1 (free := (s.noteEp 3 0xE1).free) (show exec .fdisi s = execFdisi s from rfl) rfl rfl

theorem fclex_becomes : FpuBecomes s .fclex none { s.fpu with sr := s.fpu.sr &&& 0x7F40#16 } :=
  becomes_of_noWait there 3 4 2 0xE2 (free := (s.noteEp 3 0xE2).free) (show exec .fclex s = execFclex s from rfl) rfl rfl

/-- FSTCW and FSTSW (R527, R528): a word of the VM87 that does not depend on the exception pointers. -/
theorem fstcw_writes (m : MemOp) : FpuWrites s (.fstcw m) (s.escAddr m) 2 s.fpu.cr.toNat s.fpu := by
  refine writes_of_destined (x := 1) (y := 7) (free := (destined s 1 7 m).free) (by norm_num) (by norm_num) rfl ?_
  refine ((show exec (.fstcw m) s = execFstcw m s from rfl).trans (escDst_noWait there ..)).trans ?_
  have fpu := destined_fpu_withEp s 1 7 m
  have cr : (destined s 1 7 m).fpu.cr = s.fpu.cr := by rw [fpu]; rfl
  rw [cr, completed, ← fpu]

theorem fstsw_writes (m : MemOp) :
    FpuWrites s (.fstsw m) (s.escAddr m) 2 ((s.fpu.sr ||| 0x8000#16) &&& 0xFFBF#16).toNat s.fpu := by
  refine writes_of_destined (x := 5) (y := 7) (free := (destined s 5 7 m).free) (by norm_num) (by norm_num) rfl ?_
  refine ((show exec (.fstsw m) s = execFstsw m s from rfl).trans (escDst_noWait there ..)).trans ?_
  have fpu := destined_fpu_withEp s 5 7 m
  have sr : (destined s 5 7 m).fpu.srImage = (s.fpu.sr ||| 0x8000#16) &&& 0xFFBF#16 := by rw [fpu]; rfl
  rw [sr, completed, ← fpu]

end NoWait

/-- FLDCW (R526): the used bits are those of the word in memory, the others any. -/
theorem fldcw_becomes {s : State} (ready : s.FpuReady) (m : MemOp) : ∃ w u : ℕ, s.SourceIs (s.escAddr m) 2 w ∧
    FpuBecomes s (.fldcw m) (some (s.escAddr m))
      ({ s.fpu with cr := (BitVec.ofNat 16 w &&& 0x1FBF#16) ||| (BitVec.ofNat 16 u &&& 0xE040#16) } : Fpu).react := by
  have fpu := sourced_fpu_withEp s 1 5 (le_refl 2) m
  obtain ⟨-, source⟩ := s.fpuSource_spec m 2 le_rfl
  refine ⟨_, (Config.freeWord (sourced s 1 5 2 m).free).toNat, source,
    becomes_of_escSrc ready (free := (sourced s 1 5 2 m).free + 1) (by norm_num) le_rfl rfl
      (show exec (.fldcw m) s = execFldcw m s from rfl) ?_⟩
  rw [BitVec.ofNat_toNat, BitVec.setWidth_eq]
  generalize (s.fpuSource m 2).1 = w
  generalize sourced s 1 5 2 m = t at *
  dsimp only [State.takeWord]
  rw [completed, ← withEp_react]
  generalize (BitVec.ofNat 16 w &&& 0x1FBF#16) ||| (Config.freeWord t.free &&& 0xE040#16) = cr
  have setCr : ({ t.fpu with cr := cr } : Fpu) = withEp { s.fpu with cr := cr } t.fpu := by rw [fpu]; rfl
  rw [setCr]
  rfl

/-- Settles O48: the requests are those of `react_setCr`, and each instruction writes SR or CR, or stores one of them. -/
theorem coprocessorControl : Obligations.CoprocessorControl := by
  intro s there
  refine ⟨finit_initialises there, ?_, fdisi_becomes there, fclex_becomes there,
    fun m => ⟨fstcw_writes there m, fstsw_writes there m⟩, fun free m => ?_⟩
  · dsimp only
    rw [← react_setCr]
    exact feni_becomes there
  · obtain ⟨w, u, source, becomes⟩ := fldcw_becomes ⟨there, free⟩ m
    refine ⟨w, u, source, ?_⟩
    dsimp only
    rw [← react_setCr]
    exact becomes

end Sys2Proof.Certificates.ControlInstructions

/-! CERTIFICATE. The comparisons of the VM87 and FXAM (47_vm87_instructions.md R486-R492). -/

namespace Sys2Proof.Certificates.Comparisons

open Sys2Proof.Machine Sys2Proof.Certificates.Coprocessor Sys2Proof.Certificates.NumberArithmetic
  Sys2Proof.Certificates.EscapeInstructions Sys2Proof.Certificates.StackMoves

/-! ### Condition codes (46_vm87_numerics.md R440) -/

/-- The three codes of a relation, C3, C2 and C0. -/
def relCodes : Rel → Bool × Bool × Bool
  | .gt => (false, false, false)
  | .lt => (false, false, true)
  | .eq => (true, false, false)
  | .unordered => (true, true, true)

theorem setRel_eq (f : Fpu) (r : Rel) : f.setRel r = f.setCodes (relCodes r).1 (relCodes r).2.1 (relCodes r).2.2 := by
  cases r <;> rfl

theorem setCodes_sr (f : Fpu) (c3 c2 c0 : Bool) (k : ℕ) : (f.setCodes c3 c2 c0).sr.getLsbD k =
    if k = 8 then c0 else if k = 10 then c2 else if k = 14 then c3 else f.sr.getLsbD k := by
  rw [Fpu.setCodes, setBit_getLsbD _ _ _ _ (by norm_num), setBit_getLsbD _ _ _ _ (by norm_num),
    setBit_getLsbD _ _ _ _ (by norm_num)]

/-- A relation writes its codes and nothing else. -/
theorem setRel_spec (f : Fpu) (r : Rel) :
    (f.setRel r).ar = f.ar ∧ (f.setRel r).tag = f.tag ∧ (f.setRel r).cr = f.cr ∧
    (∀ k, k ≠ 14 → k ≠ 10 → k ≠ 8 → (f.setRel r).sr.getLsbD k = f.sr.getLsbD k) ∧
    ((f.setRel r).sr.getLsbD 14, (f.setRel r).sr.getLsbD 10, (f.setRel r).sr.getLsbD 8) = relCodes r := by
  rw [setRel_eq]
  refine ⟨rfl, rfl, rfl, fun k h14 h10 h8 => ?_, ?_⟩
  · rw [setCodes_sr, if_neg h8, if_neg h10, if_neg h14]
  · simp only [setCodes_sr]
    norm_num

/-! ### Relations (R421, R434-R438) -/

section Relations

variable (affine : Bool) {a b : Opnd}

theorem den_of_infinity {o : Opnd} (h : o.cls = .infinity) : o.den = false := by
  unfold Opnd.cls at h
  split at h
  · cases h
  · rename_i den; rwa [Bool.not_eq_true] at den

/-- A NAN cannot be compared. -/
theorem fpCompare_nan (h : a.cls = .nan ∨ b.cls = .nan) : fpCompare affine a b = (true, false, .unordered) := by
  have nan : (a.cls == .nan || b.cls == .nan) = true := by simpa using h
  simp only [fpCompare, nan, if_true]

/-- What is left without a NAN. -/
theorem fpCompare_numbers (ha : a.cls ≠ .nan) (hb : b.cls ≠ .nan) : fpCompare affine a b =
    if a.cls = .infinity ∨ b.cls = .infinity then
      if affine = false then (true, false, .unordered)
      else if a.cls = .infinity then
        if b.cls = .infinity ∧ extSign a.v = extSign b.v then (false, false, .eq)
        else (false, b.den, if extSign a.v then .lt else .gt)
      else (false, a.den, if extSign b.v then .gt else .lt)
    else (false, a.den || b.den, relFinite a.v b.v) := by
  have nan : (a.cls == .nan || b.cls == .nan) = false := by simp [ha, hb]
  simp only [fpCompare, nan, Bool.false_eq_true, if_false]
  by_cases infA : a.cls = .infinity <;> by_cases infB : b.cls = .infinity <;> cases affine <;> simp [infA, infB]

/-- Finite operands are related as the numbers that they are. -/
theorem fpCompare_finite (ha : a.cls ≠ .infinity ∧ a.cls ≠ .nan) (hb : b.cls ≠ .infinity ∧ b.cls ≠ .nan) :
    fpCompare affine a b = (false, a.den || b.den,
      if extNumber a.v < extNumber b.v then .lt else if extNumber a.v = extNumber b.v then .eq else .gt) := by
  rw [fpCompare_numbers affine ha.2 hb.2, if_neg (not_or.mpr ⟨ha.1, hb.1⟩), relFinite_eq]

theorem order_iff (x y : ℝ) : let r : Rel := if x < y then .lt else if x = y then .eq else .gt
    (r = .lt ↔ x < y) ∧ (r = .eq ↔ x = y) ∧ (r = .gt ↔ y < x) := by
  rcases lt_trichotomy x y with h | h | h
  · simp [h, h.ne, h.not_gt]
  · simp [h]
  · simp [h, h.ne', h.not_gt]

/-- In the projective mode an infinity cannot be compared. -/
theorem fpCompare_projective (ha : a.cls ≠ .nan) (hb : b.cls ≠ .nan) (inf : a.cls = .infinity ∨ b.cls = .infinity) :
    fpCompare false a b = (true, false, .unordered) := by
  rw [fpCompare_numbers false ha hb, if_pos inf, if_pos rfl]

theorem fpCompare_infinities (ha : a.cls = .infinity) (hb : b.cls = .infinity) : fpCompare true a b =
    (false, false, if extSign a.v = extSign b.v then .eq else if extSign a.v = true then .lt else .gt) := by
  rw [fpCompare_numbers true (by rw [ha]; decide) (by rw [hb]; decide), if_pos (.inl ha), if_neg (by decide), if_pos ha,
    den_of_infinity hb]
  by_cases same : extSign a.v = extSign b.v <;> simp [same, hb]

theorem fpCompare_infinity_left (ha : a.cls = .infinity) (hb : b.cls ≠ .infinity ∧ b.cls ≠ .nan) :
    fpCompare true a b = (false, b.den, if extSign a.v = true then .lt else .gt) := by
  rw [fpCompare_numbers true (by rw [ha]; decide) hb.2, if_pos (.inl ha), if_neg (by decide), if_pos ha,
    if_neg fun h => hb.1 h.1]

theorem fpCompare_infinity_right (ha : a.cls ≠ .infinity ∧ a.cls ≠ .nan) (hb : b.cls = .infinity) :
    fpCompare true a b = (false, a.den, if (!extSign b.v) = true then .lt else .gt) := by
  rw [fpCompare_numbers true ha.2 (by rw [hb]; decide), if_pos (.inr hb), if_neg (by decide), if_neg ha.1]
  cases extSign b.v <;> rfl

end Relations

/-! ### The response to a comparison (R422, R428) -/

theorem compare_spec (f : Fpu) (b : Opnd) (pops : ℕ) :
    let c := fpCompare (f.cr.getLsbD 12) (Opnd.ofReg (f.operand 0)) b
    (c.1 = false → c.2.1 = false → f.compare b pops = (f.setRel c.2.2).popN pops) ∧
    (c.1 = false → c.2.1 = true → f.compare b pops =
      if f.masked 1 = true then ((f.raise 1).setRel c.2.2).popN pops else f.raise 1) ∧
    (c.1 = true → f.compare b pops =
      if f.masked 0 = true then ((f.raise 0).setRel c.2.2).popN pops else f.raise 0) := by
  unfold Fpu.compare bit
  dsimp only
  generalize fpCompare (f.cr.getLsbD 12) (Opnd.ofReg (f.operand 0)) b = c
  refine ⟨fun ie de => ?_, fun ie de => ?_, fun ie => ?_⟩
  · simp only [ie, de, Bool.false_eq_true, if_false, Bool.false_and]
  · cases masked : f.masked 1 <;> simp only [ie, de, Bool.false_eq_true, if_false, if_true, Bool.true_and, Bool.not_true,
      Bool.not_false]
  · simp only [ie, if_true]

/-! ### The instructions -/

theorem withEp_setRel (f e : Fpu) (r : Rel) : (withEp f e).setRel r = withEp (f.setRel r) e := by cases r <;> rfl

theorem keepsEp_compare (b : Opnd) (pops : ℕ) : KeepsEp fun f => f.compare b pops := by
  intro f e
  have masked (k : ℕ) : (withEp f e).masked k = f.masked k := rfl
  have operand : (withEp f e).operand 0 = f.operand 0 := rfl
  have cr : (withEp f e).cr = f.cr := rfl
  simp only [Fpu.compare, masked, operand, cr, withEp_raise, withEp_setRel, withEp_popN, ite_withEp]

/-- Of operands of Table 3.5 a comparison is an operation on the VM87. -/
theorem fpuCompareWith_good {t : State} {b : Opnd} (pops : ℕ) (top : (Opnd.ofReg (t.fpu.operand 0)).cls ≠ .bad)
    (good : b.cls ≠ .bad) : fpuCompareWith b pops t = .next (t.setFpu (t.fpu.compare b pops)) := by
  have accepted : ((Opnd.ofReg (t.fpu.operand 0)).cls == .bad || b.cls == .bad) = false := by
    rw [Bool.or_eq_false_iff, beq_eq_false_iff_ne, beq_eq_false_iff_ne]
    exact ⟨top, good⟩
  rw [fpuCompareWith, accepted]
  rfl

theorem ofReal_good (long : Bool) (w : ℕ) : (ofReal long w).cls ≠ .bad := by
  unfold Opnd.cls
  split
  · decide
  by_cases special : w / 2 ^ fractionBits long % 2 ^ exponentBits long = 2 ^ exponentBits long - 1
  · obtain ⟨-, -, kind⟩ := Loads.ofReal_special long w special
    rw [kind]
    split <;> decide
  · obtain ⟨-, -, kind⟩ := Loads.ofReal_finite long w special
    rw [kind]
    split
    · split <;> decide
    · decide

theorem integer_good {n : ℤ} (h : n.natAbs < 2 ^ 64) : (operand (extOfIntValue n)).cls ≠ .bad := by
  rw [operand_cls]
  rcases Numbers.plain_extOfIntValue h with kind | kind <;> rw [kind] <;> decide

theorem signedBits_lt {bits w : ℕ} (hb : bits ≤ 64) (hw : w < 2 ^ bits) :
    (signedBits bits w).natAbs < 2 ^ 64 := by
  have size : 2 ^ bits ≤ 2 ^ 64 := Nat.pow_le_pow_right two_pos hb
  have half : 0 < 2 ^ (bits - 1) := by positivity
  unfold signedBits
  split <;> omega

/-- What stands in memory as a short or long real or as an integer is a pattern of Table 3.5. -/
theorem opnd_good (k : FSrc) {w : ℕ} (hw : w < 256 ^ k.size) : (k.opnd w).cls ≠ .bad := by
  cases k with
  | short => exact ofReal_good false w
  | long => exact ofReal_good true w
  | word => exact integer_good (signedBits_lt (by norm_num) hw)
  | dword => exact integer_good (signedBits_lt (by norm_num) hw)
  | qword => exact integer_good (signedBits_lt (by norm_num) hw)

/-- The codes C3, C2 and C0 of a class (R440). -/
def examCodes : FClass → Bool × Bool × Bool
  | .zero => (true, false, false)
  | .denormal => (true, true, false)
  | .normal => (false, true, false)
  | .infinity => (false, true, true)
  | .nan => (false, false, true)
  | _ => (false, false, false)

/-- The codes of a class, and the sign of ST(0) in C1. -/
def examined (codes : Bool × Bool × Bool) (f : Fpu) : Fpu :=
  (f.setCodes codes.1 codes.2.1 codes.2.2).setC1 (extSign (f.st 0))

section Instructions

variable {s : State} (ready : s.FpuReady)

include ready

theorem memCompare_becomes {x y pops : ℕ} (hx : x < 8) {k : FSrc} {i : Instr} {m : MemOp}
    (code : encode i = encFMem x y m) (run : exec i s = fpuMemCompare x y k pops m s)
    (top : (Opnd.ofReg (s.fpu.operand 0)).cls ≠ .bad) :
    ∃ w, s.SourceIs (s.escAddr m) k.size w ∧
      FpuBecomes s i (some (s.escAddr m)) (s.fpu.compare (k.opnd w) pops) := by
  have size : 2 ≤ k.size := by cases k <;> decide
  have ht := sourced_fpu_withEp s x y size m
  have source := (s.fpuSource_spec m k.size size).2
  refine ⟨_, source, becomes_of_escSrc ready (free := (sourced s x y k.size m).free) hx size code run ?_⟩
  refine (fpuCompareWith_good pops ?_ (opnd_good k source.1)).trans (next_setFpu (keepsEp_compare _ pops) ht)
  rwa [operand_of_withEp ht]

/-- ST(0) compared with an operand that stands in the VM87 or is built in. -/
theorem regCompare_becomes (x y n second : ℕ) {b : Opnd} {pops : ℕ} {i : Instr}
    {k : State → Result} (run : exec i s = escReg false x second s k)
    (compares : k (s.noteEp x second) = fpuCompareWith b pops (s.noteEp x second))
    (top : (Opnd.ofReg (s.fpu.operand 0)).cls ≠ .bad) (good : b.cls ≠ .bad) (code : encode i = encFReg x y n)
    (hx : x < 8 := by norm_num) (hs : 192 + 8 * y + n = second := by norm_num) (size : second < 256 := by norm_num) :
    FpuBecomes s i none (s.fpu.compare b pops) :=
  becomes_of_update ready x y n second (keepsEp_compare b pops) run
    (compares.trans (fpuCompareWith_good pops top good)) code hx hs size

/-- FXAM of an empty register: C2 and C1 are free (log 19). -/
theorem fxam_empty (empty : s.fpu.isEmpty 0 = true) :
    ∃ c2 c1, FpuBecomes s .fxam none ((s.fpu.setCodes true c2 true).setC1 c1) :=
  ⟨Config.freeBit (s.noteEp 1 0xE5).free, Config.freeBit ((s.noteEp 1 0xE5).free + 1),
    becomes_of_escReg ready (y := 4) (n := 5) (free := (s.noteEp 1 0xE5).free + 2) (by norm_num) (by norm_num)
      (by norm_num) rfl (show exec .fxam s = execFxam s from rfl) (if_pos empty)⟩

/-- FXAM of a register that is not empty. -/
theorem fxam_full (full : s.fpu.isEmpty 0 = false) (good : extClass (s.fpu.st 0) ≠ .bad) :
    FpuBecomes s .fxam none (examined (examCodes (extClass (s.fpu.st 0))) s.fpu) := by
  refine becomes_of_update ready 1 4 5 0xE5 (fun _ _ => rfl) (show exec .fxam s = execFxam s from rfl) ?_ rfl
  refine (if_neg (ne_true_of_eq_false full)).trans ?_
  have st : (s.noteEp 1 0xE5).fpu.st 0 = s.fpu.st 0 := rfl
  rw [examined, st]
  cases kind : extClass (s.fpu.st 0) with
  | bad => exact absurd kind good
  | _ => rfl

end Instructions

/-- Settles O45: the relation of finite operands is that of their numbers, `compare_spec` says what an instruction makes
of it, and each instruction is an ESC that compares or examines. -/
theorem coprocessorComparisons : Obligations.CoprocessorComparisons := by
  refine ⟨fun f r => ?_, fun affine a b => ⟨fun nan => ?_, fun ha hb => ?_, fun ha hb inf projective => ?_,
    fun mode ha hb => ?_, fun mode ha hb => ?_, fun mode ha hb => ?_⟩, compare_spec, fun s ready => ⟨fun top => ?_,
    fxam_empty ready, fun full => ?_⟩⟩
  · obtain ⟨ar, tag, cr, others, codes⟩ := setRel_spec f r
    refine ⟨ar, tag, cr, others, codes.trans ?_⟩
    cases r <;> rfl
  · rw [fpCompare_nan affine nan]
    exact ⟨rfl, rfl⟩
  · rw [fpCompare_finite affine ha hb]
    exact ⟨rfl, rfl, order_iff _ _⟩
  · rw [projective, fpCompare_projective ha hb inf]
    exact ⟨rfl, rfl⟩
  · rw [mode]; exact fpCompare_infinities ha hb
  · rw [mode]; exact fpCompare_infinity_left ha hb
  · rw [mode]; exact fpCompare_infinity_right ha hb
  · refine ⟨fun m => ?_, fun m => ?_, fun m => ?_, fun m => ?_, fun m => ?_, fun m => ?_, fun m => ?_, fun m => ?_,
      fun j good => ⟨?_, ?_⟩, fun good => ?_, ?_⟩
    · exact memCompare_becomes ready (x := 0) (y := 2) (by norm_num) rfl rfl top
    · exact memCompare_becomes ready (x := 4) (y := 2) (by norm_num) rfl rfl top
    · exact memCompare_becomes ready (x := 6) (y := 2) (by norm_num) rfl rfl top
    · exact memCompare_becomes ready (x := 2) (y := 2) (by norm_num) rfl rfl top
    · exact memCompare_becomes ready (x := 0) (y := 3) (by norm_num) rfl rfl top
    · exact memCompare_becomes ready (x := 4) (y := 3) (by norm_num) rfl rfl top
    · exact memCompare_becomes ready (x := 6) (y := 3) (by norm_num) rfl rfl top
    · exact memCompare_becomes ready (x := 2) (y := 3) (by norm_num) rfl rfl top
    · exact regCompare_becomes ready 0 2 j.toNat (0xD0 + j.toNat)
        (show exec (.fcomSti j) s = execFcomSti j s from rfl) rfl top good rfl (size := by omega)
    · exact regCompare_becomes ready 0 3 j.toNat (0xD8 + j.toNat)
        (show exec (.fcompSti j) s = execFcompSti j s from rfl) rfl top good rfl (size := by omega)
    · exact regCompare_becomes ready 6 3 1 0xD9 (show exec .fcompp s = execFcompp s from rfl) rfl top good rfl
    · exact regCompare_becomes ready 1 4 4 0xE4 (show exec .ftst s = execFtst s from rfl) rfl top (by decide) rfl
  · have exam := fxam_full ready full
    dsimp only
    generalize extClass (s.fpu.st 0) = c at exam ⊢
    cases c with
    | bad => trivial
    | _ => exact exam (by decide)

end Sys2Proof.Certificates.Comparisons

/-! CERTIFICATE. The environment of the VM87: the layout of its image, the instructions that store and load it, and the
image of the register stack (10_state.md R57, 47_vm87_instructions.md R530-R533). -/

namespace Sys2Proof.Certificates.Environment

open Sys2Proof.Machine Sys2Proof.Certificates.Coprocessor Sys2Proof.Certificates.Escape
  Sys2Proof.Certificates.EscapeInstructions Sys2Proof.Certificates.EscapeStores
  Sys2Proof.Certificates.ControlInstructions

/-! ### The layout of the image (R530) -/

theorem srImage_eq (f : Fpu) : f.srImage = (f.sr ||| 0x8000#16) &&& 0xFFBF#16 := rfl

/-- The seven words of the image. -/
theorem envImage_words (f : Fpu) :
    f.envImage = (f.cr &&& 0x1FBF#16).toNat + 2 ^ 16 * f.srImage.toNat + 2 ^ 32 * f.tag.toNat
      + 2 ^ 48 * (f.epInstr.toNat % 2 ^ 16) + 2 ^ 64 * (f.epOpcode.toNat + 2 ^ 12 * (f.epInstr.toNat / 2 ^ 16))
      + 2 ^ 80 * (f.epOperand.toNat % 2 ^ 16) + 2 ^ 96 * (2 ^ 12 * (f.epOperand.toNat / 2 ^ 16)) := by
  unfold Fpu.envImage pointerImage
  omega

/-- A number of seven words and what stands above them, taken apart. -/
theorem seven_words {a b c d e f g : ℕ} (ha : a < 2 ^ 16) (hb : b < 2 ^ 16) (hc : c < 2 ^ 16) (hd : d < 2 ^ 16)
    (he : e < 2 ^ 16) (hf : f < 2 ^ 16) (hg : g < 2 ^ 16) (r : ℕ) :
    let w := a + 2 ^ 16 * b + 2 ^ 32 * c + 2 ^ 48 * d + 2 ^ 64 * e + 2 ^ 80 * f + 2 ^ 96 * g + 2 ^ 112 * r
    w % 2 ^ 16 = a ∧ w / 2 ^ 16 % 2 ^ 16 = b ∧ w / 2 ^ 32 % 2 ^ 16 = c ∧ w / 2 ^ 48 % 2 ^ 16 = d ∧
      w / 2 ^ 64 % 2 ^ 16 = e ∧ w / 2 ^ 80 % 2 ^ 16 = f ∧ w / 2 ^ 96 % 2 ^ 16 = g := by
  norm_num only
  refine ⟨?_, ?_, ?_, ?_, ?_, ?_, ?_⟩ <;> omega

/-- The words of an image, whatever stands above it. -/
theorem envImage_word (f : Fpu) (r : ℕ) : let w := f.envImage + 2 ^ 112 * r
    w % 2 ^ 16 = (f.cr &&& 0x1FBF#16).toNat ∧ w / 2 ^ 16 % 2 ^ 16 = f.srImage.toNat ∧
    w / 2 ^ 32 % 2 ^ 16 = f.tag.toNat ∧ w / 2 ^ 48 % 2 ^ 16 = f.epInstr.toNat % 2 ^ 16 ∧
    w / 2 ^ 64 % 2 ^ 16 = f.epOpcode.toNat + 2 ^ 12 * (f.epInstr.toNat / 2 ^ 16) ∧
    w / 2 ^ 80 % 2 ^ 16 = f.epOperand.toNat % 2 ^ 16 ∧ w / 2 ^ 96 % 2 ^ 16 = 2 ^ 12 * (f.epOperand.toNat / 2 ^ 16) := by
  have instr := f.epInstr.isLt
  have opcode := f.epOpcode.isLt
  have operand := f.epOperand.isLt
  rw [envImage_words]
  exact seven_words (f.cr &&& 0x1FBF#16).isLt f.srImage.isLt f.tag.isLt (Nat.mod_lt _ (by norm_num)) (by omega)
    (Nat.mod_lt _ (by norm_num)) (by omega) r

theorem envImage_lt (f : Fpu) : f.envImage < 2 ^ 112 := by
  have cr := (f.cr &&& 0x1FBF#16).isLt
  have sr := f.srImage.isLt
  have tag := f.tag.isLt
  have instr := f.epInstr.isLt
  have opcode := f.epOpcode.isLt
  have operand := f.epOperand.isLt
  rw [envImage_words]
  omega

/-! ### The image of the register stack (R532, R533) -/

/-- ST(i) stands in the image of the registers from number `j` on. -/
theorem stackImage_get (f : Fpu) (j : ℕ) {i n : ℕ} (h : i < n) :
    f.stackImage j n / 2 ^ (80 * i) % 2 ^ 80 = (f.st (BitVec.ofNat 3 (j + i))).toNat := by
  induction n generalizing i j with
  | zero => omega
  | succ n ih =>
    have first := (f.st (BitVec.ofNat 3 j)).isLt
    rw [Fpu.stackImage]
    cases i with
    | zero =>
      rw [Nat.mul_zero, Nat.pow_zero, Nat.div_one, Nat.add_zero, Nat.add_mul_mod_self_left, Nat.mod_eq_of_lt first]
      rfl
    | succ i =>
      rw [Nat.mul_succ, Nat.add_comm (80 * i), pow_add, ← Nat.div_div_eq_div_mul, Nat.add_mul_div_left _ _ (by norm_num),
        Nat.div_eq_of_lt first, Nat.zero_add, ih (j + 1) (by omega), Nat.add_assoc, Nat.add_comm 1]

/-- A register stack written from its image: ST(k) for the numbers in the image, the others as before. -/
theorem ofStackImage_st (f : Fpu) (j w : ℕ) {k n : ℕ} (hn : j + n ≤ 8) (hk : k < 8) :
    (f.ofStackImage j w n).st (BitVec.ofNat 3 k) =
      if j ≤ k ∧ k < j + n then BitVec.ofNat 80 (w / 2 ^ (80 * (k - j))) else f.st (BitVec.ofNat 3 k) := by
  induction n generalizing f j w with
  | zero => rw [if_neg (by omega)]; rfl
  | succ n ih =>
    have same : (BitVec.ofNat 3 k = BitVec.ofNat 3 j) ↔ k = j := by
      rw [← BitVec.toNat_inj, BitVec.toNat_ofNat, BitVec.toNat_ofNat]; omega
    have written : ({ f with ar := f.ar.set (f.number (BitVec.ofNat 3 j)) (BitVec.ofNat 80 w) } : Fpu).st
      (BitVec.ofNat 3 k) =
        if k = j then BitVec.ofNat 80 w else f.st (BitVec.ofNat 3 k) :=
      (st_put f (BitVec.ofNat 3 j) (BitVec.ofNat 3 k) (BitVec.ofNat 80 w)).trans (if_congr same rfl rfl)
    rw [Fpu.ofStackImage, ih _ (j + 1) (w / 2 ^ 80) (by omega), written]
    rcases lt_trichotomy k j with below | rfl | above
    · rw [if_neg (by omega), if_neg (by omega), if_neg (by omega)]
    · rw [if_neg (by omega), if_pos rfl, if_pos (by omega), Nat.sub_self, Nat.mul_zero, Nat.pow_zero, Nat.div_one]
    · rw [if_neg (show ¬k = j by omega)]
      refine if_congr (by omega) ?_ rfl
      rw [Nat.div_div_eq_div_mul, ← pow_add, show 80 + 80 * (k - (j + 1)) = 80 * (k - j) by omega]

/-- An image of the register stack written back gives every register. -/
theorem ofStackImage_stackImage (f g : Fpu) (i : BitVec 3) : (g.ofStackImage 0 (f.stackImage 0 8) 8).st i = f.st i := by
  have number : BitVec.ofNat 3 i.toNat = i := by rw [BitVec.ofNat_toNat, BitVec.setWidth_eq]
  have small : i.toNat < 8 := i.isLt
  rw [← number, ofStackImage_st g 0 _ (by norm_num) small, if_pos (by omega), Nat.sub_zero]
  apply BitVec.eq_of_toNat_eq
  rw [BitVec.toNat_ofNat, stackImage_get f 0 small, Nat.zero_add]

/-! ### A stored environment loaded (R531) -/

theorem ofEnvImage_envImage (f h : Fpu) (u : Word) (rest : ℕ) :
    let g := h.ofEnvImage (f.envImage + 2 ^ 112 * rest) u
    g.tag = f.tag ∧ g.sr = (f.sr ||| 0x8000#16) &&& 0xFFBF#16 ∧ g.cr &&& 0x1FBF#16 = f.cr &&& 0x1FBF#16 ∧
    g.epInstr = f.epInstr ∧ g.epOpcode = f.epOpcode ∧ g.epOperand = f.epOperand := by
  obtain ⟨cr, sr, tag, low, high, low', high'⟩ := envImage_word f rest
  have instr := f.epInstr.isLt
  have opcode := f.epOpcode.isLt
  have operand := f.epOperand.isLt
  have size (n : ℕ) {k : ℕ} (v : BitVec k) (h : n % 2 ^ k = v.toNat) : BitVec.ofNat k n = v :=
    BitVec.eq_of_toNat_eq (by rw [BitVec.toNat_ofNat, h])
  have segment (w : ℕ) : w / 2 ^ 76 = w / 2 ^ 64 / 2 ^ 12 ∧ w / 2 ^ 108 = w / 2 ^ 96 / 2 ^ 12 := by
    rw [Nat.div_div_eq_div_mul, Nat.div_div_eq_div_mul, ← pow_add, ← pow_add]
    exact ⟨rfl, rfl⟩
  dsimp only [Fpu.ofEnvImage]
  generalize f.envImage + 2 ^ 112 * rest = w at *
  obtain ⟨instrSegment, operandSegment⟩ := segment w
  rw [size w _ cr, size (w / 2 ^ 16) _ sr, srImage_eq, instrSegment, operandSegment]
  refine ⟨size _ _ tag, ?_, ?_, size _ _ (by omega), size _ _ (by omega), size _ _ (by omega)⟩
  · rw [BitVec.and_assoc, BitVec.and_self]
  · rw [BitVec.and_or_distrib_right, BitVec.and_assoc, BitVec.and_self, BitVec.and_assoc u,
      show 0xE040#16 &&& 0x1FBF#16 = 0#16 from rfl, BitVec.and_zero, BitVec.or_zero, BitVec.and_assoc,
      BitVec.and_self]

/-! ### The request after a load (R526, R531, R533) -/

theorem reload_sr (f : Fpu) (k : ℕ) : f.reload.sr.getLsbD k =
    if k = 15 then (f.unmaskedFlag && !f.cr.getLsbD 7) else f.sr.getLsbD k || (f.unmaskedFlag && decide (k = 7)) := by
  have flag : ({ f with sr := setBit f.sr 15 false } : Fpu).unmaskedFlag = f.unmaskedFlag := by
    have masks : f.sr &&& 0x7FFF#16 &&& ~~~f.cr &&& 0x3F#16 = f.sr &&& ~~~f.cr &&& 0x3F#16 := by
      rw [BitVec.and_assoc f.sr, BitVec.and_comm 0x7FFF#16, ← BitVec.and_assoc f.sr, BitVec.and_assoc _ 0x7FFF#16]
      rfl
    exact congrArg (· != 0#16) masks
  unfold Fpu.reload Fpu.react
  rw [flag]
  cases f.unmaskedFlag
  · rw [if_neg Bool.false_ne_true]
    dsimp only
    rw [setBit_getLsbD _ _ _ _ (by norm_num), Bool.false_and, Bool.false_and, Bool.or_false]
  · rw [if_pos rfl, Fpu.request]
    dsimp only
    rw [setBit_getLsbD _ _ _ _ (by norm_num), setBit_getLsbD _ _ _ _ (by norm_num), setBit_getLsbD _ _ _ _ (by norm_num),
      bit, setBit_getLsbD _ _ _ _ (by norm_num), if_pos rfl, Bool.false_or, Bool.true_and, Bool.true_and]
    split
    · rfl
    · split
      · rename_i request; rw [decide_eq_true request, Bool.or_true]
      · rename_i other; rw [decide_eq_false other, Bool.or_false]

theorem unmaskedFlag_iff (f : Fpu) : f.unmaskedFlag = true ↔ f.sr &&& ~~~f.cr &&& 0x003F#16 ≠ 0#16 := bne_iff_ne

theorem reload_rest (f : Fpu) : f.reload.ar = f.ar ∧ f.reload.tag = f.tag ∧ f.reload.cr = f.cr ∧
    f.reload.epInstr = f.epInstr ∧ f.reload.epOpcode = f.epOpcode ∧ f.reload.epOperand = f.epOperand := by
  rw [Fpu.reload, Fpu.react_spec]
  exact ⟨rfl, rfl, rfl, rfl, rfl, rfl⟩

/-! ### The instructions -/

section Instructions

variable {s : State} (m : MemOp)

/-- An image stored after a change of the VM87. -/
theorem stored_of_escRead {i : Instr} {n v : ℕ} (hn : n ≤ 2 ^ 16) {t : State} {f : Fpu} (fpu : t.fpu = f)
    (same : s.SameBytes t) (beside : s.SameBesideFpu t) (run : exec i s = .next (t.fpuWrite (s.escAddr m) v n)) :
    ∃ u, exec i s = .next u ∧ u.fpu = f ∧ s.FpuStored u (s.escAddr m) n v := by
  obtain ⟨stored, kept⟩ := t.fpuWrite_spec (s.escAddr m) v n hn
  exact ⟨_, run, kept.trans fpu, fpuStored_after same beside stored⟩

/-- An image read, and the VM87 made of it. -/
theorem loaded_of_source {i : Instr} {n : ℕ} (hn : 2 ≤ n) (g : Fpu → ℕ → Word → Fpu)
    (run : exec i s = .next ((s.fpuSource m n).2.takeWord.2.setFpu
      (g (s.fpuSource m n).2.fpu (s.fpuSource m n).1 (s.fpuSource m n).2.takeWord.1))) :
    ∃ t w u, exec i s = .next t ∧ s.SourceIs (s.escAddr m) n w ∧ t.fpu = g s.fpu w u ∧ s.SameBytes t ∧
      s.SameBesideFpu t := by
  obtain ⟨quiet, source⟩ := s.fpuSource_spec m n hn
  obtain ⟨-, -, ⟨fpu, -⟩, -⟩ := id quiet
  have beside := sameBesideFpu_of_quiet quiet
  rw [fpu] at run
  exact ⟨_, _, _, run, source, rfl, quiet.bytes, beside⟩

variable (there : s.FpuThere)

include there

theorem escEnv_noWait (k : State → Result) : escEnv true m s k = k (s.escRead m) := by
  have p : s.plat.hasVm87 = true := there
  simp [escEnv, p]

theorem escEnv_ready (free : s.fpu.busy = false) (k : State → Result) : escEnv false m s k = k (s.escRead m) := by
  have p : s.plat.hasVm87 = true := there
  simp [escEnv, p, free]

theorem fstenv_stores : ∃ t, exec (.fstenv m) s = .next t ∧
    t.fpu = { s.fpu with cr := s.fpu.cr ||| 0x3F#16, sr := s.fpu.sr &&& 0x7FFF#16 } ∧
    s.FpuStored t (s.escAddr m) 14 s.fpu.envImage := by
  have quiet := s.escRead_quiet m
  have beside := sameBesideFpu_of_quiet quiet
  have run : exec (.fstenv m) s = execFstenv m s := rfl
  rw [execFstenv, escEnv_noWait m there, escRead_fpu] at run
  refine stored_of_escRead m (by norm_num) ?_ ?_ ?_ run
  · rfl
  · exact quiet.bytes
  · exact beside

theorem fsave_stores : ∃ t, exec (.fsave m) s = .next t ∧ (∃ k, t.fpu = Fpu.init k) ∧
    s.FpuStored t (s.escAddr m) 94 (s.fpu.envImage + 2 ^ 112 * s.fpu.stackImage 0 8) := by
  have quiet := s.escRead_quiet m
  have beside := sameBesideFpu_of_quiet quiet
  have run : exec (.fsave m) s = execFsave m s := rfl
  rw [execFsave, escEnv_noWait m there, escRead_fpu] at run
  obtain ⟨t, runs, fpu, stored⟩ := stored_of_escRead m (t := (s.escRead m).fpuInit) (by norm_num) rfl quiet.bytes
    beside run
  exact ⟨t, runs, ⟨_, fpu⟩, stored⟩

variable (free : s.fpu.busy = false)

include free

theorem fldenv_loads : ∃ t w u, exec (.fldenv m) s = .next t ∧ s.SourceIs (s.escAddr m) 14 w ∧
    t.fpu = (s.fpu.ofEnvImage w u).reload ∧ s.SameBytes t ∧ s.SameBesideFpu t :=
  loaded_of_source m (by norm_num) (fun f w u => (f.ofEnvImage w u).reload)
    ((show exec (.fldenv m) s = execFldenv m s from rfl).trans (escEnv_ready m there free _))

theorem frstor_loads : ∃ t w u, exec (.frstor m) s = .next t ∧ s.SourceIs (s.escAddr m) 94 w ∧
    t.fpu = ((s.fpu.ofEnvImage w u).ofStackImage 0 (w / 2 ^ 112) 8).reload ∧ s.SameBytes t ∧ s.SameBesideFpu t :=
  loaded_of_source m (by norm_num) (fun f w u => ((f.ofEnvImage w u).ofStackImage 0 (w / 2 ^ 112) 8).reload)
    ((show exec (.frstor m) s = execFrstor m s from rfl).trans (escEnv_ready m there free _))

end Instructions

/-- Settles O49: the image is seven words and eight registers, which a load takes apart again. -/
theorem coprocessorEnvironment : Obligations.CoprocessorEnvironment := by
  refine ⟨fun f i hi => ?_, fun s m there => ⟨fstenv_stores m there, fsave_stores m there,
    fun free => ⟨fldenv_loads m there free, frstor_loads m there free⟩⟩, fun f => ?_, fun f h u => ?_⟩
  · obtain ⟨cr, sr, tag, low, high, low', high'⟩ := envImage_word f 0
    have size := envImage_lt f
    rw [Nat.mul_zero, Nat.add_zero] at cr sr tag low high low' high'
    refine ⟨?_, sr, tag, low, high, low', high', size, ?_⟩
    · dsimp only
      rw [Nat.mul_zero, Nat.pow_zero, Nat.div_one]
      exact cr
    have split : 2 ^ (8 * (14 + 10 * i)) = 2 ^ 112 * 2 ^ (80 * i) := by rw [← pow_add]; congr 1; omega
    rw [split, ← Nat.div_div_eq_div_mul, Nat.add_mul_div_left _ _ (by norm_num), Nat.div_eq_of_lt size, Nat.zero_add,
      stackImage_get f 0 hi, Nat.zero_add]
  · obtain ⟨ar, tag, cr, instr, opcode, operand⟩ := reload_rest f
    refine ⟨ar, tag, cr, instr, opcode, operand, ?_, ?_, fun k request busy => ?_⟩
    · rw [reload_sr, if_neg (by norm_num), ← unmaskedFlag_iff]; simp
    · rw [reload_sr, if_pos rfl, ← unmaskedFlag_iff]; simp
    · rw [reload_sr, if_neg busy, decide_eq_false request, Bool.and_false, Bool.or_false]
  · obtain ⟨tag, sr, cr, instr, opcode, operand⟩ := ofEnvImage_envImage f h u (f.stackImage 0 8)
    exact ⟨tag, sr, cr, instr, opcode, operand, ofStackImage_stackImage f _⟩

end Sys2Proof.Certificates.Environment

/-! CERTIFICATE. The stores of the VM87: the conversions to short and long reals, integers and packed decimals, and the
instructions that store ST(0) (46_vm87_numerics.md R410, R413, R424, R425, R434; 47_vm87_instructions.md R473-R477). -/

namespace Sys2Proof.Certificates.Stores

open Sys2Proof.Machine Sys2Proof.Certificates.Numbers Sys2Proof.Certificates.Integers
  Sys2Proof.Certificates.EscapeInstructions Sys2Proof.Certificates.EscapeStores

/-! ### What follows a conversion (R425, R428, R429) -/

/-- The VM87 after the conditions of a store and its pops, and whether the value is stored. -/
def finished (f : Fpu) (r : SRes) (pops : ℕ) : Fpu × Bool :=
  if r.ie then
    if f.masked 0 then ((f.raise 0).popN pops, true) else (f.raise 0, false)
  else
    let g := if r.oe then f.raise 3 else f
    let g := if r.ue then g.raise 4 else g
    if (r.oe && !f.masked 3) || (r.ue && !f.masked 4) then (g, false)
    else ((if r.pe then g.raise 5 else g).popN pops, true)

theorem fpuFinishStore_eq (t : State) (r : SRes) (a n pops : ℕ) : t.fpuFinishStore r a n pops =
    if (finished t.fpu r pops).2 then (t.setFpu (finished t.fpu r pops).1).fpuWrite a r.val n
    else t.setFpu (finished t.fpu r pops).1 := by
  unfold State.fpuFinishStore finished
  dsimp only
  split
  · split <;> rfl
  · split <;> rfl

theorem finished_withEp (f e : Fpu) (r : SRes) (pops : ℕ) :
    finished (withEp f e) r pops = (withEp (finished f r pops).1 e, (finished f r pops).2) := by
  have masked (k : ℕ) : (withEp f e).masked k = f.masked k := rfl
  unfold finished
  simp only [masked, withEp_raise, withEp_popN, ite_withEp]
  split
  · split <;> rfl
  · split <;> rfl

theorem storesResult_iff (s : State) (i : Instr) (a n pops : ℕ) (r : SRes) : StoresResult s i a n pops r ↔
    if (finished s.fpu r pops).2 then FpuWrites s i a n r.val (finished s.fpu r pops).1
    else FpuBecomes s i (some a) (finished s.fpu r pops).1 := by
  have stops : ((r.oe && !s.fpu.masked 3) || (r.ue && !s.fpu.masked 4)) = true ↔
      (r.oe = true ∧ s.fpu.masked 3 = false) ∨ (r.ue = true ∧ s.fpu.masked 4 = false) := by simp
  unfold StoresResult finished
  dsimp only
  simp only [stops]
  split
  · split <;> rfl
  · split <;> rfl

/-- An ESC with a destination that ends as a store does. -/
theorem storesResult_of_finish {s : State} {x y n pops : ℕ} {i : Instr} {m : MemOp} (hx : x < 8) (hn : n ≤ 2 ^ 16)
    (code : encode i = encFMem x y m) {r : SRes}
    (run : exec i s = .next ((destined s x y m).bump.fpuFinishStore r (s.escAddr m) n pops)) :
    StoresResult s i (s.escAddr m) n pops r := by
  have fpu : (destined s x y m).bump.fpu = withEp s.fpu (destined s x y m).fpu := destined_fpu_withEp s x y m
  rw [fpuFinishStore_eq, fpu, finished_withEp] at run
  rw [storesResult_iff]
  dsimp only at run
  split
  · rename_i stored
    rw [if_pos stored] at run
    exact writes_of_destined (free := (destined s x y m).free + 1) hx hn code run
  · rename_i kept
    rw [if_neg kept] at run
    exact becomes_of_destined (free := (destined s x y m).free + 1) hx code run

/-- A store of ST(0): an ESC with a destination that converts, notes the conditions and stores. -/
theorem storesResult_of_fpuStore {s : State} (ready : s.FpuReady) {i : Instr} {m : MemOp} (x y n pops : ℕ)
    (raw : Bool) (conv : FCtl → Ext80 → SRes) (run : exec i s = fpuStore x y n raw conv pops m s)
    (good : raw = true ∨ extClass (s.fpu.operand 0) ≠ .bad) (code : encode i = encFMem x y m)
    (hx : x < 8 := by norm_num) (hn : n ≤ 2 ^ 16 := by norm_num) :
    ∃ k, let r := conv (s.fpu.ctl k) (s.fpu.operand 0)
      StoresResult s i (s.escAddr m) n pops { r with ie := r.ie || s.fpu.isEmpty 0 } := by
  have fpu := destined_fpu_withEp s x y m
  have operand : (destined s x y m).fpu.operand 0 = s.fpu.operand 0 := operand_of_withEp fpu 0
  have control (k : ℕ) : (destined s x y m).fpu.ctl k = s.fpu.ctl k := by rw [fpu]; rfl
  have empty : (destined s x y m).fpu.isEmpty 0 = s.fpu.isEmpty 0 := by rw [fpu]; rfl
  have accepted : (extClass (s.fpu.operand 0) == .bad && !raw) = false := by
    rcases good with raw | good
    · rw [raw]; exact Bool.and_false _
    · rw [beq_eq_false_iff_ne.mpr good]; rfl
  rw [fpuStore, escDst_ready ready, ← destined] at run
  dsimp only at run
  rw [operand, accepted, if_neg Bool.false_ne_true, control, empty] at run
  exact ⟨(destined s x y m).free, storesResult_of_finish hx hn code run⟩

/-! ### The codes of a short or long real (R403) -/

/-- The code of a sign, an exponent field and a fraction, in the widths of the format. -/
theorem mkReal_eq (long sign : Bool) (e k : ℕ) : mkReal long sign e k =
    (if sign = true then 2 ^ (fractionBits long + exponentBits long) else 0) + e * 2 ^ fractionBits long + k := by
  cases long <;> cases sign <;> rw [mkReal] <;> simp [bitNat, realShape, fractionBits, exponentBits]

/-- A code taken apart into its fields. -/
theorem mkReal_fields (long sign : Bool) {e k : ℕ} (he : e < 2 ^ exponentBits long) (hk : k < 2 ^ fractionBits long) :
    mkReal long sign e k / 2 ^ fractionBits long % 2 ^ exponentBits long = e ∧
    mkReal long sign e k % 2 ^ fractionBits long = k ∧
    mkReal long sign e k < 2 ^ (fractionBits long + exponentBits long + 1) ∧
    (mkReal long sign e k).testBit (fractionBits long + exponentBits long) = sign := by
  have inner : e * 2 ^ fractionBits long + k < 2 ^ (fractionBits long + exponentBits long) := by
    have := Nat.mul_le_mul_right (2 ^ fractionBits long) (Nat.succ_le_of_lt he)
    rw [Nat.succ_mul, ← pow_add, Nat.add_comm (exponentBits long)] at this
    omega
  have split : mkReal long sign e k =
      2 ^ fractionBits long * (2 ^ exponentBits long * bitNat sign + e) + k := by
    rw [mkReal_eq, pow_add]
    cases sign
    · rw [bitNat, if_neg Bool.false_ne_true, if_neg Bool.false_ne_true]; ring
    · rw [bitNat, if_pos rfl, if_pos rfl]; ring
  have pos : 0 < 2 ^ fractionBits long := by positivity
  refine ⟨?_, ?_, ?_, ?_⟩
  · rw [split, Nat.mul_add_div pos, Nat.div_eq_of_lt hk, Nat.add_zero, Nat.mul_add_mod, Nat.mod_eq_of_lt he]
  · rw [split, Nat.mul_add_mod, Nat.mod_eq_of_lt hk]
  · rw [mkReal_eq, pow_succ]
    split <;> omega
  · rw [mkReal_eq, Nat.add_assoc]
    cases sign
    · rw [if_neg Bool.false_ne_true, Nat.zero_add, Nat.testBit_lt_two_pow inner]
    · rw [if_pos rfl, Nat.testBit_two_pow_add_eq, Nat.testBit_lt_two_pow inner, Bool.not_false]

theorem realMagnitude_mkReal (long sign : Bool) {e k : ℕ} (he : e < 2 ^ exponentBits long) (hk : k < 2 ^ fractionBits long)
    (h0 : e ≠ 0) : realMagnitude long (mkReal long sign e k) =
      scaled (2 ^ fractionBits long + k) ((e : ℤ) - exponentBias long - fractionBits long) := by
  obtain ⟨field, fraction, -, -⟩ := mkReal_fields long sign he hk
  rw [Loads.realMagnitude_normal (by rw [field]; exact h0), field, fraction]

theorem exponent_one_lt (long : Bool) : 1 < 2 ^ exponentBits long := by cases long <;> norm_num [exponentBits]

/-- The codes from 0 on, up to that of the least normal number, are the multiples of the least denormalised one. -/
theorem denormal_code (long sign : Bool) {d : ℕ} (hd : d ≤ 2 ^ fractionBits long) :
    let w := mkReal long sign 0 0 + d
    realMagnitude long w = scaled d (1 - exponentBias long - fractionBits long) ∧
    w < 2 ^ (fractionBits long + exponentBits long + 1) ∧
    w.testBit (fractionBits long + exponentBits long) = sign := by
  have one := exponent_one_lt long
  have pos : 0 < 2 ^ fractionBits long := by positivity
  by_cases full : d = 2 ^ fractionBits long
  · have code : mkReal long sign 0 0 + d = mkReal long sign 1 0 := by
      rw [mkReal_eq, mkReal_eq, full]; ring
    obtain ⟨-, -, size, bit⟩ := mkReal_fields long sign one pos
    dsimp only
    rw [code, realMagnitude_mkReal long sign one pos one_ne_zero, full]
    exact ⟨rfl, size, bit⟩
  · have below : d < 2 ^ fractionBits long := by omega
    have code : mkReal long sign 0 0 + d = mkReal long sign 0 d := by rw [mkReal_eq, mkReal_eq]; rfl
    obtain ⟨field, fraction, size, bit⟩ := mkReal_fields long sign (e := 0) (by omega) below
    dsimp only
    rw [code, Loads.realMagnitude_zero_field field, fraction]
    exact ⟨rfl, size, bit⟩

/-! ### A finite number to a short or long real (R410, R413, R424, R425) -/

/-- The magnitude `x` with the bits of the fraction of the format. -/
def Shortened (c : FCtl) (long sign : Bool) (x n : ℝ) : Prop :=
  ∃ e : ℤ, (2 : ℝ) ^ e ≤ x ∧ x < 2 ^ (e + 1) ∧ RoundsTo c.rc sign x (2 ^ (e - fractionBits long)) n

/-- The shortened magnitude `n` of `x` is stored as a denormalised number, with UE. -/
def Underflows (c : FCtl) (long sign : Bool) (x n : ℝ) (r : SRes) : Prop :=
  r.oe = false ∧ r.ue = true ∧ (r.pe = true ↔ realMagnitude long r.val ≠ x) ∧
  RoundsTo c.rc sign n (2 ^ (1 - exponentBias long - fractionBits long)) (realMagnitude long r.val)

/-- The code is one of the format, with the sign. -/
def SignedCode (long sign : Bool) (r : SRes) : Prop :=
  r.ie = false ∧ r.val < 2 ^ (fractionBits long + exponentBits long + 1) ∧
  r.val.testBit (fractionBits long + exponentBits long) = sign

/-- The conversion of a non-zero magnitude. -/
def packReal (c : FCtl) (long sign : Bool) (x : Mag) : SRes :=
  let f := (realShape long).1
  let eb := (realShape long).2.1
  let bias := (realShape long).2.2
  let emin : Int := 1 - (bias : Int)
  let r := roundMant c.rc (f + 1) sign x
  if (bias : Int) < r.2.1 then
    { SRes.exact (mkReal long sign (2 ^ eb - 1) 0) with oe := true, pe := true }
  else if r.2.1 < emin then
    let d := ({ m := r.1, e := r.2.1 - (f : Int), sticky := false } : Mag).round c.rc sign (emin - (f : Int))
    { SRes.exact (mkReal long sign 0 0 + d.1) with ue := true, pe := r.2.2 || d.2 }
  else { SRes.exact (mkReal long sign (r.2.1 + (bias : Int)).toNat (r.1 % 2 ^ f)) with pe := r.2.2 }

/-- What the conversion delivers for the shortened magnitude `n`. -/
def Packed (c : FCtl) (long sign : Bool) (x n : ℝ) (r : SRes) : Prop :=
  ((2 : ℝ) ^ (exponentBias long + 1) ≤ n →
    r = { SRes.exact (mkReal long sign (2 ^ exponentBits long - 1) 0) with oe := true, pe := true }) ∧
  ((2 : ℝ) ^ (1 - exponentBias long) ≤ n → n < 2 ^ (exponentBias long + 1) →
    r.oe = false ∧ r.ue = false ∧ realMagnitude long r.val = n ∧ (r.pe = true ↔ n ≠ x)) ∧
  (n < 2 ^ (1 - exponentBias long) → Underflows c long sign x n r)

theorem packReal_eq (c : FCtl) (long sign : Bool) (x : Mag) : packReal c long sign x =
    let t := roundMant c.rc (fractionBits long + 1) sign x
    if exponentBias long < t.2.1 then
      { SRes.exact (mkReal long sign (2 ^ exponentBits long - 1) 0) with oe := true, pe := true }
    else if t.2.1 < 1 - exponentBias long then
      let d := ({ m := t.1, e := t.2.1 - fractionBits long, sticky := false } : Mag).round c.rc sign
        (1 - exponentBias long - fractionBits long)
      { SRes.exact (mkReal long sign 0 0 + d.1) with ue := true, pe := t.2.2 || d.2 }
    else { SRes.exact (mkReal long sign (t.2.1 + exponentBias long).toNat (t.1 % 2 ^ fractionBits long)) with pe :=
      t.2.2 } := by
  cases long <;> rfl

/-- A mantissa of `f + 1` bits lies in the binade of its exponent. -/
theorem binade_of_mant {m f : ℕ} (low : 2 ^ f ≤ m) (high : m < 2 ^ (f + 1)) (e : ℤ) :
    (2 : ℝ) ^ e ≤ scaled m (e - f) ∧ scaled m (e - f) < 2 ^ (e + 1) := by
  have unit : (0 : ℝ) < 2 ^ (e - f) := by positivity
  have bottom : scaled (2 ^ f) (e - f) = 2 ^ e := by rw [scaled_two_pow]; congr 1; omega
  have top : scaled (2 ^ (f + 1)) (e - f) = 2 ^ (e + 1) := by rw [scaled_two_pow]; congr 1; push_cast; omega
  rw [← bottom, ← top]
  exact ⟨mul_le_mul_of_nonneg_right (by exact_mod_cast low) unit.le, mul_lt_mul_of_pos_right (by exact_mod_cast high) unit⟩

/-- The powers of two around a number in a binade. -/
theorem pow_le_iff {n : ℝ} {e : ℤ} (low : (2 : ℝ) ^ e ≤ n) (high : n < 2 ^ (e + 1)) (k : ℤ) : (2 : ℝ) ^ k ≤ n ↔ k ≤ e := by
  refine ⟨fun h => ?_, fun h => (zpow_le_zpow_right₀ one_le_two h).trans low⟩
  have := (zpow_lt_zpow_iff_right₀ (one_lt_two (α := ℝ))).mp (h.trans_lt high)
  omega

/-- A number below a power of two is not rounded beyond it. -/
theorem shortened_le {rc f : ℕ} {sign : Bool} {r n : ℝ} {e : ℤ} (rounds : RoundsTo rc sign r (2 ^ (e - f)) n)
    (high : r < 2 ^ (e + 1)) : n ≤ 2 ^ (e + 1) := by
  have unit : (0 : ℝ) < 2 ^ (e - f) := by positivity
  have top : ((2 ^ (f + 1) : ℕ) : ℝ) * 2 ^ (e - f) = 2 ^ (e + 1) := by
    rw [← scaled, scaled_two_pow]; congr 1; push_cast; omega
  obtain ⟨k, rfl⟩ := rounds.1
  have near := abs_lt_of_roundsTo unit rounds
  rw [← top]
  refine mul_le_mul_of_nonneg_right ?_ unit.le
  have below : (k : ℝ) < ((2 ^ (f + 1) : ℕ) : ℝ) + 1 :=
    lt_of_mul_lt_mul_right (by linarith [(abs_lt.mp near).2]) unit.le
  exact_mod_cast Nat.lt_succ_iff.mp (by exact_mod_cast below)

section Shortened

variable (c : FCtl) {long sign : Bool} {x : ℝ} {m : ℕ} {e : ℤ} {inexact : Bool}
  (lead : 2 ^ fractionBits long ≤ m) (size : m < 2 ^ (fractionBits long + 1))

include lead size

theorem packed_overflow (large : exponentBias long < e) :
    let r : SRes := { SRes.exact (mkReal long sign (2 ^ exponentBits long - 1) 0) with oe := true, pe := true }
    SignedCode long sign r ∧ Packed c long sign x (scaled m (e - fractionBits long)) r := by
  obtain ⟨bias, -, int, -, -, b1, -, -⟩ := Loads.format_facts long
  obtain ⟨above, below⟩ := binade_of_mant lead size e
  have one := exponent_one_lt long
  obtain ⟨-, -, code, bit⟩ := mkReal_fields long sign (e := 2 ^ exponentBits long - 1) (k := 0) (by omega) (by positivity)
  refine ⟨⟨rfl, code, bit⟩, fun _ => rfl, fun _ less => ?_, fun less => ?_⟩
  · exact absurd ((pow_le_iff above below _).mpr (by omega)) (not_le.mpr less)
  · exact absurd ((pow_le_iff above below _).mpr (by omega)) (not_le.mpr less)

variable (exact : inexact = true ↔ scaled m (e - fractionBits long) ≠ x)

include exact

theorem packed_normal (small : ¬exponentBias long < e) (least : ¬e < 1 - exponentBias long) :
    let r : SRes :=
      { SRes.exact (mkReal long sign (e + exponentBias long).toNat (m % 2 ^ fractionBits long)) with pe := inexact }
    SignedCode long sign r ∧ Packed c long sign x (scaled m (e - fractionBits long)) r := by
  obtain ⟨bias, -, int, -, -, b1, -, width⟩ := Loads.format_facts long
  obtain ⟨above, below⟩ := binade_of_mant lead size e
  have field : (e + exponentBias long).toNat < 2 ^ exponentBits long := by omega
  have fraction : m % 2 ^ fractionBits long < 2 ^ fractionBits long := Nat.mod_lt _ (by positivity)
  obtain ⟨-, -, code, bit⟩ := mkReal_fields long sign field fraction
  have mantissa : 2 ^ fractionBits long + m % 2 ^ fractionBits long = m := by
    rw [pow_succ] at size
    rw [Nat.mod_eq_sub_mod lead, Nat.mod_eq_of_lt (by omega)]
    omega
  have value : realMagnitude long (mkReal long sign (e + exponentBias long).toNat (m % 2 ^ fractionBits long)) =
      scaled m (e - fractionBits long) := by
    rw [realMagnitude_mkReal long sign field fraction (by omega), mantissa]
    congr 1
    omega
  refine ⟨⟨rfl, code, bit⟩, fun le => ?_, fun _ _ => ⟨rfl, rfl, value, exact⟩, fun less => ?_⟩
  · exact absurd ((pow_le_iff above below _).mp le) (by omega)
  · exact absurd ((pow_le_iff above below _).mpr (by omega)) (not_le.mpr less)

/-- A number below the least normal one is rounded once more, to a multiple of the least denormalised number. A multiple
of it needs no shortening, so that PE tells whether the code stands for `x`. -/
theorem packed_underflow {top : ℤ} (fine : top ≤ e)
    (rounds : RoundsTo c.rc sign x (2 ^ (top - fractionBits long)) (scaled m (e - fractionBits long)))
    (less : e < 1 - exponentBias long) :
    let d := ({ m := m, e := e - fractionBits long, sticky := false } : Mag).round c.rc sign
      (1 - exponentBias long - fractionBits long)
    let r : SRes := { SRes.exact (mkReal long sign 0 0 + d.1) with ue := true, pe := inexact || d.2 }
    SignedCode long sign r ∧ Packed c long sign x (scaled m (e - fractionBits long)) r := by
  obtain ⟨bias, -, int, -, -, b1, -, -⟩ := Loads.format_facts long
  obtain ⟨above, below⟩ := binade_of_mant lead size e
  have unit : (0 : ℝ) < 2 ^ (1 - exponentBias long - fractionBits long) := by positivity
  obtain ⟨rounds', exact'⟩ := round_spec (holds_exact m (e - fractionBits long))
    (q := 1 - exponentBias long - fractionBits long) (fun st => by cases st) c.rc sign
  have coarse : top - (fractionBits long : ℤ) ≤ 1 - exponentBias long - fractionBits long := by omega
  generalize Mag.round c.rc sign _ (1 - exponentBias long - fractionBits long) = d at *
  have few : d.1 ≤ 2 ^ fractionBits long := by
    have least : scaled (2 ^ fractionBits long) (1 - exponentBias long - fractionBits long) =
      2 ^ (1 - exponentBias long) := by
      rw [scaled_two_pow]; congr 1; omega
    refine (multiple_bounds (a := 0) unit (abs_lt_of_roundsTo unit rounds') ?_ ?_).2
    · rw [Nat.cast_zero, zero_mul]
      exact (by positivity : (0 : ℝ) ≤ 2 ^ e).trans above
    · rw [← scaled, least]
      exact below.le.trans (zpow_le_zpow_right₀ one_le_two (by omega))
  obtain ⟨value, code, bit⟩ := denormal_code long sign few
  refine ⟨⟨rfl, code, bit⟩, fun le => ?_, fun le _ => ?_, fun _ => ⟨rfl, rfl, ?_, ?_⟩⟩
  · exact absurd ((pow_le_iff above below _).mp le) (by omega)
  · exact absurd ((pow_le_iff above below _).mp le) (by omega)
  · dsimp only [SRes.exact]
    rw [value, Bool.or_eq_true, exact, exact']
    refine ⟨fun differs same => ?_, fun differs => ?_⟩
    · have multiple : x = (d.1 * 2 ^ (1 - exponentBias long - fractionBits long - (top - fractionBits long)).toNat : ℕ) *
          2 ^ (top - fractionBits long) := by
        rw [← scaled, scaled_align d.1 coarse, same]
      have shortened : scaled m (e - fractionBits long) = x := by
        rw [multiple] at rounds ⊢
        exact roundsTo_multiple (by positivity) rounds
      rcases differs with h | h
      · exact h shortened
      · exact h (same.trans shortened.symm)
    · by_contra agree
      rw [not_or, not_not, not_not] at agree
      exact differs (agree.2.trans agree.1)
  · dsimp only [SRes.exact]
    rw [value]
    exact rounds'

end Shortened

/-- A non-zero magnitude converted: shortened to the bits of the fraction, then by its exponent. -/
theorem packReal_spec (c : FCtl) (long sign : Bool) {x : Mag} {r : ℝ} (h : Holds x r) (h0 : x.m ≠ 0)
    (exact : x.sticky = false) :
    SignedCode long sign (packReal c long sign x) ∧
      ∃ n, Shortened c long sign r n ∧ n ≤ 2 ^ (x.top + 1) ∧ Packed c long sign r n (packReal c long sign x) := by
  obtain ⟨low, high⟩ := top_bounds h h0
  obtain ⟨lead, size, exponent, rounds, inexact⟩ := roundMant_spec h h0 c.rc (p := fractionBits long + 1) (by omega) sign
    (fun st => by rw [exact] at st; cases st)
  have shift (e : ℤ) : e + 1 - ((fractionBits long + 1 : ℕ) : ℤ) = e - fractionBits long := by push_cast; ring
  simp only [shift] at rounds inexact
  rw [Nat.add_sub_cancel] at lead
  rw [packReal_eq]
  generalize roundMant c.rc (fractionBits long + 1) sign x = t at *
  have bound := shortened_le rounds high
  have short : Shortened c long sign r (scaled t.1 (t.2.1 - fractionBits long)) := ⟨x.top, low, high, rounds⟩
  dsimp only
  split
  · rename_i large
    obtain ⟨code, packed⟩ := packed_overflow c (sign := sign) (x := r) lead size large
    exact ⟨code, _, short, bound, packed⟩
  split
  · rename_i less
    obtain ⟨code, packed⟩ := packed_underflow c lead size inexact (by omega) rounds less
    exact ⟨code, _, short, bound, packed⟩
  · rename_i small least
    obtain ⟨code, packed⟩ := packed_normal c (sign := sign) lead size inexact small least
    exact ⟨code, _, short, bound, packed⟩

/-! ### The classes (R413, R434) -/

theorem storeReal_finite (c : FCtl) (long : Bool) {v : Ext80} (h : extClass v = .normal) :
    storeReal c long v = packReal c long (extSign v) (extMag v) := by
  simp only [storeReal, h]
  rfl

/-- A denormal or an unnormal: it underflows when its leading bit lies below the least normal number. -/
theorem storeReal_unnormal (c : FCtl) (long : Bool) {v : Ext80} (h : extClass v = .denormal ∨ extClass v = .unnormal) :
    storeReal c long v = if (extMag v).top < 1 - exponentBias long then
        { packReal c long (extSign v) (extMag v) with ue := true }
      else { SRes.exact (mkReal long true (2 ^ exponentBits long - 1) (2 ^ (fractionBits long - 1))) with ie := true } := by
  rcases h with h | h <;> simp only [storeReal, h] <;> cases long <;> rfl

/-- The fraction of a NAN in the width of the format: the bits that fit, or some other when these are 0. -/
theorem nanFraction_spec {f : ℕ} (hf : 1 ≤ f) (hf' : f ≤ 63) (wild m : ℕ) :
    0 < nanFraction f wild m ∧ nanFraction f wild m < 2 ^ f ∧
      (m / 2 ^ (63 - f) % 2 ^ f ≠ 0 → nanFraction f wild m = m / 2 ^ (63 - f) % 2 ^ f) := by
  have two : 2 ^ 1 ≤ 2 ^ f := Nat.pow_le_pow_right two_pos hf
  have kept : m % 2 ^ 63 / 2 ^ (63 - f) = m / 2 ^ (63 - f) % 2 ^ f := by
    rw [← Nat.mod_mul_right_div_self, ← pow_add, show 63 - f + f = 63 by omega]
  have small : m / 2 ^ (63 - f) % 2 ^ f < 2 ^ f := Nat.mod_lt _ (by positivity)
  have free : wild % (2 ^ f - 1) < 2 ^ f - 1 := Nat.mod_lt _ (by omega)
  unfold nanFraction
  rw [kept]
  dsimp only
  split <;> omega

theorem extMag_ne_zero {v : Ext80} (h : extClass v = .normal ∨ extClass v = .denormal ∨ extClass v = .unnormal) :
    (extMag v).m ≠ 0 := by
  intro (zero : extMant v = 0)
  unfold extClass at h
  simp only [zero, if_true] at h
  split_ifs at h <;> simp at h

/-- A denormal lies far below the normal numbers of both formats. -/
theorem denormal_lt {v : Ext80} (h : extClass v = .denormal) (long : Bool) :
    (extMag v).top + 1 < 1 - exponentBias long := by
  obtain ⟨bias, -, int, -, -, -, b1023, -⟩ := Loads.format_facts long
  have low : extMant v < 2 ^ 64 := extMant_lt v
  have field : extExp v = 0 := by
    unfold extClass at h
    dsimp only at h
    split_ifs at h
    assumption
  have lead : Nat.log2 (extMant v) < 64 := (Nat.log2_lt (extMag_ne_zero (.inr (.inl h)))).mpr low
  rw [Mag.top, extMag, effExp, if_pos field]
  dsimp only
  omega

section Reals

variable (c : FCtl) (long : Bool) {v : Ext80}

theorem storeReal_number (h : extClass v = .normal ∨ extClass v = .denormal) :
    SignedCode long (extSign v) (storeReal c long v) ∧ ∃ n, Shortened c long (extSign v) (extMagnitude v) n ∧
      Packed c long (extSign v) (extMagnitude v) n (storeReal c long v) := by
  rcases h with kind | kind
  · rw [storeReal_finite c long kind]
    obtain ⟨code, n, short, -, packed⟩ := packReal_spec c long (extSign v) (holds_extMag v) (extMag_ne_zero (.inl kind)) rfl
    exact ⟨code, n, short, packed⟩
  · have far := denormal_lt kind long
    obtain ⟨bias, -, int, -, -, b1, -, -⟩ := Loads.format_facts long
    obtain ⟨code, n, short, bound, packed⟩ :=
      packReal_spec c long (extSign v) (holds_extMag v) (extMag_ne_zero (.inr (.inl kind))) rfl
    have less : n < 2 ^ (1 - exponentBias long) := bound.trans_lt (zpow_lt_zpow_right₀ one_lt_two far)
    rw [storeReal_unnormal c long (.inl kind), if_pos (by omega)]
    refine ⟨code, n, short, fun large => ?_, fun le => absurd le (not_le.mpr less), fun _ => ?_⟩
    · exact absurd (large.trans_lt less) (not_lt.mpr (zpow_le_zpow_right₀ one_le_two (by omega)))
    · obtain ⟨oe, -, pe, rounds⟩ := packed.2.2 less
      exact ⟨oe, rfl, pe, rounds⟩

/-- An unnormal below the least normal number underflows, even when it is rounded up to that number. -/
theorem storeReal_small (h : extClass v = .unnormal) (small : extMagnitude v < 2 ^ (1 - exponentBias long)) :
    SignedCode long (extSign v) (storeReal c long v) ∧ ∃ n, Shortened c long (extSign v) (extMagnitude v) n ∧
      Underflows c long (extSign v) (extMagnitude v) n (storeReal c long v) := by
  have nonzero := extMag_ne_zero (.inr (.inr h))
  obtain ⟨bias, -, int, -, -, b1, -, -⟩ := Loads.format_facts long
  obtain ⟨low, -⟩ := top_bounds (holds_extMag v) nonzero
  have below : (extMag v).top < 1 - exponentBias long :=
    (zpow_lt_zpow_iff_right₀ (one_lt_two (α := ℝ))).mp (low.trans_lt small)
  obtain ⟨code, n, short, bound, packed⟩ := packReal_spec c long (extSign v) (holds_extMag v) nonzero rfl
  rw [storeReal_unnormal c long (.inr h), if_pos below]
  refine ⟨code, n, short, ?_⟩
  by_cases less : n < 2 ^ (1 - exponentBias long)
  · obtain ⟨oe, -, pe, rounds⟩ := packed.2.2 less
    exact ⟨oe, rfl, pe, rounds⟩
  · have least : n = scaled (2 ^ fractionBits long) (1 - exponentBias long - fractionBits long) := by
      rw [scaled_two_pow, sub_add_cancel]
      exact le_antisymm (bound.trans (zpow_le_zpow_right₀ one_le_two (by omega))) (not_lt.mp less)
    obtain ⟨oe, -, value, pe⟩ := packed.2.1 (not_lt.mp less)
      ((bound.trans (zpow_le_zpow_right₀ one_le_two (by omega))).trans_lt
        (zpow_lt_zpow_right₀ one_lt_two (show 1 - exponentBias long < exponentBias long + 1 by omega)))
    refine ⟨oe, rfl, ?_, ?_⟩
    · dsimp only; rw [value]; exact pe
    · dsimp only
      rw [value, least]
      exact roundsTo_self _ _ _ (by positivity)

theorem storeReal_large (h : extClass v = .unnormal) (large : (2 : ℝ) ^ (1 - exponentBias long) ≤ extMagnitude v) :
    storeReal c long v =
      { SRes.exact (mkReal long true (2 ^ exponentBits long - 1) (2 ^ (fractionBits long - 1))) with ie := true } := by
  obtain ⟨low, high⟩ := top_bounds (holds_extMag v) (extMag_ne_zero (.inr (.inr h)))
  have above := (pow_le_iff low high _).mp large
  rw [storeReal_unnormal c long (.inr h), if_neg (by omega)]

theorem storeReal_zero (h : extClass v = .zero) : storeReal c long v = SRes.exact (mkReal long (extSign v) 0 0) := by
  simp only [storeReal, h]

theorem storeReal_infinity (h : extClass v = .infinity) :
    storeReal c long v = SRes.exact (mkReal long (extSign v) (2 ^ exponentBits long - 1) 0) := by
  simp only [storeReal, h]
  cases long <;> rfl

theorem storeReal_nan (h : extClass v = .nan) : storeReal c long v = SRes.exact
    (mkReal long (extSign v) (2 ^ exponentBits long - 1) (nanFraction (fractionBits long) c.wildN (extMant v))) := by
  simp only [storeReal, h]
  cases long <;> rfl

theorem storeReal_pseudoZero (h : extClass v = .pseudoZero) : storeReal c long v =
    if (extExp v : ℤ) - 16383 < 1 - exponentBias long then { SRes.exact (mkReal long (extSign v) 0 0) with ue := true }
    else { SRes.exact (mkReal long true (2 ^ exponentBits long - 1) (2 ^ (fractionBits long - 1))) with ie := true } := by
  simp only [storeReal, h]
  cases long <;> rfl

end Reals

/-! ### Integers and packed decimals (R402, R413) -/

/-- Only one multiple of the unit is what RC chooses. -/
theorem roundsTo_unique {rc : ℕ} {neg : Bool} {x : ℝ} {m n : ℕ} (hm : RoundsTo rc neg x 1 m) (hn : RoundsTo rc neg x 1 n) :
    m = n := by
  obtain ⟨-, choiceM⟩ := hm
  obtain ⟨-, choiceN⟩ := hn
  have one {a b : ℕ} (h : a < b) : (a : ℝ) + 1 ≤ b := by exact_mod_cast h
  have apart {a b : ℕ} (lo : (a : ℝ) < b + 1) (hi : (b : ℝ) < a + 1) : a = b := by
    by_contra ne
    rcases Nat.lt_or_gt_of_ne ne with h | h <;> linarith [one h]
  match rc with
  | 0 =>
    obtain ⟨nearM, evenM⟩ := choiceM
    obtain ⟨nearN, evenN⟩ := choiceN
    have lowM := abs_le.mp nearM
    have lowN := abs_le.mp nearN
    by_contra ne
    have tie : |(m : ℝ) - x| = 1 / 2 ∧ |(n : ℝ) - x| = 1 / 2 := by
      rcases Nat.lt_or_gt_of_ne ne with h | h
      · have := one h
        exact ⟨by rw [abs_of_nonpos] <;> linarith, by rw [abs_of_nonneg] <;> linarith⟩
      · have := one h
        exact ⟨by rw [abs_of_nonneg] <;> linarith, by rw [abs_of_nonpos] <;> linarith⟩
    obtain ⟨j, hj⟩ := evenM tie.1
    obtain ⟨k, hk⟩ := evenN tie.2
    rw [mul_one] at hj hk
    have hj' : m = 2 * j := by exact_mod_cast hj
    have hk' : n = 2 * k := by exact_mod_cast hk
    have close : m < n + 2 ∧ n < m + 2 :=
      ⟨by exact_mod_cast (by linarith : (m : ℝ) < n + 2), by exact_mod_cast (by linarith : (n : ℝ) < m + 2)⟩
    omega
  | 1 => cases neg <;> simp only [Bool.false_eq_true, if_false, if_true] at choiceM choiceN <;>
    exact apart (by linarith) (by linarith)
  | 2 => cases neg <;> simp only [Bool.false_eq_true, if_false, if_true] at choiceM choiceN <;>
    exact apart (by linarith) (by linarith)
  | k + 3 => exact apart (by linarith [choiceM.1, choiceN.2]) (by linarith [choiceM.2, choiceN.1])

theorem roundedMagnitude_of_roundsTo (rc : ℕ) {v : Ext80} {n : ℕ} (h : RoundsTo rc (extSign v) (extMagnitude v) 1 n) :
    (roundedMagnitude rc v).1 = n ∧ ((roundedMagnitude rc v).2 = true ↔ (n : ℝ) ≠ extMagnitude v) := by
  obtain ⟨rounds, inexact⟩ := round_spec (holds_extMag v) (q := 0) (fun st => by cases st) rc (extSign v)
  rw [← roundedMagnitude_eq, scaled, zpow_zero, mul_one] at rounds inexact
  rw [roundsTo_unique rounds h] at inexact
  exact ⟨roundsTo_unique rounds h, inexact⟩

/-- A number of at most `bits - 1` bits, with its sign, as a two's complement integer. -/
theorem signedBits_signed {bits n : ℕ} (hb : 1 ≤ bits) (hn : n < 2 ^ (bits - 1)) (neg : Bool) :
    let w := if neg && n != 0 then 2 ^ bits - n else n
    w < 2 ^ bits ∧ signedBits bits w = if neg = true then -(n : ℤ) else n := by
  have double : 2 ^ bits = 2 * 2 ^ (bits - 1) := by rw [← pow_succ']; congr 1; omega
  unfold signedBits
  rw [double]
  generalize 2 ^ (bits - 1) = half at *
  by_cases zero : n = 0
  · cases neg <;> simp [zero] <;> omega
  · cases neg <;> simp [zero] <;> omega

theorem storeInt_rounded (c : FCtl) {v : Ext80} (plain : Plain v) {n bits : ℕ} (hb : 1 ≤ bits)
    (rounds : RoundsTo c.rc (extSign v) (extMagnitude v) 1 n) :
    let r := storeInt c bits v
    if n < 2 ^ (bits - 1) then
      (r.ie = false ∧ r.oe = false ∧ r.ue = false) ∧ (r.pe = true ↔ (n : ℝ) ≠ extMagnitude v) ∧ r.val < 2 ^ bits ∧
        signedBits bits r.val = if extSign v = true then -(n : ℤ) else n
    else r.ie = true ∧ r.val = 2 ^ (bits - 1) := by
  obtain ⟨value, inexact⟩ := roundedMagnitude_of_roundsTo c.rc rounds
  by_cases held : n < 2 ^ (bits - 1)
  · obtain ⟨size, back⟩ := signedBits_signed hb held (extSign v)
    rw [storeInt_held c plain (by rwa [value])]
    dsimp only
    rw [if_pos held, value]
    exact ⟨⟨rfl, rfl, rfl⟩, inexact, size, back⟩
  · have indefinite : storeInt c bits v = { SRes.exact (2 ^ (bits - 1)) with ie := true } := by
      rcases plain with kind | kind <;> simp only [storeInt, kind, value, if_neg held]
    rw [indefinite]
    dsimp only
    rw [if_neg held]
    exact ⟨rfl, rfl⟩

/-- The digits of a number, four bits each. -/
theorem digitsOf_spec (k v : ℕ) : digitsOf k v < 16 ^ k ∧ (∀ i, i < k → digitsOf k v / 16 ^ i % 16 = v / 10 ^ i % 10) := by
  induction k generalizing v with
  | zero => exact ⟨by norm_num [digitsOf], fun i hi => absurd hi (by omega)⟩
  | succ k ih =>
    obtain ⟨size, digits⟩ := ih (v / 10)
    refine ⟨by rw [digitsOf, pow_succ]; omega, fun i hi => ?_⟩
    cases i with
    | zero => rw [digitsOf, pow_zero, Nat.div_one, pow_zero, Nat.div_one]; omega
    | succ i =>
      rw [digitsOf, pow_succ', ← Nat.div_div_eq_div_mul, Nat.add_mul_div_left _ _ (by norm_num),
        Nat.div_eq_of_lt (show v % 10 < 16 by omega), Nat.zero_add, digits i (by omega), pow_succ' 10,
        Nat.div_div_eq_div_mul]

/-- A number below a power of ten is the sum of its digits. -/
theorem sum_digits (k : ℕ) {v : ℕ} (h : v < 10 ^ k) : ((List.range k).map fun i => v / 10 ^ i % 10 * 10 ^ i).sum = v := by
  induction k generalizing v with
  | zero => rw [pow_zero] at h; simp; omega
  | succ k ih =>
    have rest := ih (v := v / 10) (by rw [pow_succ] at h; omega)
    rw [List.sum_range_succ']
    simp only [pow_succ' 10, ← Nat.div_div_eq_div_mul, pow_zero, Nat.div_one, mul_one]
    simp only [mul_left_comm _ 10, List.sum_map_mul_left, rest]
    omega

theorem storeBcd_rounded (c : FCtl) {v : Ext80} (plain : Plain v) {n : ℕ}
    (rounds : RoundsTo c.rc (extSign v) (extMagnitude v) 1 n) :
    let r := storeBcd c v
    if n < 10 ^ 18 then
      (r.ie = false ∧ r.oe = false ∧ r.ue = false) ∧ r.pe = false ∧ decimalValue r.val = n ∧
        (∀ i, i < 18 → r.val / 16 ^ i % 16 ≤ 9) ∧ r.val / 2 ^ 72 = if extSign v = true then 2 ^ 7 else 0
    else r.ie = true ∧ r.val = 2 ^ 80 - 1 := by
  obtain ⟨value, -⟩ := roundedMagnitude_of_roundsTo c.rc rounds
  have converted : storeBcd c v = if n < 10 ^ 18 then SRes.exact (bitNat (extSign v) * 2 ^ 79 + digitsOf 18 n)
      else { SRes.exact bcdIndefinite with ie := true } := by
    rcases plain with kind | kind <;> simp only [storeBcd, kind, value]
  rw [converted]
  dsimp only
  split
  · rename_i held
    obtain ⟨size, digits⟩ := digitsOf_spec 18 n
    have digit (i : ℕ) (hi : i < 18) : (bitNat (extSign v) * 2 ^ 79 + digitsOf 18 n) / 16 ^ i % 16 = n / 10 ^ i % 10 := by
      rw [← digits i hi, show 2 ^ 79 = 16 ^ i * (16 ^ (18 - i) * 2 ^ 7) by
        rw [← mul_assoc, ← pow_add, show i + (18 - i) = 18 by omega]; norm_num]
      rw [mul_left_comm, Nat.mul_add_div (by positivity), show 18 - i = 17 - i + 1 by omega, pow_succ',
        mul_assoc, mul_left_comm _ 16, Nat.mul_add_mod]
    refine ⟨⟨rfl, rfl, rfl⟩, rfl, ?_, fun i hi => ?_, ?_⟩
    · dsimp only [SRes.exact]
      rw [decimalValue, List.map_congr_left (g := fun i => n / 10 ^ i % 10 * 10 ^ i) fun i hi => by
        rw [digit i (List.mem_range.mp hi)]]
      exact sum_digits 18 held
    · dsimp only [SRes.exact]
      rw [digit i hi]
      omega
    · dsimp only [SRes.exact]
      cases extSign v <;> simp [bitNat] <;> omega
  · exact ⟨rfl, rfl⟩

/-- Settles O43: the conversions by class, and each instruction is an ESC that stores what its conversion gives. -/
theorem coprocessorStores : Obligations.CoprocessorStores := by
  refine ⟨fun c long v => ?_, fun c v n kind rounds => ?_, fun s m ready => ?_⟩
  · obtain ⟨-, -, -, f1, f52, -⟩ := Loads.format_facts long
    dsimp only
    rw [← mkReal_eq long true]
    simp only [← mkReal_eq long (extSign v)]
    refine ⟨storeReal_number c long, storeReal_zero c long, storeReal_infinity c long, fun kind => ?_,
      fun kind => ⟨storeReal_large c long kind, storeReal_small c long kind⟩, storeReal_pseudoZero c long⟩
    obtain ⟨pos, size, kept⟩ := nanFraction_spec f1 (by omega) c.wildN (extMant v)
    exact ⟨_, storeReal_nan c long kind, pos, size, kept⟩
  · have plain : Plain v := kind.symm
    refine ⟨fun bits hb => storeInt_rounded c plain (by omega) rounds, storeBcd_rounded c plain rounds⟩
  · refine ⟨storesResult_of_fpuStore ready 3 7 10 1 true (fun _ x => SRes.exact x.toNat) rfl (.inl rfl) rfl,
      fun good => ⟨?_, ?_, ?_, ?_, ?_,
      ?_, ?_, ?_, ?_, ?_⟩⟩
    · exact storesResult_of_fpuStore ready 1 2 4 0 false (fun c => storeReal c false) rfl (.inr good) rfl
    · exact storesResult_of_fpuStore ready 5 2 8 0 false (fun c => storeReal c true) rfl (.inr good) rfl
    · exact storesResult_of_fpuStore ready 7 2 2 0 false (fun c => storeInt c 16) rfl (.inr good) rfl
    · exact storesResult_of_fpuStore ready 3 2 4 0 false (fun c => storeInt c 32) rfl (.inr good) rfl
    · exact storesResult_of_fpuStore ready 1 3 4 1 false (fun c => storeReal c false) rfl (.inr good) rfl
    · exact storesResult_of_fpuStore ready 5 3 8 1 false (fun c => storeReal c true) rfl (.inr good) rfl
    · exact storesResult_of_fpuStore ready 7 3 2 1 false (fun c => storeInt c 16) rfl (.inr good) rfl
    · exact storesResult_of_fpuStore ready 3 3 4 1 false (fun c => storeInt c 32) rfl (.inr good) rfl
    · exact storesResult_of_fpuStore ready 7 7 8 1 false (fun c => storeInt c 64) rfl (.inr good) rfl
    · exact storesResult_of_fpuStore ready 7 6 10 1 false storeBcd rfl (.inr good) rfl

end Sys2Proof.Certificates.Stores

/-! SUPPORT. Fixed-point numbers with 256 fraction bits: how far a product, a quotient, a square root and a power series
lie from the real number they stand for, in units of the last place (46_vm87_numerics.md R412, U12). -/

namespace Sys2Proof.Certificates.FixedPoint

open Sys2Proof.Machine Sys2Proof.Certificates.Numbers

/-! ### Near a real number -/

/-- `n` is the fixed-point number `r`, up to `e` units of the last place. -/
def Near (n : ℕ) (r e : ℝ) : Prop := |(n : ℝ) - r * fixOne| ≤ e

theorem fixOne_pos : (0 : ℝ) < fixOne := by unfold fixOne; positivity

theorem fixOne_cast : (fixOne : ℝ) = 2 ^ 256 := by unfold fixOne; norm_num

theorem Near.mono {n : ℕ} {r e f : ℝ} (h : Near n r e) (le : e ≤ f) : Near n r f := h.trans le

theorem near_fixOne : Near fixOne 1 0 := by rw [Near, one_mul, sub_self, abs_zero]

/-- A number cut off to a whole number of units. -/
theorem near_floor {n : ℕ} {r : ℝ} (low : (n : ℝ) ≤ r * fixOne) (high : r * fixOne < n + 1) : Near n r 1 := by
  rw [Near, abs_le]
  exact ⟨by linarith, by linarith⟩

/-- A number that is cut off is nowhere more than one unit below. -/
theorem near_of_floor {n : ℕ} {x r e : ℝ} (low : (n : ℝ) ≤ x) (high : x < n + 1) (h : |x - r * fixOne| ≤ e) :
    Near n r (e + 1) := by
  rw [Near]
  have cut : |(n : ℝ) - x| ≤ 1 := abs_le.mpr ⟨by linarith, by linarith⟩
  calc |(n : ℝ) - r * fixOne| = |(n - x) + (x - r * fixOne)| := by ring_nf
    _ ≤ |(n : ℝ) - x| + |x - r * fixOne| := abs_add_le _ _
    _ ≤ e + 1 := by linarith

theorem div_floor (a : ℕ) {b : ℕ} (hb : 0 < b) : ((a / b : ℕ) : ℝ) ≤ a / b ∧ (a : ℝ) / b < (a / b : ℕ) + 1 := by
  refine ⟨Nat.cast_div_le, ?_⟩
  rw [div_lt_iff₀ (by exact_mod_cast hb)]
  exact_mod_cast Nat.lt_mul_of_div_lt (Nat.lt_succ_self (a / b)) hb

/-- What a near number is bounded by. -/
theorem Near.le {n : ℕ} {r e b : ℝ} (h : Near n r e) (hr : r ≤ b) (small : e ≤ fixOne) : (n : ℝ) / fixOne ≤ b + 1 := by
  rw [div_le_iff₀ fixOne_pos]
  have := (abs_le.mp h).2
  have := mul_le_mul_of_nonneg_right hr fixOne_pos.le
  linarith

/-! ### Sums, products and quotients -/

theorem Near.add {m n : ℕ} {r s e f : ℝ} (h : Near m r e) (g : Near n s f) : Near (m + n) (r + s) (e + f) := by
  rw [Near, Nat.cast_add]
  calc |(m : ℝ) + n - (r + s) * fixOne| = |(m - r * fixOne) + (n - s * fixOne)| := by ring_nf
    _ ≤ e + f := (abs_add_le _ _).trans (add_le_add h g)

theorem Near.sub {m n : ℕ} {r s e f : ℝ} (h : Near m r e) (g : Near n s f) (le : n ≤ m) : Near (m - n) (r - s) (e + f) := by
  rw [Near, Nat.cast_sub le]
  calc |(m : ℝ) - n - (r - s) * fixOne| = |(m - r * fixOne) + -(n - s * fixOne)| := by ring_nf
    _ ≤ e + f := (abs_add_le _ _).trans (add_le_add h ((abs_neg _).trans_le g))

theorem Near.smul {n : ℕ} {r e : ℝ} (h : Near n r e) (k : ℕ) : Near (k * n) (k * r) (k * e) := by
  rw [Near, Nat.cast_mul]
  calc |(k : ℝ) * n - k * r * fixOne| = |(k : ℝ) * (n - r * fixOne)| := by ring_nf
    _ = k * |(n : ℝ) - r * fixOne| := by rw [abs_mul, Nat.abs_cast]
    _ ≤ k * e := mul_le_mul_of_nonneg_left h (Nat.cast_nonneg k)

/-- A product, the first factor at most `b` in fixed point, the second one at most `s` in size. -/
theorem Near.mul {m n : ℕ} {r t e f b s : ℝ} (h : Near m r e) (g : Near n t f) (hb : (m : ℝ) / fixOne ≤ b)
    (hs : |t| ≤ s) : Near (fixMul m n) (r * t) (b * f + s * e + 1) := by
  obtain ⟨low, high⟩ := div_floor (m * n) (b := fixOne) (by unfold fixOne; positivity)
  refine near_of_floor low high ?_
  have split : ((m * n : ℕ) : ℝ) / fixOne - r * t * fixOne =
      m / fixOne * (n - t * fixOne) + t * (m - r * fixOne) := by
    have := fixOne_pos.ne'
    push_cast
    field_simp
    ring
  have nonneg : (0 : ℝ) ≤ m / fixOne := by positivity
  rw [split]
  calc |(m : ℝ) / fixOne * (n - t * fixOne) + t * (m - r * fixOne)|
      ≤ |(m : ℝ) / fixOne * (n - t * fixOne)| + |t * (m - r * fixOne)| := abs_add_le _ _
    _ = m / fixOne * |(n : ℝ) - t * fixOne| + |t| * |(m : ℝ) - r * fixOne| := by
        rw [abs_mul, abs_mul, abs_of_nonneg nonneg]
    _ ≤ b * f + s * e := by
        refine add_le_add (mul_le_mul hb g (abs_nonneg _) (nonneg.trans hb)) ?_
        exact mul_le_mul hs h (abs_nonneg _) ((abs_nonneg t).trans hs)

/-- A quotient, by a divisor of at least one half. -/
theorem Near.div {m n : ℕ} {r t e f q : ℝ} (h : Near m r e) (g : Near n t f) (ht : 0 < t) (half : fixOne ≤ 2 * n)
    (hq : |r| / t ≤ q) : Near (fixDiv m n) (r / t) (2 * e + 2 * q * f + 1) := by
  have pos : 0 < n := by
    by_contra zero
    have : 0 < fixOne := by unfold fixOne; positivity
    omega
  have pos' : (0 : ℝ) < n := by exact_mod_cast pos
  obtain ⟨low, high⟩ := div_floor (m * fixOne) pos
  refine near_of_floor low high ?_
  have split : ((m * fixOne : ℕ) : ℝ) / n - r / t * fixOne =
      fixOne / n * ((m - r * fixOne) - r / t * (n - t * fixOne)) := by
    push_cast
    field_simp
    ring
  have twice : (fixOne : ℝ) / n ≤ 2 := by
    rw [div_le_iff₀ pos']
    exact_mod_cast half
  have ratio : |r / t| ≤ q := by rwa [abs_div, abs_of_pos ht]
  rw [split, abs_mul, abs_of_pos (div_pos fixOne_pos pos')]
  calc (fixOne : ℝ) / n * |(m - r * fixOne) - r / t * (n - t * fixOne)|
      ≤ 2 * (e + q * f) := by
        refine mul_le_mul twice ?_ (abs_nonneg _) two_pos.le
        refine (abs_sub _ _).trans (add_le_add h ?_)
        rw [abs_mul]
        exact mul_le_mul ratio g (abs_nonneg _) ((abs_nonneg _).trans ratio)
    _ = 2 * e + 2 * q * f := by ring

/-! ### Square roots -/

/-- The root built from bit `k` downwards is the integer square root. -/
theorem isqrtFrom_spec (k n r : ℕ) (low : r * r ≤ n) (high : n < (r + 2 ^ k) * (r + 2 ^ k)) :
    isqrtFrom k n r * isqrtFrom k n r ≤ n ∧ n < (isqrtFrom k n r + 1) * (isqrtFrom k n r + 1) := by
  induction k generalizing r with
  | zero => exact ⟨low, by simpa [isqrtFrom] using high⟩
  | succ k ih =>
    rw [isqrtFrom]
    split
    · rename_i le
      exact ih _ le (by rwa [add_assoc, ← two_mul, ← pow_succ'])
    · rename_i less
      exact ih _ low (by omega)

theorem isqrtFrom_sqrt (k n : ℕ) (high : n < 2 ^ (2 * k)) :
    (isqrtFrom k n 0 : ℝ) ≤ Real.sqrt n ∧ Real.sqrt n < isqrtFrom k n 0 + 1 := by
  obtain ⟨low, up⟩ := isqrtFrom_spec k n 0 (Nat.zero_le n) (by rw [Nat.zero_add, ← pow_add, ← two_mul]; exact high)
  generalize isqrtFrom k n 0 = q at *
  refine ⟨Real.le_sqrt_of_sq_le ?_, (Real.sqrt_lt' (by positivity)).mpr ?_⟩
  · rw [sq]; exact_mod_cast low
  · rw [sq]; exact_mod_cast up

theorem mul_pow_lt {n b : ℕ} (h : n < 4 * 2 ^ b) : n * 2 ^ b < 2 ^ (2 * (b + 4)) := by
  have unit : 0 < 2 ^ b := by positivity
  calc n * 2 ^ b < 4 * 2 ^ b * 2 ^ b := Nat.mul_lt_mul_of_pos_right h unit
    _ = 2 ^ (2 * (b + 1)) := by ring
    _ ≤ 2 ^ (2 * (b + 4)) := Nat.pow_le_pow_right two_pos (by omega)

/-- The root of a number from 1 to 4. -/
theorem Near.sqrt {n : ℕ} {r e : ℝ} (h : Near n r e) (hr : 1 ≤ r) (one : fixOne ≤ n) (four : n < 4 * fixOne) :
    Near (fixSqrt n) (Real.sqrt r) (e + 1) := by
  obtain ⟨low, high⟩ := isqrtFrom_sqrt (256 + 4) (n * fixOne) (mul_pow_lt (b := 256) four)
  refine near_of_floor low high ?_
  have unit := fixOne_pos
  have one' : (fixOne : ℝ) ≤ n := by exact_mod_cast one
  have root : (fixOne : ℝ) ≤ Real.sqrt ((n * fixOne : ℕ) : ℝ) := by
    refine Real.le_sqrt_of_sq_le ?_
    push_cast
    rw [sq]
    exact mul_le_mul_of_nonneg_right one' unit.le
  have root' : (fixOne : ℝ) ≤ Real.sqrt r * fixOne := le_mul_of_one_le_left unit.le (Real.one_le_sqrt.mpr hr)
  have squares : (Real.sqrt ((n * fixOne : ℕ) : ℝ) - Real.sqrt r * fixOne) *
      (Real.sqrt ((n * fixOne : ℕ) : ℝ) + Real.sqrt r * fixOne) = (n - r * fixOne) * fixOne := by
    have a := Real.mul_self_sqrt (Nat.cast_nonneg (α := ℝ) (n * fixOne))
    have b := Real.mul_self_sqrt (zero_le_one.trans hr)
    push_cast at a ⊢
    linear_combination a - fixOne ^ 2 * b
  have product := congrArg abs squares
  rw [abs_mul, abs_mul, abs_of_pos unit, abs_of_pos (show (0 : ℝ) < Real.sqrt ((n * fixOne : ℕ) : ℝ) +
    Real.sqrt r * fixOne by linarith)] at product
  refine le_trans ?_ h
  refine le_of_mul_le_mul_right ?_ unit
  rw [← product]
  exact mul_le_mul_of_nonneg_left (by linarith) (abs_nonneg _)

/-! ### A magnitude in fixed point -/

/-- A magnitude cut off to a whole number of units. -/
theorem fix_floor (m : ℕ) (e : ℤ) (sticky : Bool) :
    (({ m := m, e := e, sticky := sticky } : Mag).fix : ℝ) ≤ scaled m e * fixOne ∧
      scaled m e * fixOne < (({ m := m, e := e, sticky := sticky } : Mag).fix : ℝ) + 1 := by
  have value : scaled m e * fixOne = (m : ℝ) * 2 ^ (e + 256) := by
    rw [scaled, fixOne_cast, mul_assoc, zpow_add₀ two_ne_zero]
    norm_num
  unfold Mag.fix
  dsimp only
  rw [value]
  split
  · rename_i whole
    have power : (2 : ℝ) ^ (e + 256) = ((2 ^ (e + 256).toNat : ℕ) : ℝ) := by
      rw [Nat.cast_pow, ← zpow_natCast, Int.toNat_of_nonneg whole]; rfl
    rw [power, ← Nat.cast_mul]
    exact ⟨le_rfl, lt_add_one _⟩
  · rename_i part
    have power : (2 : ℝ) ^ (e + 256) = ((2 ^ (-(e + 256)).toNat : ℕ) : ℝ)⁻¹ := by
      rw [Nat.cast_pow, ← zpow_natCast, Int.toNat_of_nonneg (by omega), zpow_neg, inv_inv]; rfl
    rw [power, ← div_eq_mul_inv]
    exact div_floor m (by positivity)

theorem near_fix (m : ℕ) (e : ℤ) (sticky : Bool) : Near ({ m := m, e := e, sticky := sticky } : Mag).fix (scaled m e) 1 :=
  near_floor (fix_floor m e sticky).1 (fix_floor m e sticky).2

/-! ### Power series -/

/-- The sign of the terms of a series. -/
def termSign (alt : Bool) : ℝ := if alt = true then -1 else 1

/-- The terms `k` to `k + n` of a power series, divided by `x ^ k`. -/
noncomputable def partialSum (alt : Bool) (d : ℕ → ℕ) (x : ℝ) (k n : ℕ) : ℝ :=
  ∑ j ∈ Finset.range (n + 1), (termSign alt * x) ^ j / d (k + j)

theorem partialSum_zero (alt : Bool) (d : ℕ → ℕ) (x : ℝ) (k : ℕ) : partialSum alt d x k 0 = 1 / d k := by
  simp [partialSum]

theorem partialSum_succ (alt : Bool) (d : ℕ → ℕ) (x : ℝ) (k n : ℕ) :
    partialSum alt d x k (n + 1) = 1 / d k + termSign alt * (x * partialSum alt d x (k + 1) n) := by
  rw [partialSum, Finset.sum_range_succ', partialSum, Finset.mul_sum, Finset.mul_sum, add_comm, pow_zero, Nat.add_zero]
  congr 1
  refine Finset.sum_congr rfl fun j _ => ?_
  rw [show k + (j + 1) = k + 1 + j by omega, pow_succ]
  ring

theorem abs_termSign_mul_pow (alt : Bool) {x : ℝ} (hx : 0 ≤ x) (j : ℕ) : |(termSign alt * x) ^ j| = x ^ j := by
  have sign : |termSign alt| = 1 := by cases alt <;> simp [termSign]
  rw [abs_pow, abs_mul, sign, one_mul, abs_of_nonneg hx]

section Series

variable {alt : Bool} {d : ℕ → ℕ} {u : ℕ} {x e : ℝ} (positive : ∀ k, 1 ≤ d k) (near : Near u x e) (hx : 0 ≤ x)
  (hx' : x ≤ 5 / 8)

include positive hx hx'

theorem abs_partialSum_le (k n : ℕ) : |partialSum alt d x k n| ≤ 3 := by
  have bound : ∀ j ∈ Finset.range (n + 1), |(termSign alt * x) ^ j / d (k + j)| ≤ (5 / 8 : ℝ) ^ j := by
    intro j _
    have one : (1 : ℝ) ≤ d (k + j) := by exact_mod_cast positive (k + j)
    rw [abs_div, abs_termSign_mul_pow alt hx, Nat.abs_cast]
    exact (div_le_self (by positivity) one).trans (pow_le_pow_left₀ hx hx' j)
  refine (Finset.abs_sum_le_sum_abs _ _).trans ((Finset.sum_le_sum bound).trans ?_)
  rw [geom_sum_eq (by norm_num)]
  have : (0 : ℝ) ≤ (5 / 8) ^ (n + 1) := by positivity
  rw [div_le_iff_of_neg (by norm_num)]
  linarith

omit hx hx' in
theorem near_coefficient (k : ℕ) : Near (fixOne / d k) (1 / d k) 1 := by
  obtain ⟨low, high⟩ := div_floor fixOne (show 0 < d k from positive k)
  refine near_floor ?_ ?_ <;> rw [one_div_mul_eq_div] <;> assumption

omit positive hx hx' in
theorem series_alt_le (k n : ℕ) : series true d u k n ≤ fixOne / d k := by
  cases n with
  | zero => exact le_rfl
  | succ n => exact Nat.sub_le _ _

include near

/-- Each term adds the error of `x` and two cuts. -/
theorem near_series (mono : Monotone d) (hu : u ≤ fixOne) (he : 0 ≤ e) (k n : ℕ) :
    Near (series alt d u k n) (partialSum alt d x k n) ((n + 1) * (3 * e + 2)) := by
  induction n generalizing k with
  | zero =>
    rw [partialSum_zero]
    exact (near_coefficient positive k).mono (by norm_num; linarith)
  | succ n ih =>
    have unit : (u : ℝ) / fixOne ≤ 1 := by
      rw [div_le_one fixOne_pos]; exact_mod_cast hu
    have product := near.mul (ih (k + 1)) unit (abs_partialSum_le (alt := alt) positive hx hx' (k + 1) n)
    have first := near_coefficient positive k
    rw [partialSum_succ, series]
    cases alt with
    | false =>
      rw [if_neg Bool.false_ne_true, termSign, if_neg Bool.false_ne_true, one_mul]
      exact (first.add product).mono (by push_cast; linarith)
    | true =>
      have less : fixMul u (series true d u (k + 1) n) ≤ fixOne / d k := by
        calc fixMul u (series true d u (k + 1) n) ≤ fixOne * series true d u (k + 1) n / fixOne :=
              Nat.div_le_div_right (Nat.mul_le_mul_right _ hu)
          _ = series true d u (k + 1) n := Nat.mul_div_cancel_left _ (by unfold fixOne; positivity)
          _ ≤ fixOne / d (k + 1) := series_alt_le (k + 1) n
          _ ≤ fixOne / d k := Nat.div_le_div_left (mono (Nat.le_succ k)) (positive k)
      rw [if_pos rfl, termSign, if_pos rfl, neg_one_mul, ← sub_eq_add_neg]
      exact (first.sub product less).mono (by push_cast; linarith)

/-- The series as the model cuts it off, against the sum of the whole series, whose terms fall by a factor `q`. -/
theorem near_sum (mono : Monotone d) (hu : u ≤ fixOne) (he : 0 ≤ e) {g q : ℝ} (hq : q < 1)
    (sum : HasSum (fun j => (termSign alt * x) ^ j / d j) g) (falling : ∀ j, x ^ j / d j ≤ q ^ j) :
    Near (series alt d u 0 seriesLength) g
      ((seriesLength + 1) * (3 * e + 2) + q ^ (seriesLength + 1) / (1 - q) * fixOne) := by
  have close := near_series (alt := alt) positive near hx hx' mono hu he 0 seriesLength
  have tail := norm_sub_le_of_geometric_bound_of_hasSum (C := 1) hq (fun j => by
    rw [Real.norm_eq_abs, abs_div, abs_termSign_mul_pow alt hx, Nat.abs_cast, one_mul]; exact falling j) sum
    (seriesLength + 1)
  have head : ∑ j ∈ Finset.range (seriesLength + 1),
    (termSign alt * x) ^ j / (d j : ℝ) = partialSum alt d x 0 seriesLength := by
    simp only [partialSum, Nat.zero_add]
  rw [head, Real.norm_eq_abs, one_mul] at tail
  have unit := fixOne_pos
  have parts : (series alt d u 0 seriesLength : ℝ) - g * fixOne =
      (series alt d u 0 seriesLength - partialSum alt d x 0 seriesLength * fixOne) +
        (partialSum alt d x 0 seriesLength - g) * fixOne := by ring
  rw [Near, parts]
  refine (abs_add_le _ _).trans ?_
  rw [abs_mul, abs_of_pos unit]
  exact add_le_add close (mul_le_mul_of_nonneg_right tail unit.le)

/-- A series whose terms fall by a factor of 3. -/
theorem near_sum_third (mono : Monotone d) (hu : u ≤ fixOne) (he : 0 ≤ e) (he' : e ≤ 2 ^ 160) {g : ℝ}
    (sum : HasSum (fun j => (termSign alt * x) ^ j / d j) g) (falling : ∀ j, x ^ j / d j ≤ (1 / 3) ^ j) :
    Near (series alt d u 0 seriesLength) g (2 ^ 180) := by
  refine (near_sum positive near hx hx' mono hu he (by norm_num) sum falling).mono ?_
  rw [fixOne_cast, seriesLength]
  norm_num
  linarith

end Series

/-- The terms of a series whose coefficients grow by a factor `c`. -/
theorem falling_of_growth {d : ℕ → ℕ} {c : ℕ} {x : ℝ} (hx : 0 ≤ x) (hc : 0 < c) (small : x ≤ c / 3)
    (growth : ∀ j, c ^ j ≤ d j)
    (j : ℕ) : x ^ j / d j ≤ (1 / 3) ^ j := by
  have pos : (0 : ℝ) < c := by exact_mod_cast hc
  have grown : (c : ℝ) ^ j ≤ d j := by exact_mod_cast growth j
  have power : (0 : ℝ) < (c : ℝ) ^ j := by positivity
  calc x ^ j / d j ≤ x ^ j / (c : ℝ) ^ j := div_le_div_of_nonneg_left (by positivity) power grown
    _ = (x / c) ^ j := (div_pow x _ j).symm
    _ ≤ (1 / 3) ^ j := by
        refine pow_le_pow_left₀ (by positivity) ?_ j
        rw [div_le_iff₀ pos]
        linarith

/-! ### Bounds of near numbers -/

theorem fixOne_ge : (2 : ℝ) ^ 256 ≤ fixOne := fixOne_cast.ge

/-- A number near one below 1 is at most 1 in fixed point. -/
theorem Near.le_fixOne {n : ℕ} {r e : ℝ} (h : Near n r e) (hr : r ≤ 63 / 64) (he : e ≤ 2 ^ 250) : n ≤ fixOne := by
  have high := (abs_le.mp h).2
  have unit := fixOne_pos
  have part := mul_le_mul_of_nonneg_right hr unit.le
  have size : (n : ℝ) ≤ fixOne := by
    have := fixOne_cast
    norm_num at this he
    linarith
  exact_mod_cast size

/-- A number near one above a half is at least a half in fixed point. -/
theorem Near.half_le {n : ℕ} {r e : ℝ} (h : Near n r e) (hr : 33 / 64 ≤ r) (he : e ≤ 2 ^ 250) : fixOne ≤ 2 * n := by
  have low := (abs_le.mp h).1
  have unit := fixOne_pos
  have part := mul_le_mul_of_nonneg_right hr unit.le
  have size : (fixOne : ℝ) ≤ 2 * n := by
    have := fixOne_cast
    norm_num at this he
    linarith
  exact_mod_cast size

/-- A product of numbers of at most 1. -/
theorem Near.mul_small {m n : ℕ} {r t e f : ℝ} (h : Near m r e) (g : Near n t f) (hr : r ≤ 1) (ht : |t| ≤ 1)
    (he : e ≤ 2 ^ 250) : Near (fixMul m n) (r * t) (2 * f + e + 1) := by
  have unit : e ≤ fixOne := he.trans ((by norm_num : (2 : ℝ) ^ 250 ≤ 2 ^ 256).trans fixOne_ge)
  exact (h.mul g (h.le hr unit) ht).mono (by linarith)

end Sys2Proof.Certificates.FixedPoint

/-! SUPPORT. The five functions of the transcendental instructions in fixed point: each factor that the model computes lies
near the real function it stands for (46_vm87_numerics.md U12; 47_vm87_instructions.md R518-R522). -/

namespace Sys2Proof.Certificates.Factors

open Sys2Proof.Machine Sys2Proof.Certificates.Numbers Sys2Proof.Certificates.FixedPoint

/-! ### The power series -/

theorem factorial_eq (n : ℕ) : Machine.factorial n = n.factorial := by
  induction n with
  | zero => rfl
  | succ n ih => rw [Machine.factorial, ih, Nat.factorial_succ]

theorem two_pow_le_factorial (n : ℕ) : 2 ^ n ≤ (n + 1).factorial := by
  induction n with
  | zero => exact le_rfl
  | succ n ih =>
    rw [pow_succ, Nat.factorial_succ, mul_comm]
    exact Nat.mul_le_mul (by omega) ih

theorem two_pow_le_factorial_double (n : ℕ) : 2 ^ n ≤ (2 * n).factorial := by
  cases n with
  | zero => exact le_rfl
  | succ n => exact (Nat.pow_le_pow_right two_pos (by omega)).trans (two_pow_le_factorial (2 * n + 1))

/-- `(e^t - 1) / t` as a power series. -/
theorem hasSum_exp {t : ℝ} (ht : t ≠ 0) :
    HasSum (fun j => (termSign false * t) ^ j / ((j + 1).factorial : ℝ)) ((Real.exp t - 1) / t) := by
  have sum := (NormedSpace.expSeries_div_hasSum_exp t)
  rw [← Real.exp_eq_exp_ℝ] at sum
  have shifted := ((hasSum_nat_add_iff' 1).mpr sum).div_const t
  rw [Finset.sum_range_one, pow_zero, Nat.factorial_zero, Nat.cast_one, div_one] at shifted
  refine shifted.congr_fun fun j => ?_
  rw [termSign, if_neg Bool.false_ne_true, one_mul, pow_succ]
  field_simp

/-- `sin t / t` as a power series in the square of `t`. -/
theorem hasSum_sin {t : ℝ} (ht : t ≠ 0) :
    HasSum (fun j => (termSign true * (t * t)) ^ j / ((2 * j + 1).factorial : ℝ)) (Real.sin t / t) := by
  refine ((Real.hasSum_sin t).div_const t).congr_fun fun j => ?_
  rw [termSign, if_pos rfl, pow_succ, pow_mul, mul_pow, sq]
  field_simp

theorem hasSum_cos (t : ℝ) :
    HasSum (fun j => (termSign true * (t * t)) ^ j / ((2 * j).factorial : ℝ)) (Real.cos t) := by
  refine (Real.hasSum_cos t).congr_fun fun j => ?_
  rw [termSign, if_pos rfl, pow_mul, mul_pow, sq]

/-- `arctg t / t` as a power series in the square of `t`. -/
theorem hasSum_arctan {t : ℝ} (ht : t ≠ 0) (small : |t| < 1) :
    HasSum (fun j => (termSign true * (t * t)) ^ j / ((2 * j + 1 : ℕ) : ℝ)) (Real.arctan t / t) := by
  refine ((Real.hasSum_arctan (x := t) small).div_const t).congr_fun fun j => ?_
  rw [termSign, if_pos rfl, pow_succ, pow_mul, mul_pow, sq]
  push_cast
  field_simp

/-- `artanh t / t`. -/
noncomputable def artanhRatio (t : ℝ) : ℝ := (Real.log (1 + t) - Real.log (1 - t)) / (2 * t)

theorem hasSum_artanh {t : ℝ} (ht : t ≠ 0) (small : |t| < 1) :
    HasSum (fun j => (termSign false * (t * t)) ^ j / ((2 * j + 1 : ℕ) : ℝ)) (artanhRatio t) := by
  refine ((Real.hasSum_log_sub_log_of_abs_lt_one small).div_const (2 * t)).congr_fun fun j => ?_
  rw [termSign, if_neg Bool.false_ne_true, one_mul, pow_succ, pow_mul, sq]
  push_cast
  field_simp

/-- The terms are positive, and the first one is 1. -/
theorem one_le_artanhRatio {t : ℝ} (ht : t ≠ 0) (small : |t| < 1) : 1 ≤ artanhRatio t := by
  have first := (hasSum_artanh ht small).summable.le_tsum 0 (fun j _ => by
    rw [termSign, if_neg Bool.false_ne_true, one_mul]
    exact div_nonneg (pow_nonneg (mul_self_nonneg t) j) (Nat.cast_nonneg _))
  rw [(hasSum_artanh ht small).tsum_eq] at first
  simpa using first


/-! ### The natural logarithm of 2 -/

/-- The constant is the series for `2 artanh (1/3)`, up to what the series leaves out. -/
theorem fixLn2_series : 2 * series false (fun k => 2 * k + 1) (fixOne / 9) 0 seriesLength ≤ 3 * fixLn2 + 2 ^ 100 ∧
    3 * fixLn2 ≤ 2 * series false (fun k => 2 * k + 1) (fixOne / 9) 0 seriesLength + 2 ^ 100 := by decide +kernel

theorem odd_pos (k : ℕ) : 1 ≤ 2 * k + 1 := by omega

theorem odd_mono : Monotone fun k : ℕ => 2 * k + 1 := fun a b h => by dsimp only; omega

theorem log_two_eq : Real.log 2 = 2 / 3 * artanhRatio (1 / 3) := by
  rw [artanhRatio, ← Real.log_div (by norm_num) (by norm_num)]
  norm_num
  ring

theorem near_ln2 : Near fixLn2 (Real.log 2) (2 ^ 110) := by
  have ninth : Near (fixOne / 9) (1 / 3 * (1 / 3)) 1 := by
    obtain ⟨low, high⟩ := div_floor fixOne (b := 9) (by norm_num)
    push_cast at low high
    exact near_floor (by linarith) (by linarith)
  have close := near_sum (alt := false) (d := fun k => 2 * k + 1) odd_pos ninth (by norm_num) (by norm_num) odd_mono
    (Nat.div_le_self _ _) zero_le_one (q := 1 / 9) (by norm_num)
    (hasSum_artanh (t := 1 / 3) (by norm_num) (by rw [abs_of_pos] <;> norm_num)) (fun j => by
      refine (div_le_self (by positivity) (by exact_mod_cast odd_pos j)).trans_eq ?_
      norm_num)
  obtain ⟨high, low⟩ := fixLn2_series
  generalize series false (fun k => 2 * k + 1) (fixOne / 9) 0 seriesLength = n at *
  have high' : 2 * (n : ℝ) ≤ 3 * fixLn2 + 2 ^ 100 := by exact_mod_cast high
  have low' : 3 * (fixLn2 : ℝ) ≤ 2 * n + 2 ^ 100 := by exact_mod_cast low
  obtain ⟨l, r⟩ := abs_le.mp close
  rw [fixOne_cast, seriesLength] at l r
  rw [log_two_eq, Near, abs_le, fixOne_cast]
  generalize artanhRatio (1 / 3) = g at *
  norm_num at l r high' low' ⊢
  constructor <;> linarith

theorem log_two_bounds : 2 / 3 ≤ Real.log 2 ∧ Real.log 2 ≤ 7 / 10 := by
  have := Real.log_two_gt_d9
  have := Real.log_two_lt_d9
  constructor <;> linarith

/-! ### `(e^t - 1) / t` -/

theorem near_expFactor {u : ℕ} {t e : ℝ} (near : Near u t e) (h0 : 0 < t) (half : t ≤ 1 / 2) (he : 0 ≤ e)
    (he' : e ≤ 2 ^ 160) :
    Near (expFactor u) ((Real.exp t - 1) / t) (2 ^ 180) := by
  have growth (k : ℕ) : 2 ^ k ≤ Machine.factorial (k + 1) := by rw [factorial_eq]; exact two_pow_le_factorial k
  refine near_sum_third (alt := false) (d := fun k => Machine.factorial (k + 1))
    (fun k => Nat.one_le_two_pow.trans (growth k))
    near h0.le (by linarith) (fun a b h => ?_) (near.le_fixOne (by linarith) (he'.trans (by norm_num))) he he' ?_
    (falling_of_growth (c := 2) h0.le two_pos (by push_cast; linarith) growth)
  · simp only [factorial_eq]
    exact Nat.factorial_le (by omega)
  · simpa only [factorial_eq] using hasSum_exp h0.ne'

/-- `e^t - 1` is at least `t`. -/
theorem one_le_expRatio {t : ℝ} (h0 : 0 < t) : 1 ≤ (Real.exp t - 1) / t := by
  rw [le_div_iff₀ h0]
  linarith [Real.add_one_le_exp t]

/-! ### `tg a / a` -/

theorem near_tanFactor {u : ℕ} {t : ℝ} (near : Near u t 1) (h0 : 0 < t) (ht : t < Real.pi / 4) :
    Near (tanFactor u) (Real.tan t / t) (2 ^ 186) := by
  have quarter : t < 0.7854 := by have := Real.pi_lt_d4; linarith
  have square := near.mul_small near (by linarith) (by rw [abs_of_pos h0]; linarith) (by norm_num)
  have nonneg : 0 ≤ t * t := by positivity
  have small : t * t ≤ 0.617 := by nlinarith
  have less := square.le_fixOne (by linarith) (by norm_num)
  have odd (k : ℕ) : 2 ^ k ≤ Machine.factorial (2 * k + 1) := by
    rw [factorial_eq]
    exact (two_pow_le_factorial_double k).trans (Nat.factorial_le (by omega))
  have even (k : ℕ) : 2 ^ k ≤ Machine.factorial (2 * k) := by rw [factorial_eq]; exact two_pow_le_factorial_double k
  have sine := near_sum_third (alt := true) (d := fun k => Machine.factorial (2 * k + 1))
    (fun k => Nat.one_le_two_pow.trans (odd k)) square nonneg (by linarith)
    (fun a b h => by simp only [factorial_eq]; exact Nat.factorial_le (by omega)) less (by norm_num) (by norm_num)
    (by simpa only [factorial_eq] using hasSum_sin h0.ne')
    (falling_of_growth (c := 2) nonneg two_pos (by push_cast; linarith) odd)
  have cosine := near_sum_third (alt := true) (d := fun k => Machine.factorial (2 * k))
    (fun k => Nat.one_le_two_pow.trans (even k)) square nonneg (by linarith)
    (fun a b h => by simp only [factorial_eq]; exact Nat.factorial_le (by omega)) less (by norm_num) (by norm_num)
    (by simpa only [factorial_eq] using hasSum_cos t)
    (falling_of_growth (c := 2) nonneg two_pos (by push_cast; linarith) even)
  have low : 0.69 ≤ Real.cos t := by
    have := Real.one_sub_sq_div_two_le_cos (x := t)
    nlinarith
  have ratio : |Real.sin t / t| / Real.cos t ≤ 2 := by
    have sin0 : 0 ≤ Real.sin t := Real.sin_nonneg_of_nonneg_of_le_pi h0.le (by linarith [Real.pi_gt_three])
    have le : Real.sin t / t ≤ 1 := (div_le_one h0).mpr (Real.sin_le h0.le)
    rw [abs_of_nonneg (div_nonneg sin0 h0.le), div_le_iff₀ (by linarith)]
    linarith
  have quotient := sine.div cosine (by linarith) (cosine.half_le (by linarith) (by norm_num)) ratio
  rw [div_right_comm, ← Real.tan_eq_sin_div_cos] at quotient
  exact quotient.mono (by norm_num)

theorem one_le_tanRatio {t : ℝ} (h0 : 0 < t) (ht : t < Real.pi / 4) : 1 ≤ Real.tan t / t := by
  rw [le_div_iff₀ h0, one_mul]
  exact (Real.lt_tan h0 (by linarith [Real.pi_pos])).le

/-! ### `arctg q / q` -/

/-- `tg (t/2) / tg t` of the square of `tg t`. -/
noncomputable def halfRatio (r : ℝ) : ℝ := 1 / (1 + Real.sqrt (1 + r))

theorem halfRatio_bounds {r : ℝ} (h0 : 0 ≤ r) : 0 < halfRatio r ∧ halfRatio r ≤ 1 / 2 := by
  have root : 1 ≤ Real.sqrt (1 + r) := Real.one_le_sqrt.mpr (by linarith)
  refine ⟨by unfold halfRatio; positivity, ?_⟩
  exact one_div_le_one_div_of_le two_pos (by linarith)

theorem near_halfTan {u : ℕ} {r e : ℝ} (near : Near u r e) (h0 : 0 ≤ r) (hr : r ≤ 1) (he : e ≤ 2 ^ 200) :
    Near (halfTan u) (halfRatio r) (2 * e + 3) := by
  have root : 1 ≤ Real.sqrt (1 + r) := Real.one_le_sqrt.mpr (by linarith)
  have sum := near_fixOne.add near
  have four : fixOne + u < 4 * fixOne := by
    have high := (abs_le.mp near).2
    have part := mul_le_mul_of_nonneg_right hr fixOne_pos.le
    have size : (u : ℝ) < 3 * fixOne := by
      have := fixOne_cast
      norm_num at this he
      linarith
    have : u < 3 * fixOne := by exact_mod_cast size
    omega
  have total := near_fixOne.add (sum.sqrt (by linarith) (Nat.le_add_right _ _) four)
  refine (near_fixOne.div total (by linarith) (by omega) (q := 1) ?_).mono (by linarith)
  rw [abs_one, div_le_one (by linarith)]
  linarith

/-- Half the angle. -/
theorem arctan_half {q : ℝ} (h0 : 0 ≤ q) : Real.arctan q = 2 * Real.arctan (q * halfRatio (q * q)) := by
  have nonneg : 0 ≤ q * q := mul_self_nonneg q
  obtain ⟨pos, half⟩ := halfRatio_bounds nonneg
  have root := Real.sq_sqrt (show 0 ≤ 1 + q * q by linarith)
  have root0 := Real.sqrt_nonneg (1 + q * q)
  have small : q * halfRatio (q * q) < 1 := by
    rw [halfRatio, mul_one_div, div_lt_one (by linarith)]
    nlinarith
  rw [Real.two_mul_arctan (by have := mul_nonneg h0 pos.le; linarith) small]
  congr 1
  rw [halfRatio]
  generalize Real.sqrt (1 + q * q) = w at *
  have pos : 1 + w ≠ 0 := by linarith
  have rest : 1 - (q * (1 / (1 + w))) ^ 2 = 2 / (1 + w) := by
    field_simp
    linarith
  rw [rest]
  field_simp

/-- `arctg q / q` is at least a half up to `q = 1`. -/
theorem half_le_atanRatio {q : ℝ} (h0 : 0 < q) (hq : q ≤ 1) : 1 / 2 ≤ Real.arctan q / q := by
  have le := Real.sin_le (Real.arctan_nonneg.mpr h0.le)
  have root : Real.sqrt (1 + q ^ 2) ≤ 2 := by
    rw [Real.sqrt_le_left two_pos.le]
    nlinarith
  rw [Real.sin_arctan] at le
  rw [le_div_iff₀ h0]
  calc 1 / 2 * q = q / 2 := by ring
    _ ≤ q / Real.sqrt (1 + q ^ 2) := div_le_div_of_nonneg_left h0.le (by positivity) root
    _ ≤ Real.arctan q := le

theorem arctan_le_self {q : ℝ} (h0 : 0 ≤ q) : Real.arctan q ≤ q := by
  have le := Real.le_tan (Real.arctan_nonneg.mpr h0) (Real.arctan_lt_pi_div_two q)
  rwa [Real.tan_arctan] at le

theorem near_atanFactor {n : ℕ} {q : ℝ} (near : Near n q 5) (h0 : 0 < q) (hq : q < 1) :
    Near (atanFactor n) (Real.arctan q / q) (2 ^ 186) := by
  have u := near.mul_small near hq.le (by rw [abs_of_pos h0]; exact hq.le) (by norm_num)
  have u0 : 0 ≤ q * q := mul_self_nonneg q
  have u1 : q * q ≤ 1 := by nlinarith
  obtain ⟨r0, r1⟩ := halfRatio_bounds u0
  have r := near_halfTan u u0 u1 (by norm_num)
  have half : Real.arctan q = 2 * Real.arctan (q * halfRatio (q * q)) := arctan_half h0.le
  rw [atanFactor]
  generalize halfRatio (q * q) = s at *
  have s2 : s * s ≤ 1 / 4 := by nlinarith
  have v := u.mul_small (r.mul_small r (by linarith) (by rw [abs_of_pos r0]; linarith) (by norm_num)) u1
    (by rw [abs_of_nonneg (mul_self_nonneg s)]; linarith) (by norm_num)
  have v0 : 0 ≤ q * q * (s * s) := by positivity
  have v1 : q * q * (s * s) ≤ 1 / 4 := by nlinarith
  obtain ⟨p0, p1⟩ := halfRatio_bounds v0
  have p := near_halfTan v v0 (by linarith) (by norm_num)
  have quarter : Real.arctan (q * s) = 2 * Real.arctan (q * s * halfRatio (q * s * (q * s))) := arctan_half (by positivity)
  rw [mul_mul_mul_comm] at quarter
  generalize halfRatio (q * q * (s * s)) = t at *
  have t2 : t * t ≤ 1 / 4 := by nlinarith
  have w := v.mul_small (p.mul_small p (by linarith) (by rw [abs_of_pos p0]; linarith) (by norm_num)) (by linarith)
    (by rw [abs_of_nonneg (mul_self_nonneg t)]; linarith) (by norm_num)
  have w1 : q * q * (s * s) * (t * t) ≤ 1 / 4 := by nlinarith
  have x0 : 0 < q * s * t := by positivity
  have square : q * q * (s * s) * (t * t) = q * s * t * (q * s * t) := by ring
  rw [square] at w w1
  have x1 : q * s * t < 1 := by nlinarith
  have sum := near_sum_third (alt := true) (d := fun k => 2 * k + 1) odd_pos w (by positivity) (by linarith) odd_mono
    (w.le_fixOne (by linarith) (by norm_num)) (by norm_num) (by norm_num)
    (hasSum_arctan x0.ne' (by rw [abs_of_pos x0]; exact x1))
    (falling_of_growth (c := 1) (by positivity) one_pos (by push_cast; linarith)
      (fun j => by rw [one_pow]; exact odd_pos j))
  have factor := r.mul_small p (by linarith) (by rw [abs_of_pos p0]; linarith) (by norm_num)
  have ratio : |Real.arctan (q * s * t) / (q * s * t)| ≤ 1 := by
    rw [abs_of_nonneg (div_nonneg (Real.arctan_nonneg.mpr x0.le) x0.le), div_le_one x0]
    exact arctan_le_self x0.le
  have total := (factor.mul_small sum (by nlinarith) ratio (by norm_num)).smul 4
  have value : ((4 : ℕ) : ℝ) * (s * t * (Real.arctan (q * s * t) / (q * s * t))) = Real.arctan q / q := by
    rw [half, quarter]
    push_cast
    field_simp
    norm_num
  rw [value] at total
  exact total.mono (by norm_num)

/-! ### `log2 (1 + d) / d` -/

/-- One plus or minus a magnitude. -/
def onePlus (neg : Bool) (d : ℝ) : ℝ := if neg = true then 1 - d else 1 + d

/-- The magnitude of the binary logarithm of `onePlus`, divided by `d`. -/
noncomputable def logRatio (neg : Bool) (d : ℝ) : ℝ := |Real.logb 2 (onePlus neg d)| / d

/-- `artanh (d / (2 + d))` is half the logarithm. -/
theorem logRatio_eq {neg : Bool} {d : ℝ} (h0 : 0 < d) (hd : d ≤ 1 / 2) :
    let t := 1 + onePlus neg d
    logRatio neg d = (2 : ℕ) * artanhRatio (d / t) / t / Real.log 2 := by
  have log0 : 0 < Real.log 2 := Real.log_pos one_lt_two
  have value {t w l : ℝ} (ht : 0 < t) (hl : l = Real.log (1 + d / t) - Real.log (1 - d / t)) (hw : |w| = l / Real.log 2) :
      |w| / d = (2 : ℕ) * artanhRatio (d / t) / t / Real.log 2 := by
    rw [hw, hl, artanhRatio]
    push_cast
    field_simp
  cases neg with
  | false =>
    refine value (t := 1 + (1 + d)) (l := Real.log (1 + d)) (by linarith) ?_ ?_
    · rw [← Real.log_div (by positivity)
        (by rw [one_sub_div (by positivity)]; exact div_ne_zero (by linarith) (by linarith))]
      congr 1
      field_simp
      ring
    · exact abs_of_nonneg (Real.logb_nonneg one_lt_two (by simp [onePlus]; linarith))
  | true =>
    refine value (t := 1 + (1 - d)) (l := -Real.log (1 - d)) (by linarith) ?_ ?_
    · rw [← Real.log_div (by rw [one_add_div (by linarith)]; exact div_ne_zero (by linarith) (by linarith))
        (by rw [one_sub_div (by linarith)]; exact div_ne_zero (by linarith) (by linarith)), ← Real.log_inv]
      congr 1
      have rest : 1 - d ≠ 0 := by linarith
      have sum : 1 + (1 - d) ≠ 0 := by linarith
      rw [one_add_div sum, one_sub_div sum, div_div_div_cancel_right₀ sum, eq_div_iff (by linarith),
        inv_mul_eq_iff_eq_mul₀ rest]
      ring
    · rw [show onePlus true d = 1 - d from rfl, abs_of_nonpos (Real.logb_nonpos one_lt_two (by linarith) (by linarith)),
        Real.logb, neg_div]

theorem onePlus_bounds {neg : Bool} {d : ℝ} (h0 : 0 < d) (hd : d ≤ 1 / 2) :
    1 / 2 ≤ onePlus neg d ∧ onePlus neg d ≤ 3 / 2 := by
  cases neg <;> simp only [onePlus, Bool.false_eq_true, if_false, if_true] <;> constructor <;> linarith

theorem near_two {neg : Bool} {n : ℕ} {d : ℝ} (near : Near n d 1) (hd : d ≤ 1 / 2) :
    Near (if neg = true then 2 * fixOne - n else 2 * fixOne + n) (1 + onePlus neg d) 1 := by
  have two := near_fixOne.smul 2
  rw [Nat.cast_ofNat, mul_one, mul_zero] at two
  cases neg with
  | false =>
    have sum := two.add near
    rw [zero_add] at sum
    rwa [show 1 + onePlus false d = 2 + d by rw [onePlus, if_neg Bool.false_ne_true]; ring]
  | true =>
    have difference := two.sub near ((near.le_fixOne (by linarith) (by norm_num)).trans (by omega))
    rw [zero_add] at difference
    rwa [show 1 + onePlus true d = 2 - d by rw [onePlus, if_pos rfl]; ring]

theorem artanhRatio_le {t : ℝ} (h0 : 0 < t) (ht : t ≤ 1 / 3) : artanhRatio t ≤ 3 / 2 := by
  have sum := hasSum_artanh h0.ne' (by rw [abs_of_pos h0]; linarith)
  have geometric := hasSum_geometric_of_lt_one (mul_self_nonneg t) (by nlinarith)
  have le := hasSum_le (fun j => ?_) sum geometric
  · refine le.trans ?_
    rw [inv_le_comm₀ (by nlinarith) (by norm_num)]
    nlinarith
  · rw [termSign, if_neg Bool.false_ne_true, one_mul]
    exact div_le_self (pow_nonneg (mul_self_nonneg t) j) (by exact_mod_cast odd_pos j)

theorem one_le_logRatio {neg : Bool} {d : ℝ} (h0 : 0 < d) (hd : d ≤ 1 / 2) : 1 ≤ logRatio neg d := by
  obtain ⟨t0, t1⟩ := onePlus_bounds (neg := neg) h0 hd
  obtain ⟨-, log1⟩ := log_two_bounds
  have log0 : 0 < Real.log 2 := Real.log_pos one_lt_two
  have s1 : d / (1 + onePlus neg d) < 1 := by rw [div_lt_one (by linarith)]; linarith
  have s0 : 0 < d / (1 + onePlus neg d) := div_pos h0 (by linarith)
  have one := one_le_artanhRatio s0.ne' (by rw [abs_of_pos s0]; exact s1)
  rw [logRatio_eq h0 hd]
  generalize artanhRatio (d / (1 + onePlus neg d)) = g at *
  rw [div_div, le_div_iff₀ (mul_pos (by linarith) log0), Nat.cast_ofNat]
  nlinarith

theorem near_logFactor {neg : Bool} {n : ℕ} {d : ℝ} (near : Near n d 1) (h0 : 0 < d) (hd : d ≤ 1 / 2) :
    Near (logFactor neg n) (logRatio neg d) (2 ^ 186) := by
  obtain ⟨t0, t1⟩ := onePlus_bounds (neg := neg) h0 hd
  obtain ⟨log0, log1⟩ := log_two_bounds
  have two := near_two (neg := neg) near hd
  rw [logRatio_eq h0 hd, logFactor]
  generalize (if neg = true then 2 * fixOne - n else 2 * fixOne + n) = k at *
  have t0' : 3 / 2 ≤ 1 + onePlus neg d := by linarith
  generalize 1 + onePlus neg d = t at *
  have s0 : 0 < d / t := div_pos h0 (by linarith)
  have s1 : d / t ≤ 1 / 3 := by rw [div_le_iff₀ (by linarith)]; linarith
  have big : fixOne ≤ 2 * k := two.half_le (by linarith) (by norm_num)
  have s := near.div two (by linarith) big (q := 1) (by
    rw [abs_of_pos h0]; linarith)
  have square := s.mul_small s (by linarith) (by rw [abs_of_pos s0]; linarith) (by norm_num)
  have sum := near_sum_third (alt := false) (d := fun k => 2 * k + 1) odd_pos square (mul_self_nonneg _) (by nlinarith)
    odd_mono (square.le_fixOne (by nlinarith) (by norm_num)) (by norm_num) (by norm_num)
    (hasSum_artanh s0.ne' (by rw [abs_of_pos s0]; linarith))
    (falling_of_growth (c := 1) (mul_self_nonneg _) one_pos (by push_cast; nlinarith)
      (fun j => by rw [one_pow]; exact odd_pos j))
  have g0 := one_le_artanhRatio s0.ne' (by rw [abs_of_pos s0]; linarith)
  have g1 := artanhRatio_le s0 s1
  generalize artanhRatio (d / t) = g at *
  have double : |((2 : ℕ) : ℝ) * g| / t ≤ 2 := by
    rw [Nat.cast_ofNat, abs_of_pos (by linarith), div_le_iff₀ (by linarith)]
    linarith
  have part := (sum.smul 2).div two (by linarith) big double
  have quotient : |((2 : ℕ) : ℝ) * g / t| / Real.log 2 ≤ 3 := by
    rw [abs_div, abs_of_pos (show 0 < t by linarith), div_le_iff₀ (by linarith)]
    linarith
  refine (part.div near_ln2 (by linarith) (near_ln2.half_le (by linarith) (by norm_num)) quotient).mono ?_
  norm_num

end Sys2Proof.Certificates.Factors

/-! SUPPORT. Results of the transcendental instructions: a magnitude that lies within one part in `2^66` of the exact value
gives, rounded and moved by the free error, a result within the tolerance (46_vm87_numerics.md R410-R412, U12). -/

namespace Sys2Proof.Certificates.Approximation

open Sys2Proof.Machine Sys2Proof.Certificates.Numbers Sys2Proof.Certificates.FixedPoint
  Sys2Proof.Certificates.Factors

/-! ### Relative errors -/

/-- `a` lies beside `b` by at most the part `d` of it. -/
def Close (a b d : ℝ) : Prop := |a - b| ≤ d * b

theorem Close.mono {a b d e : ℝ} (h : Close a b d) (hb : 0 ≤ b) (le : d ≤ e) : Close a b e :=
  h.trans (mul_le_mul_of_nonneg_right le hb)

theorem Close.mul {a b x y d e : ℝ} (h : Close a x d) (g : Close b y e) (hx : 0 ≤ x) (hy : 0 ≤ y) (hd : d ≤ 1) :
    Close (a * b) (x * y) (d + 2 * e) := by
  have size : |a| ≤ 2 * x := by
    have := (abs_le.mp h).2
    have := (abs_le.mp h).1
    rw [abs_le]
    constructor <;> nlinarith
  calc |a * b - x * y| = |a * (b - y) + (a - x) * y| := by ring_nf
    _ ≤ |a| * |b - y| + |a - x| * |y| := by rw [← abs_mul, ← abs_mul]; exact abs_add_le _ _
    _ ≤ 2 * x * (e * y) + d * x * y := by
        rw [abs_of_nonneg hy]
        exact add_le_add (mul_le_mul size g (abs_nonneg _) (by positivity)) (mul_le_mul_of_nonneg_right h hy)
    _ = (d + 2 * e) * (x * y) := by ring

/-- A factor near a number of at least a half. -/
theorem close_of_near {f : ℕ} {r : ℝ} (near : Near f r (2 ^ 186)) (half : 1 / 2 ≤ r) :
    Close ((f : ℝ) / fixOne) r (2 ^ (-69 : ℤ)) := by
  have unit := fixOne_pos
  have split : (f : ℝ) / fixOne - r = (f - r * fixOne) / fixOne := by field_simp
  rw [Close, split, abs_div, abs_of_pos unit, div_le_iff₀ unit]
  have size : (2 : ℝ) ^ 186 ≤ 2 ^ (-69 : ℤ) * (1 / 2) * fixOne := by rw [fixOne_cast]; norm_num
  refine near.trans (size.trans ?_)
  exact mul_le_mul_of_nonneg_right (mul_le_mul_of_nonneg_left half (by positivity)) unit.le

theorem Close.doubles {a b d : ℝ} (h : Close a b d) (hb : 0 ≤ b) (hd : d ≤ 1 / 2) : b ≤ 2 * a ∧ a ≤ 2 * b := by
  obtain ⟨l, r⟩ := abs_le.mp h
  constructor <;> nlinarith

/-! ### Magnitudes -/

/-- The number of a magnitude without a part below the last place. -/
noncomputable def value (x : Mag) : ℝ := scaled x.m x.e

theorem holds_value {x : Mag} (h : x.sticky = false) : Holds x (value x) := by
  rw [Holds, if_neg (by rw [h]; exact Bool.false_ne_true), value]

theorem value_extMag (v : Ext80) : value (extMag v) = extMagnitude v := (extMagnitude_eq v).symm

theorem value_mul (x y : Mag) : value (x.mul y) = value x * value y := by
  rw [value, value, value, Mag.mul, scaled, scaled, scaled, zpow_add₀ two_ne_zero]
  push_cast
  ring

theorem value_times (x : Mag) (f : ℕ) : value (x.times f) = value x * (f / fixOne) := by
  rw [value, value, Mag.times, scaled, scaled, zpow_sub₀ two_ne_zero, fixOne_cast]
  push_cast
  rw [← zpow_natCast (2 : ℝ) 256]
  push_cast
  ring

theorem close_of_value {x : Mag} {y : ℝ} (h : value x = y) : Close (value x) y 0 := by
  rw [h, Close, sub_self, abs_zero, zero_mul]

theorem value_nonneg (x : Mag) : 0 ≤ value x := by rw [value, scaled]; positivity

theorem m_ne_zero {x : Mag} {y d : ℝ} (close : Close (value x) y d) (hd : d < 1) (hy : 0 < y) : x.m ≠ 0 := by
  intro zero
  rw [value, zero, scaled, Nat.cast_zero, zero_mul, Close, zero_sub, abs_neg, abs_of_pos hy] at close
  nlinarith

/-- A magnitude times a factor near a number of at least a half. -/
theorem Close.times {x : Mag} {y d : ℝ} {f : ℕ} {r : ℝ} (h : Close (value x) y d) (near : Near f r (2 ^ 186)) (hy : 0 ≤ y)
    (half : 1 / 2 ≤ r) (hd : d ≤ 1) : Close (value (x.times f)) (y * r) (d + 2 ^ (-68 : ℤ)) := by
  rw [value_times]
  refine (h.mul (close_of_near near half) hy (by linarith) hd).mono (by positivity) ?_
  norm_num

/-! ### The result -/

/-- The free error is at most the tolerance. -/
theorem error_bounds (c : FCtl) (tol : ℕ) : -(tol : ℤ) ≤ c.error tol ∧ c.error tol ≤ tol := by
  have := Nat.mod_lt c.wildN (show 0 < 2 * tol + 1 by omega)
  unfold FCtl.error
  omega

/-- A number of units of the last place, delivered. -/
theorem packNormal_units (c : FCtl) (sign : Bool) {m : ℕ} {e : ℤ} (low : 2 ^ 62 ≤ m) (high : m < 2 ^ 65)
    (least : -16381 ≤ e)
    (greatest : e ≤ 16381) :
    let r := packNormal c 64 sign { m := m, e := e - 63, sticky := false }
    r.oe = false ∧ extClass r.val = .normal ∧ extSign r.val = sign ∧
      (m < 2 ^ 64 → extMagnitude r.val = scaled m (e - 63)) ∧
        |extMagnitude r.val - scaled m (e - 63)| < 2 * 2 ^ (e - 63) := by
  have unit : (0 : ℝ) < 2 ^ (e - 63) := by positivity
  have bottom : (2 : ℝ) ^ (e - 1) ≤ scaled m (e - 63) := by
    calc (2 : ℝ) ^ (e - 1) = scaled (2 ^ 62) (e - 63) := by rw [scaled_two_pow]; congr 1; push_cast; omega
      _ ≤ scaled m (e - 63) := mul_le_mul_of_nonneg_right (by exact_mod_cast low) unit.le
  have below {k : ℕ} (h : m < 2 ^ k) : scaled m (e - 63) < 2 ^ (e - 63 + k) := by
    rw [← scaled_two_pow]
    exact mul_lt_mul_of_pos_right (by exact_mod_cast h) unit
  have range : InRange (scaled m (e - 63)) :=
    ⟨(zpow_le_zpow_right₀ one_le_two (by omega)).trans bottom,
      (below high).trans_le (zpow_le_zpow_right₀ one_le_two (by push_cast; omega))⟩
  obtain ⟨-, -, -, oe, -, normal, sign', -, k, k0, -, rounds⟩ := packNormal_rounded c (p := 64) (by norm_num) le_rfl sign
    (holds_exact m (e - 63)) (by dsimp only; omega) (fun st => by cases st) range
  have exponent {j : ℕ} (h : m < 2 ^ j) : k < e - 63 + j :=
    (zpow_lt_zpow_iff_right₀ (one_lt_two (α := ℝ))).mp (k0.trans_lt (below h))
  refine ⟨oe, normal, sign', fun few => ?_, ?_⟩
  · have := exponent few
    rw [← scaled_align m (show k + 1 - (64 : ℕ) ≤ e - 63 by push_cast at *; omega)] at rounds ⊢
    exact roundsTo_multiple (by positivity) rounds
  · refine (abs_lt_of_roundsTo (by positivity) rounds).trans_le ?_
    rw [← zpow_one_add₀ two_ne_zero]
    exact zpow_le_zpow_right₀ one_le_two (by have := exponent high; push_cast at *; omega)

/-- A magnitude beside `y`, rounded to 64 bits and moved by the free error: a number of units of the last place, within
the tolerance and the two roundings. -/
theorem near_units (c : FCtl) {tol : ℕ} (ht : tol ≤ 1024) {x : Mag} {y : ℝ} (st : x.sticky = false)
    (close : Close (value x) y (2 ^ (-66 : ℤ))) (low : (2 : ℝ) ^ (-16380 : ℤ) ≤ y) (high : y < 2 ^ (16380 : ℤ)) :
    ∃ (m : ℕ) (e : ℤ), x.near c tol = { m := m, e := e - 63, sticky := false } ∧ -16381 ≤ e ∧ e ≤ 16381 ∧
      2 ^ 63 ≤ m + 1024 ∧ m < 2 ^ 64 + 1024 ∧ |scaled m (e - 63) - y| ≤ (tol + 1) * 2 ^ (e - 63) := by
  have y0 : 0 < y := lt_of_lt_of_le (by positivity) low
  have x0 : x.m ≠ 0 := m_ne_zero close (by norm_num) y0
  have holds := holds_value st
  obtain ⟨bottom, top⟩ := top_bounds holds x0
  obtain ⟨lower, upper⟩ := close.doubles y0.le (by norm_num)
  have least : -16381 ≤ x.top := by
    have : (2 : ℝ) ^ (-16380 : ℤ) < 2 ^ (x.top + 1 + 1) := by
      rw [zpow_add_one₀ two_ne_zero]
      linarith
    have := (zpow_lt_zpow_iff_right₀ (one_lt_two (α := ℝ))).mp this
    omega
  have greatest : x.top ≤ 16380 := by
    have : (2 : ℝ) ^ x.top < 2 ^ ((16380 : ℤ) + 1) := by
      rw [zpow_add_one₀ two_ne_zero]
      linarith
    have := (zpow_lt_zpow_iff_right₀ (one_lt_two (α := ℝ))).mp this
    omega
  clear low high
  obtain ⟨lead, size, exponent, rounds, -⟩ := roundMant_spec holds x0 0 (p := 64) (by norm_num) false
    (fun h => by rw [st] at h; cases h)
  obtain ⟨errorL, errorR⟩ := error_bounds c tol
  refine ⟨(((roundMant 0 64 false x).1 : ℤ) + c.error tol).toNat, (roundMant 0 64 false x).2.1, ?_, ?_⟩
  · rw [Mag.near, if_neg (by omega)]
  generalize roundMant 0 64 false x = t at *
  obtain ⟨n, e, _⟩ := t
  dsimp only at *
  refine ⟨by omega, by omega, by omega, by omega, ?_⟩
  have unit : (0 : ℝ) < 2 ^ (e - 63) := by positivity
  have half : (2 : ℝ) ^ (x.top + 1 - (64 : ℕ)) ≤ 2 ^ (e - 63) :=
    zpow_le_zpow_right₀ one_le_two (by push_cast; omega)
  have moved : scaled ((n : ℤ) + c.error tol).toNat (e - 63) = scaled n (e + 1 - (64 : ℕ)) +
    c.error tol * 2 ^ (e - 63) := by
    have sum : ((((n : ℤ) + c.error tol).toNat : ℕ) : ℝ) = n + (c.error tol : ℝ) := by
      rw [← Int.cast_natCast, Int.toNat_of_nonneg (by omega)]; push_cast; rfl
    rw [scaled, scaled, sum, show e + 1 - ((64 : ℕ) : ℤ) = e - 63 by push_cast; ring]
    ring
  have rounded := rounds.2.1
  have error : |(c.error tol : ℝ)| ≤ tol := by
    rw [abs_le]
    constructor
    · exact_mod_cast errorL
    · exact_mod_cast errorR
  have beside : |value x - y| ≤ 2 ^ (e - 63) / 2 := by
    refine close.trans ?_
    have : (2 : ℝ) ^ (-66 : ℤ) * y ≤ 2 ^ (-66 : ℤ) * (2 * 2 ^ (x.top + 1)) :=
      mul_le_mul_of_nonneg_left (by linarith) (by positivity)
    refine this.trans ?_
    have e1 : (2 : ℝ) ^ (-66 : ℤ) * (2 * 2 ^ (x.top + 1)) = 2 ^ (x.top + 1 - (64 : ℕ)) / 2 := by
      rw [zpow_sub₀ two_ne_zero]; norm_num; ring
    rw [e1]
    exact div_le_div_of_nonneg_right half two_pos.le
  rw [moved]
  calc |scaled n (e + 1 - (64 : ℕ)) + (c.error tol : ℝ) * 2 ^ (e - 63) - y|
      = |(scaled n (e + 1 - (64 : ℕ)) - value x) + (c.error tol : ℝ) * 2 ^ (e - 63) + (value x - y)| := by ring_nf
    _ ≤ |scaled n (e + 1 - (64 : ℕ)) - value x| + |(c.error tol : ℝ) * 2 ^ (e - 63)| + |value x - y| := abs_add_three _ _ _
    _ ≤ 2 ^ (e - 63) / 2 + tol * 2 ^ (e - 63) + 2 ^ (e - 63) / 2 := by
        rw [abs_mul, abs_of_pos unit]
        exact add_le_add (add_le_add (rounded.trans (div_le_div_of_nonneg_right half two_pos.le))
          (mul_le_mul_of_nonneg_right error unit.le)) beside
    _ = (tol + 1) * 2 ^ (e - 63) := by ring

/-- A result delivered for a magnitude within one part in `2^66` of `y`. -/
theorem approxResult_spec (c : FCtl) {tol : ℕ} (ht : tol ≤ 1024) (sign : Bool) {x : Mag} {y : ℝ} (st : x.sticky = false)
    (close : Close (value x) y (2 ^ (-66 : ℤ))) (low : (2 : ℝ) ^ (-16380 : ℤ) ≤ y) (high : y < 2 ^ (16380 : ℤ)) :
    (approxResult c tol sign x).oe = false ∧ Approximates tol sign y (approxResult c tol sign x) := by
  obtain ⟨m, e, units, least, greatest, m0, m1, near⟩ := near_units c ht st close low high
  obtain ⟨oe, normal, sign', few, off⟩ := packNormal_units c sign (m := m) (e := e) (by omega) (by omega) least greatest
  rw [approxResult, units]
  refine ⟨oe, normal, sign', ?_⟩
  clear low high
  dsimp only
  have unit : (0 : ℝ) < 2 ^ (e - 63) := by positivity
  have tolerance : (tol : ℝ) ≤ 1024 := by exact_mod_cast ht
  obtain ⟨nearL, nearR⟩ := abs_le.mp near
  have power (k : ℕ) : (2 : ℝ) ^ (e - 63 + k) = 2 ^ k * 2 ^ (e - 63) := by
    rw [zpow_add₀ two_ne_zero, zpow_natCast, mul_comm]
  have lower {k : ℕ} (h : 2 ^ k + tol + 1 ≤ m) : (2 : ℝ) ^ (e - 63 + k) ≤ y := by
    have := mul_le_mul_of_nonneg_right (show ((2 ^ k + tol + 1 : ℕ) : ℝ) ≤ m by exact_mod_cast h) unit.le
    rw [zpow_add₀ two_ne_zero, zpow_natCast]
    rw [scaled] at nearR
    push_cast at this
    linarith
  by_cases h : m < 2 ^ 64
  · refine ⟨e - 1, ?_, ?_⟩
    · have := lower (k := 62) (by omega)
      rwa [show e - 63 + (62 : ℕ) = e - 1 by push_cast; ring] at this
    · rw [few h]
      have half : (2 : ℝ) ^ (e - 63) = 2 ^ (e - 1 - 63) * 2 := by rw [← zpow_add_one₀ two_ne_zero]; congr 1; ring
      have pos : (0 : ℝ) < 2 ^ (e - 1 - 63) := by positivity
      rw [half] at near
      generalize (2 : ℝ) ^ (e - 1 - 63) = u at *
      linarith
  · refine ⟨e, ?_, ?_⟩
    · have := lower (k := 63) (by omega)
      rwa [show e - 63 + (63 : ℕ) = e by push_cast; ring] at this
    · calc |extMagnitude (packNormal c 64 sign { m := m, e := e - 63, sticky := false }).val - y|
          ≤ |extMagnitude (packNormal c 64 sign { m := m, e := e - 63, sticky := false }).val - scaled m (e - 63)| +
              |scaled m (e - 63) - y| := abs_sub_le _ _ _
        _ ≤ 2 * 2 ^ (e - 63) + (tol + 1) * 2 ^ (e - 63) := add_le_add off.le near
        _ = (tol + 3) * 2 ^ (e - 63) := by ring
        _ ≤ (2 * tol + 4) * 2 ^ (e - 63) := by
            refine mul_le_mul_of_nonneg_right ?_ unit.le
            linarith [(Nat.cast_nonneg tol : (0 : ℝ) ≤ tol)]

end Sys2Proof.Certificates.Approximation

/-! SUPPORT. A magnitude that is that of a normal number is delivered as that number, from end to end of the exponent
(46_vm87_numerics.md R410-R412). -/

namespace Sys2Proof.Certificates.ExactResults

open Sys2Proof.Machine Sys2Proof.Certificates.Numbers

/-- A normal number lies in the binade of its exponent field. -/
theorem binade_of_normal {v : Ext80} (h : extClass v = .normal) :
    (2 : ℝ) ^ ((extExp v : ℤ) - 16383) ≤ extMagnitude v ∧ extMagnitude v < 2 ^ ((extExp v : ℤ) - 16383 + 1) := by
  obtain ⟨e0, -, lead⟩ := (extClass_normal_iff v).mp h
  have unit : (0 : ℝ) < 2 ^ ((extExp v : ℤ) - 16446) := by positivity
  have bottom : (2 : ℝ) ^ ((extExp v : ℤ) - 16383) = scaled (2 ^ 63) ((extExp v : ℤ) - 16446) := by
    rw [scaled_two_pow]; congr 1; push_cast; ring
  have top : (2 : ℝ) ^ ((extExp v : ℤ) - 16383 + 1) = scaled (2 ^ 64) ((extExp v : ℤ) - 16446) := by
    rw [scaled_two_pow]; congr 1; push_cast; ring
  rw [extMagnitude_eq, extMag, effExp, if_neg e0, bottom, top]
  exact ⟨mul_le_mul_of_nonneg_right (by exact_mod_cast lead) unit.le,
    mul_lt_mul_of_pos_right (by exact_mod_cast extMant_lt v) unit⟩

theorem magnitude_pos {v : Ext80} (h : extClass v = .normal) : 0 < extMagnitude v :=
  lt_of_lt_of_le (by positivity) (binade_of_normal h).1

theorem magnitude_normal {v : Ext80} (h : extClass v = .normal) :
    extMagnitude v = scaled (extMant v) ((extExp v : ℤ) - 16446) := by
  rw [extMagnitude_eq, extMag, effExp, if_neg ((extClass_normal_iff v).mp h).1]

/-- The exponent of a binade is determined by a number in it. -/
theorem binade_unique {x : ℝ} {j k : ℤ} (j0 : (2 : ℝ) ^ j ≤ x) (j1 : x < 2 ^ (j + 1)) (k0 : (2 : ℝ) ^ k ≤ x)
    (k1 : x < 2 ^ (k + 1)) : j = k := by
  have := (zpow_lt_zpow_iff_right₀ (one_lt_two (α := ℝ))).mp (j0.trans_lt k1)
  have := (zpow_lt_zpow_iff_right₀ (one_lt_two (α := ℝ))).mp (k0.trans_lt j1)
  omega

theorem ne_zero_of_holds {x : Mag} {r : ℝ} (h : Holds x r) (st : x.sticky = false) (pos : 0 < r) : x.m ≠ 0 := by
  intro zero
  rw [Holds, if_neg (by rw [st]; exact Bool.false_ne_true), zero, scaled, Nat.cast_zero, zero_mul] at h
  exact pos.ne' h

/-- The mantissa and the exponent of a normal number are not changed by rounding to 64 bits. -/
theorem roundMant_normal {x : Mag} {v : Ext80} (hv : extClass v = .normal) (h : Holds x (extMagnitude v))
    (st : x.sticky = false) (rc : ℕ) (neg : Bool) :
    roundMant rc 64 neg x = (extMant v, (extExp v : ℤ) - 16383, false) := by
  obtain ⟨low, high⟩ := binade_of_normal hv
  obtain ⟨low', high'⟩ := top_bounds h (ne_zero_of_holds h st (magnitude_pos hv))
  have top := binade_unique low' high' low high
  rw [magnitude_normal hv] at h
  have exact := round_exact h (fun sticky => by rw [st] at sticky; cases sticky) rc neg
  have size := extMant_lt v
  rw [roundMant, top, show (extExp v : ℤ) - 16383 - ((64 : ℕ) - 1) = (extExp v : ℤ) - 16446 by push_cast; ring]
  rw [exact, if_neg (by dsimp only; omega)]

/-- The number is delivered with the sign of the result. -/
theorem packNormal_exact (c : FCtl) {x : Mag} {v : Ext80} (hv : extClass v = .normal) (h : Holds x (extMagnitude v))
    (st : x.sticky = false) (sign : Bool) :
    packNormal c 64 sign x = FRes.exact (mkExt sign (extExp v) (extMant v)) := by
  obtain ⟨e0, e1, -⟩ := (extClass_normal_iff v).mp hv
  have e2 := extExp_lt v
  unfold packNormal
  rw [roundMant_normal hv h st]
  dsimp only
  rw [if_neg (by omega), if_neg (by omega), Nat.sub_self, pow_zero, mul_one,
    show ((extExp v : ℤ) - 16383 + 16383).toNat = extExp v by omega]
  rfl

end Sys2Proof.Certificates.ExactResults

/-! SUPPORT. The transcendental instructions on normal operands inside their ranges: the magnitude that the model computes
lies within one part in `2^66` of the function (47_vm87_instructions.md R518-R522). -/

namespace Sys2Proof.Certificates.TranscendentalValues

open Sys2Proof.Machine Sys2Proof.Certificates.Numbers Sys2Proof.Certificates.NumberArithmetic
  Sys2Proof.Certificates.ExactResults Sys2Proof.Certificates.FixedPoint Sys2Proof.Certificates.Factors
    Sys2Proof.Certificates.Approximation

/-! ### Normal operands -/

theorem isNormal_eq {v : Ext80} (h : extClass v = .normal) : isNormal v = true := by rw [isNormal, h]; rfl

theorem not_zero_of_normal {v : Ext80} (h : extClass v = .normal) : (extClass v == .zero) = false := by rw [h]; rfl

theorem near_fix_extMag (v : Ext80) : Near (extMag v).fix (extMagnitude v) 1 := by
  rw [extMagnitude_eq]
  exact near_fix _ _ false

theorem extNumber_of_positive {v : Ext80} (h : extSign v = false) : extNumber v = extMagnitude v := by
  rw [extNumber, if_neg (by rw [h]; exact Bool.false_ne_true)]

/-! ### Results without OE and UE (R556) -/

theorem inRange_pe (c : FCtl) {f : FCtl → FRes} (h : (f { c with um := true }).pe = true) : (c.inRange f).pe = true := by
  unfold FCtl.inRange
  dsimp only
  split
  · rfl
  · exact h

theorem inRange_approximates {c : FCtl} {f : FCtl → FRes} {tol : ℕ} {sign : Bool} {y : ℝ}
    (h : (f { c with um := true }).oe = false ∧ Approximates tol sign y (f { c with um := true })) :
    Approximates tol sign y (c.inRange f) := by
  rw [(FCtl.inRange_spec c f).2.2 h.1]
  exact h.2

/-! ### F2XM1 (R520) -/

theorem approx2xm1_eq (c : FCtl) (tol : ℕ) {a : Ext80} (ha : extClass a = .normal) (sign : extSign a = false)
    (half : extMagnitude a ≤ 1 / 2) : approx2xm1 c tol a = approxResult c tol false (exactExp (extMag a)) := by
  have fix : (extMag a).fix ≤ fixOne / 2 := by
    have low : ((extMag a).fix : ℝ) ≤ extMagnitude a * fixOne := by
      rw [extMagnitude_eq]
      exact (fix_floor _ _ false).1
    have part := mul_le_mul_of_nonneg_right half fixOne_pos.le
    have double : (2 : ℝ) * (extMag a).fix ≤ fixOne := by linarith
    have : 2 * (extMag a).fix ≤ fixOne := by exact_mod_cast double
    omega
  rw [approx2xm1, not_zero_of_normal ha, isNormal_eq ha, sign, decide_eq_true fix]
  rfl

theorem close_exactExp {a : Ext80} (ha : extClass a = .normal) (half : extMagnitude a ≤ 1 / 2) :
    Close (value (exactExp (extMag a))) ((2 : ℝ) ^ extMagnitude a - 1) (2 ^ (-66 : ℤ)) := by
  have x0 := magnitude_pos ha
  have fix := near_fix_extMag a
  have exact := close_of_value (value_extMag a)
  rw [exactExp]
  generalize extMagnitude a = x at *
  obtain ⟨log0, log1⟩ := log_two_bounds
  have t0 : 0 < x * Real.log 2 := by positivity
  have t1 : x * Real.log 2 ≤ 1 / 2 := by nlinarith
  have product := fix.mul_small near_ln2 (by linarith) (by rw [abs_of_pos (by linarith)]; linarith) (by norm_num)
  have factor := near_expFactor product t0 t1 (by positivity) (by norm_num)
  have first := exact.times (near_ln2.mono (by norm_num)) x0.le (by linarith) (by norm_num)
  have second := first.times (factor.mono (by norm_num)) t0.le (by linarith [one_le_expRatio t0]) (by norm_num)
  rw [mul_div_cancel₀ _ t0.ne', mul_comm, ← Real.rpow_def_of_pos two_pos] at second
  refine second.mono ?_ (by norm_num)
  rw [sub_nonneg]
  exact Real.one_le_rpow one_le_two x0.le

/-! ### FPTAN (R518) -/

/-- The angle of FPTAN. -/
noncomputable def angle (half : Bool) (x : ℝ) : ℝ := if half = true then x / 2 else x

theorem angle_bounds (half : Bool) {x : ℝ} (h0 : 0 < x) (hx : x < Real.pi / 4) :
    x / 2 ≤ angle half x ∧ 0 < angle half x ∧ angle half x < Real.pi / 4 := by
  cases half <;> simp only [angle, Bool.false_eq_true, if_false, if_true] <;> refine ⟨?_, ?_, ?_⟩ <;> linarith

theorem value_tanAngle (half : Bool) (a : Ext80) : value (tanAngle half a) = angle half (extMagnitude a) := by
  rw [extMagnitude_eq]
  cases half with
  | false => rfl
  | true =>
    rw [angle, if_pos rfl, value, tanAngle, if_pos rfl, scaled, scaled, zpow_sub₀ two_ne_zero, zpow_one]
    dsimp only
    ring

/-- The largest operand of FPTAN lies above `pi/4`. -/
theorem quarter_pi_lt : Real.pi / 4 < extNumber (mkExt false 0x3FFE 0xC90FDAA22168C235) := by
  rw [extNumber_of_positive (extSign_mkExt ..), extMagnitude_mkExt _ (by norm_num) (by norm_num) (by norm_num), scaled]
  have := Real.pi_lt_d20
  norm_num
  linarith

theorem approxTanY_eq (c : FCtl) (tol : ℕ) (half : Bool) {a : Ext80} (ha : extClass a = .normal) (sign : extSign a = false)
    (range : extMagnitude a < Real.pi / 4) : approxTanY c tol half a =
      c.inRange fun c => approxResult c tol false ((extMag (approxTanX c tol a)).mul (exactTan (tanAngle half a))) := by
  have less : relFinite a (mkExt false 0x3FFE 0xC90FDAA22168C235) = .lt := by
    rw [relFinite_eq, if_pos]
    rw [extNumber_of_positive sign]
    exact range.trans quarter_pi_lt
  rw [approxTanY, not_zero_of_normal ha, isNormal_eq ha, sign, less, if_neg Bool.false_ne_true, if_pos (by decide)]

theorem close_exactTan (half : Bool) {a : Ext80} (ha : extClass a = .normal) (range : extMagnitude a < Real.pi / 4) :
    Close (value (exactTan (tanAngle half a))) (Real.tan (angle half (extMagnitude a))) (2 ^ (-67 : ℤ)) := by
  obtain ⟨-, t0, t1⟩ := angle_bounds half (magnitude_pos ha) range
  have exact := close_of_value (value_tanAngle half a)
  have fix : Near (tanAngle half a).fix (value (tanAngle half a)) 1 := near_fix _ _ false
  rw [exactTan]
  rw [value_tanAngle] at fix
  generalize angle half (extMagnitude a) = t at *
  have ratio := one_le_tanRatio t0 t1
  have product := exact.times (near_tanFactor fix t0 t1) t0.le (by linarith) (by norm_num)
  rw [mul_div_cancel₀ _ t0.ne'] at product
  refine product.mono ?_ (by norm_num)
  exact Real.tan_nonneg_of_nonneg_of_le_pi_div_two t0.le (by linarith [Real.pi_pos])

/-- The x of FPTAN. -/
theorem approxTanX_spec (c : FCtl) (tol : ℕ) (a : Ext80) :
    let w := approxTanX c tol a
    extClass w = .normal ∧ extSign w = false ∧ 16383 ≤ extExp w ∧ (extExp a < 8 → 16391 ≤ extExp w) ∧ extExp w ≤ 16454 := by
  have turn : c.wildN / (2 * tol + 1) % 64 < 64 := Nat.mod_lt _ (by norm_num)
  have part : extMant c.wildX % 2 ^ 63 < 2 ^ 63 := Nat.mod_lt _ (by norm_num)
  rw [approxTanX]
  generalize c.wildN / (2 * tol + 1) % 64 = k at *
  generalize extMant c.wildX % 2 ^ 63 = m at *
  have field : 16383 ≤ (if extExp a < 8 then 0x4007 else 0x3FFF) + k ∧
      (extExp a < 8 → 16391 ≤ (if extExp a < 8 then 0x4007 else 0x3FFF) + k) ∧
      (if extExp a < 8 then 0x4007 else 0x3FFF) + k ≤ 16454 := by split <;> omega
  generalize (if extExp a < 8 then 0x4007 else 0x3FFF) + k = e at *
  obtain ⟨e0, e1, e2⟩ := field
  dsimp only
  rw [extSign_mkExt, extExp_mkExt _ _ (by omega)]
  exact ⟨extClass_mkExt_normal _ (by omega) (by omega) (by omega) (by omega), rfl, e0, e1, e2⟩

theorem tan_bounds {t : ℝ} (h0 : 0 < t) (ht : t < Real.pi / 4) : t ≤ Real.tan t ∧ Real.tan t < 1 := by
  refine ⟨Real.le_tan h0.le (by linarith), ?_⟩
  rw [← Real.tan_pi_div_four]
  exact Real.tan_lt_tan_of_lt_of_lt_pi_div_two (by linarith) (by linarith) ht

theorem approxTanY_approximates (c : FCtl) {tol : ℕ} (ht : tol ≤ 1024) (half : Bool) {a : Ext80} (ha : extClass a = .normal)
    (sign : extSign a = false) (range : extMagnitude a < Real.pi / 4) :
    Approximates tol false (extMagnitude (approxTanX c tol a) * Real.tan (angle half (extMagnitude a)))
      (approxTanY c tol half a) := by
  obtain ⟨normal, -, w0, w1, w2⟩ := approxTanX_spec c tol a
  obtain ⟨t0, pos, t1⟩ := angle_bounds half (magnitude_pos ha) range
  have close := close_exactTan half ha range
  obtain ⟨more, less⟩ := tan_bounds pos t1
  have e0 := ((extClass_normal_iff a).mp ha).1
  obtain ⟨x0, -⟩ := binade_of_normal ha
  obtain ⟨x1, x2⟩ := binade_of_normal normal
  rw [approxTanY_eq c tol half ha sign range]
  refine inRange_approximates (approxResult_spec _ ht false (x := (extMag (approxTanX c tol a)).mul _) rfl ?_ ?_ ?_)
  · rw [value_mul]
    exact ((close_of_value (value_extMag _)).mul close (magnitude_pos normal).le (by linarith) (by norm_num)).mono
      (mul_nonneg (magnitude_pos normal).le (by linarith)) (by norm_num)
  · calc (2 : ℝ) ^ (-16380 : ℤ)
        ≤ 2 ^ (((extExp (approxTanX c tol a) : ℤ) - 16383) + ((extExp a : ℤ) - 16383) + -1) :=
          zpow_le_zpow_right₀ one_le_two (by omega)
      _ = 2 ^ ((extExp (approxTanX c tol a) : ℤ) - 16383) * (2 ^ ((extExp a : ℤ) - 16383) / 2) := by
          rw [zpow_add₀ two_ne_zero, zpow_add₀ two_ne_zero, zpow_neg_one]; ring
      _ ≤ _ := mul_le_mul x1 (by linarith) (by positivity) (magnitude_pos normal).le
  · calc _ < 2 ^ ((extExp (approxTanX c tol a) : ℤ) - 16383 + 1) * 1 :=
          mul_lt_mul x2 less.le (by linarith) (by positivity)
      _ ≤ 2 ^ (16380 : ℤ) := by
          rw [mul_one]
          exact zpow_le_zpow_right₀ one_le_two (by omega)



/-! ### FPATAN (R519) -/

/-- A quotient cut off 256 bits below. -/
theorem value_quot {y x : Ext80} (hy : extClass y = .normal) (hx : extClass x = .normal) :
    Close (value ((extMag y).quot (extMag x))) (extMagnitude y / extMagnitude x) (2 ^ (-255 : ℤ)) := by
  have leadY : 2 ^ 63 ≤ (extMag y).m := mant_of_normal hy
  have sizeX : (extMag x).m < 2 ^ 64 := extMant_lt x
  have leadX : 2 ^ 63 ≤ (extMag x).m := mant_of_normal hx
  have pos : 0 < (extMag x).m := by omega
  obtain ⟨low, high⟩ := div_floor ((extMag y).m * 2 ^ 256) pos
  have pos' : (0 : ℝ) < (extMag x).m := by exact_mod_cast pos
  have unit : (0 : ℝ) < 2 ^ ((extMag y).e - (extMag x).e - 256) := by positivity
  have exact : extMagnitude y / extMagnitude x =
      ((extMag y).m * 2 ^ 256 : ℕ) / (extMag x).m * 2 ^ ((extMag y).e - (extMag x).e - 256) := by
    rw [extMagnitude_eq, extMagnitude_eq, scaled, scaled, zpow_sub₀ two_ne_zero, zpow_sub₀ two_ne_zero, Nat.cast_mul,
      Nat.cast_pow, Nat.cast_ofNat, ← zpow_natCast (2 : ℝ) 256]
    push_cast
    field_simp
  have many : (2 : ℝ) ^ 255 ≤ ((extMag y).m * 2 ^ 256 : ℕ) / (extMag x).m := by
    rw [le_div_iff₀ pos']
    have : 2 ^ 255 * (extMag x).m ≤ (extMag y).m * 2 ^ 256 := by omega
    exact_mod_cast this
  rw [exact, value, Mag.quot, scaled, Close, ← sub_mul, abs_mul, abs_of_pos unit, ← mul_assoc]
  refine mul_le_mul_of_nonneg_right ?_ unit.le
  calc _ ≤ (1 : ℝ) := by rw [abs_le]; constructor <;> linarith
    _ = 2 ^ (-255 : ℤ) * 2 ^ 255 := by norm_num
    _ ≤ _ := mul_le_mul_of_nonneg_left many (by positivity)

theorem near_fix_value (x : Mag) : Near x.fix (value x) 1 := near_fix x.m x.e x.sticky

theorem close_exactAtan {x y : Ext80} (hx : extClass x = .normal) (hy : extClass y = .normal)
    (less : extMagnitude y < extMagnitude x) :
    Close (value (exactAtan (extMag y) (extMag x))) (Real.arctan (extMagnitude y / extMagnitude x)) (2 ^ (-66 : ℤ)) := by
  have close := value_quot hy hx
  have fix := near_fix_value ((extMag y).quot (extMag x))
  have pos : 0 < extMagnitude y / extMagnitude x := div_pos (magnitude_pos hy) (magnitude_pos hx)
  have one : extMagnitude y / extMagnitude x < 1 := (div_lt_one (magnitude_pos hx)).mpr less
  rw [exactAtan]
  generalize extMagnitude y / extMagnitude x = q at *
  have near : Near ((extMag y).quot (extMag x)).fix q 5 := by
    have := fixOne_pos
    have cut := mul_le_mul_of_nonneg_right close fixOne_pos.le
    have size : (2 : ℝ) ^ (-255 : ℤ) * q * fixOne ≤ 4 := by rw [fixOne_cast]; norm_num; linarith
    calc |(((extMag y).quot (extMag x)).fix : ℝ) - q * fixOne|
        = |(((extMag y).quot (extMag x)).fix - value ((extMag y).quot (extMag x)) * fixOne) +
            (value ((extMag y).quot (extMag x)) - q) * fixOne| := by ring_nf
      _ ≤ 1 + 4 := by
          refine (abs_add_le _ _).trans (add_le_add fix ?_)
          rw [abs_mul, abs_of_pos fixOne_pos]
          exact cut.trans size
      _ = 5 := by norm_num
  have product := close.times (near_atanFactor near pos one) pos.le (half_le_atanRatio pos one.le) (by norm_num)
  rw [mul_div_cancel₀ _ pos.ne'] at product
  exact product.mono (Real.arctan_nonneg.mpr pos.le) (by norm_num)

theorem approxAtan_eq (c : FCtl) (tol : ℕ) {x y : Ext80} (hx : extClass x = .normal) (hy : extClass y = .normal)
    (signX : extSign x = false) (signY : extSign y = false) (less : extMagnitude y < extMagnitude x) :
    approxAtan c tol x y = c.inRange fun c => approxResult c tol false (exactAtan (extMag y) (extMag x)) := by
  have rel : relFinite y x = .lt := by
    rw [relFinite_eq, if_pos]
    rwa [extNumber_of_positive signX, extNumber_of_positive signY]
  rw [approxAtan, isNormal_eq hx, isNormal_eq hy, signX, signY, rel, if_pos (by decide)]


/-! ### Logarithms (R521, R522) -/

theorem close_exactLogPlus (neg : Bool) {d : Mag} (half : value d ≤ 1 / 2) :
    Close (value (exactLogPlus neg d)) |Real.logb 2 (onePlus neg (value d))| (2 ^ (-68 : ℤ)) := by
  rw [exactLogPlus]
  rcases (value_nonneg d).eq_or_lt with zero | pos
  · have one : onePlus neg 0 = 1 := by cases neg <;> simp [onePlus]
    rw [value_times, ← zero, zero_mul, one, Real.logb_one, abs_zero, Close, sub_self, abs_zero, mul_zero]
  · have near := near_logFactor (neg := neg) (near_fix_value d) pos half
    have ratio := one_le_logRatio (neg := neg) pos half
    have product := (close_of_value (rfl : value d = value d)).times near pos.le (by linarith) (by norm_num)
    rw [logRatio, mul_div_cancel₀ _ pos.ne', zero_add] at product
    exact product

theorem logb_onePlus_sign (neg : Bool) {d : ℝ} (h0 : 0 ≤ d) (hd : d ≤ 1 / 2) :
    Real.logb 2 (onePlus neg d) = withSignOf neg |Real.logb 2 (onePlus neg d)| := by
  cases neg
  · rw [withSignOf, if_neg Bool.false_ne_true, abs_of_nonneg]
    exact Real.logb_nonneg one_lt_two (by simp [onePlus]; linarith)
  · rw [withSignOf, if_pos rfl, abs_of_nonpos, neg_neg]
    exact Real.logb_nonpos one_lt_two (by simp [onePlus]; linarith) (by simp [onePlus]; linarith)

/-- A number is a power of two times a factor near 1: the exponent, the side of 1 and the distance from it. -/
structure Parts (b : Ext80) (up : Bool) (k : ℤ) (d : Mag) : Prop where
  number : extMagnitude b = 2 ^ k * onePlus up (value d)
  distance : value d ≤ if up = true then 1 / 4 else 1 / 2
  power : d.m = 0 ↔ extMant b = 2 ^ 63
  exponent : extMant b = 2 ^ 63 → k = (extExp b : ℤ) - 16383
  log : exactLog b =
    if k = 0 then (up, exactLogPlus up d)
    else (decide (k * (fixOne : ℤ) + signed up (exactLogPlus up d).fix < 0),
      { m := (k * (fixOne : ℤ) + signed up (exactLogPlus up d).fix).natAbs, e := -256, sticky := false })
  exact : d.sticky = false

theorem scaled_le {m k : ℕ} (h : m ≤ 2 ^ k) (e : ℤ) : scaled m e ≤ 2 ^ (e + k) := by
  rw [← scaled_two_pow]
  exact mul_le_mul_of_nonneg_right (by exact_mod_cast h) (by positivity)

theorem exists_parts {b : Ext80} (hb : extClass b = .normal) : ∃ up k d, Parts b up k d := by
  have lead := mant_of_normal hb
  have size := extMant_lt b
  have number := magnitude_normal hb
  by_cases up : 3 * 2 ^ 62 ≤ extMant b
  · refine ⟨true, (extExp b : ℤ) - 16383 + 1, { m := 2 ^ 64 - extMant b, e := -64, sticky := false }, ?_, ?_, ?_, ?_,
      ?_, rfl⟩
    · have shift : ((extExp b : ℤ) - 16446) = ((extExp b : ℤ) - 16383 + 1) + -64 := by ring
      rw [number, shift, scaled, zpow_add₀ two_ne_zero, onePlus, if_pos rfl, value, scaled, Nat.cast_sub size.le]
      norm_num
      ring
    · rw [if_pos rfl]
      exact (scaled_le (m := 2 ^ 64 - extMant b) (k := 62) (by omega) (-64)).trans_eq (by norm_num)
    · dsimp only; omega
    · intro; omega
    · rw [exactLog, decide_eq_true up]
      rfl
  · refine ⟨false, (extExp b : ℤ) - 16383 + 0, { m := extMant b - 2 ^ 63, e := -63, sticky := false }, ?_, ?_, ?_, ?_,
      ?_, rfl⟩
    · have shift : ((extExp b : ℤ) - 16446) = ((extExp b : ℤ) - 16383 + 0) + -63 := by ring
      rw [number, shift, scaled, zpow_add₀ two_ne_zero, onePlus, if_neg Bool.false_ne_true, value, scaled,
        Nat.cast_sub lead]
      norm_num
      ring
    · rw [if_neg Bool.false_ne_true]
      exact (scaled_le (m := extMant b - 2 ^ 63) (k := 62) (by omega) (-63)).trans_eq (by norm_num)
    · dsimp only; omega
    · intro; ring
    · rw [exactLog, decide_eq_false up]
      rfl

namespace Parts

variable {b : Ext80} {up : Bool} {k : ℤ} {d : Mag}

theorem half (parts : Parts b up k d) : value d ≤ 1 / 2 := by
  have := parts.distance
  split at this <;> linarith

theorem onePlus_pos (parts : Parts b up k d) : 0 < onePlus up (value d) := by
  have := value_nonneg d
  have := parts.half
  cases up <;> simp only [onePlus, Bool.false_eq_true, if_false, if_true] <;> linarith

theorem logb_eq (parts : Parts b up k d) :
    Real.logb 2 (extMagnitude b) = k + withSignOf up |Real.logb 2 (onePlus up (value d))| := by
  rw [parts.number, Real.logb_mul (by positivity) parts.onePlus_pos.ne', ← Real.rpow_intCast,
    Real.logb_rpow two_pos (by norm_num), ← logb_onePlus_sign up (value_nonneg d) parts.half]

/-- The factor lies from 3/4 to 3/2, so that the logarithm is at most 3/5. -/
theorem log_le (parts : Parts b up k d) : |Real.logb 2 (onePlus up (value d))| ≤ 3 / 5 := by
  have d0 := value_nonneg d
  have dist := parts.distance
  have five : ∀ x : ℝ, 1 ≤ x → x ≤ 3 / 2 → Real.logb 2 x ≤ 3 / 5 := by
    intro x x1 x2
    rw [Real.logb_le_iff_le_rpow one_lt_two (by linarith)]
    refine le_of_pow_le_pow_left₀ (n := 5) (by norm_num) (by positivity) ?_
    rw [← Real.rpow_natCast, ← Real.rpow_natCast, ← Real.rpow_mul two_pos.le]
    norm_num
    calc x ^ 5 ≤ (3 / 2) ^ 5 := pow_le_pow_left₀ (by linarith) x2 5
      _ ≤ 8 := by norm_num
  cases up
  · rw [if_neg Bool.false_ne_true] at dist
    rw [onePlus, if_neg Bool.false_ne_true, abs_of_nonneg (Real.logb_nonneg one_lt_two (by linarith))]
    exact five _ (by linarith) (by linarith)
  · rw [if_pos rfl] at dist
    rw [onePlus, if_pos rfl, abs_of_nonpos (Real.logb_nonpos one_lt_two (by linarith) (by linarith)), ← Real.logb_inv]
    refine five _ ((one_le_inv₀ (by linarith)).mpr (by linarith)) ?_
    rw [inv_le_comm₀ (by linarith) (by norm_num)]
    norm_num
    linarith

/-- The logarithm in fixed point, beside a whole number. -/
theorem near_fix (parts : Parts b up k d) :
    |((k * (fixOne : ℤ) + signed up (exactLogPlus up d).fix : ℤ) : ℝ) - Real.logb 2 (extMagnitude b) * fixOne| ≤
      3 / 4 * 2 ^ 188 := by
  have close := close_exactLogPlus up parts.half
  have fix := near_fix_value (exactLogPlus up d)
  have small := parts.log_le
  rw [parts.logb_eq]
  have nonneg := abs_nonneg (Real.logb 2 (onePlus up (value d)))
  generalize |Real.logb 2 (onePlus up (value d))| = l at *
  have near : |((exactLogPlus up d).fix : ℝ) - l * fixOne| ≤ 3 / 4 * 2 ^ 188 := by
    have cut := mul_le_mul_of_nonneg_right close fixOne_pos.le
    have size : 1 + (2 : ℝ) ^ (-68 : ℤ) * l * fixOne ≤ 3 / 4 * 2 ^ 188 := by rw [fixOne_cast]; norm_num; linarith
    calc |((exactLogPlus up d).fix : ℝ) - l * fixOne|
        = |((exactLogPlus up d).fix - value (exactLogPlus up d) * fixOne) + (value (exactLogPlus up d) - l) * fixOne| := by
          ring_nf
      _ ≤ 1 + 2 ^ (-68 : ℤ) * l * fixOne := by
          refine (abs_add_le _ _).trans (add_le_add fix ?_)
          rw [abs_mul, abs_of_pos fixOne_pos]
          exact cut
      _ ≤ 3 / 4 * 2 ^ 188 := size
  push_cast
  rw [signed_cast]
  cases up
  · simp only [withSignOf, Bool.false_eq_true, if_false]
    rw [show (k : ℝ) * fixOne + (exactLogPlus false d).fix - (k + l) * fixOne =
      (exactLogPlus false d).fix - l * fixOne by ring]
    exact near
  · simp only [withSignOf, if_true]
    rw [show (k : ℝ) * fixOne + -(exactLogPlus true d).fix - (k + -l) * fixOne =
      -((exactLogPlus true d).fix - l * fixOne) by ring, abs_neg]
    exact near

/-- Away from 1 the logarithm is not small. -/
theorem log_ge (parts : Parts b up k d) (hk : k ≠ 0) : 2 / 5 ≤ |Real.logb 2 (extMagnitude b)| := by
  have small := parts.log_le
  rw [← abs_neg] at small
  have whole : (1 : ℝ) ≤ |(k : ℝ)| := by
    rw [← Int.cast_abs]
    exact_mod_cast Int.one_le_abs hk
  rw [parts.logb_eq, ← logb_onePlus_sign up (value_nonneg d) parts.half]
  have := abs_sub_abs_le_abs_sub (k : ℝ) (-Real.logb 2 (onePlus up (value d)))
  rw [sub_neg_eq_add] at this
  linarith

end Parts

/-- The logarithm of a number other than 1: its sign and its magnitude. -/
theorem exactLog_spec {b : Ext80} (hb : extClass b = .normal) (ne : extMagnitude b ≠ 1) :
    ((exactLog b).1 = true ↔ extMagnitude b < 1) ∧ (exactLog b).2.sticky = false ∧
      Close (value (exactLog b).2) |Real.logb 2 (extMagnitude b)| (2 ^ (-67 : ℤ)) := by
  obtain ⟨up, k, d, parts⟩ := exists_parts hb
  rw [parts.log]
  by_cases hk : k = 0
  · rw [if_pos hk]
    have number := parts.number
    rw [hk, zpow_zero, one_mul] at number
    have d0 : 0 < value d := by
      refine (value_nonneg d).lt_of_ne fun zero => ne ?_
      rw [number, ← zero]
      cases up <;> simp [onePlus]
    refine ⟨?_, rfl, ?_⟩
    · rw [number]
      cases up
      · exact iff_of_false Bool.false_ne_true (by rw [onePlus, if_neg Bool.false_ne_true]; linarith)
      · exact iff_of_true rfl (by rw [onePlus, if_pos rfl]; linarith)
    · rw [number]
      exact (close_exactLogPlus up parts.half).mono (abs_nonneg _) (by norm_num)
  · rw [if_neg hk]
    have near := parts.near_fix
    have large := parts.log_ge hk
    have negative := Real.logb_neg_iff one_lt_two (magnitude_pos hb)
    generalize k * (fixOne : ℤ) + signed up (exactLogPlus up d).fix = v at *
    generalize Real.logb 2 (extMagnitude b) = l at *
    obtain ⟨lower, upper⟩ := abs_le.mp near
    have unit := fixOne_cast
    refine ⟨?_, rfl, ?_⟩
    · rw [decide_eq_true_iff, ← negative, ← Int.cast_lt_zero (R := ℝ)]
      have size : (2 : ℝ) ^ 188 ≤ 1 / 5 * fixOne := by rw [unit]; norm_num
      have pos := fixOne_pos
      constructor <;> intro h <;> by_contra other
      · rw [abs_of_nonneg (not_lt.mp other)] at large
        nlinarith
      · rw [abs_of_neg h] at large
        nlinarith
    · have split : value { m := v.natAbs, e := -256, sticky := false } - |l| = (|(v : ℝ)| - |l * fixOne|) / fixOne := by
        rw [value, scaled, abs_mul, abs_of_pos fixOne_pos, Nat.cast_natAbs, Int.cast_abs, unit, zpow_neg, sub_div,
          mul_div_cancel_right₀ _ (by positivity)]
        norm_num
        ring
      rw [Close, split, abs_div, abs_of_pos fixOne_pos, div_le_iff₀ fixOne_pos]
      refine (abs_abs_sub_abs_le_abs_sub _ _).trans (near.trans ?_)
      rw [unit]
      norm_num
      linarith


/-! ### Products with a logarithm (R521, R522) -/

/-- The product as the model delivers it. -/
def product (sign : Bool) (z : Mag) (whole : Bool) (tol : ℕ) (c : FCtl) : FRes :=
  if (whole && !(roundMant c.rc 64 sign z).2.2) = true then packNormal c 64 sign z else approxResult c tol sign z

theorem approxProduct_eq (c : FCtl) (tol : ℕ) {a : Ext80} (ha : extClass a = .normal) (neg : Bool) {l : Mag} (hl : l.m ≠ 0)
    (whole : Bool) :
    approxProduct c tol a neg l whole = c.inRange (product (extSign a != neg) ((extMag a).mul l) whole tol) := by
  have m0 : (l.m == 0) = false := by simpa using hl
  simp only [approxProduct, not_zero_of_normal ha, isNormal_eq ha, m0]
  rfl

theorem inRange_of_inside {y : ℝ} (low : (2 : ℝ) ^ (-16380 : ℤ) ≤ y) (high : y < 2 ^ (16380 : ℤ)) : InRange y :=
  ⟨(zpow_le_zpow_right₀ one_le_two (by norm_num)).trans low, high.trans (zpow_lt_zpow_right₀ one_lt_two (by norm_num))⟩

/-- A whole product that 64 bits hold is exact, and each other one is marked as inexact. -/
theorem product_pe (c : FCtl) (sign : Bool) {z : Mag} {y : ℝ} (hz : Holds z y) (st : z.sticky = false) (range : InRange y)
    (tol : ℕ) (normal : extClass (product sign z true tol c).val = .normal) :
    (product sign z true tol c).pe = true ↔ extMagnitude (product sign z true tol c).val ≠ y := by
  by_cases exact : (roundMant c.rc 64 sign z).2.2 = true
  · have result : product sign z true tol c = approxResult c tol sign z := by rw [product, exact]; rfl
    refine iff_of_true (by rw [result]; rfl) fun same => ?_
    rw [← same] at hz
    rw [roundMant_normal normal hz st] at exact
    cases exact
  · have result : product sign z true tol c = packNormal c 64 sign z := by
      rw [product, Bool.eq_false_of_not_eq_true exact]; rfl
    obtain ⟨-, -, -, -, -, -, -, inexact, -⟩ := packNormal_rounded c (p := 64) (by norm_num) le_rfl sign hz
      (ne_zero_of_holds hz st (inRange_pos range)) (fun h => by rw [st] at h; cases h) range
    rw [result]
    exact inexact

/-- Beside the product the result lies within the tolerance. -/
theorem product_approximates (c : FCtl) {tol : ℕ} (ht : tol ≤ 1024) (sign whole : Bool) {z : Mag} {y : ℝ}
    (st : z.sticky = false)
    (close : Close (value z) y (2 ^ (-66 : ℤ))) (exact : whole = true → value z = y) (low : (2 : ℝ) ^ (-16380 : ℤ) ≤ y)
    (high : y < 2 ^ (16380 : ℤ)) :
    (product sign z whole tol c).oe = false ∧ Approximates tol sign y (product sign z whole tol c) := by
  rw [product]
  split
  · rename_i h
    have holds := holds_value st
    rw [exact (Bool.and_eq_true_iff.mp h).1] at holds
    have range := inRange_of_inside low high
    obtain ⟨-, -, -, oe, -, normal, sign', -, e, e0, -, rounds⟩ := packNormal_rounded c (p := 64) (by norm_num) le_rfl sign
      holds (ne_zero_of_holds holds st (inRange_pos range)) (fun h => by rw [st] at h; cases h) range
    refine ⟨oe, normal, sign', e, e0, (abs_lt_of_roundsTo (by positivity) rounds).le.trans ?_⟩
    rw [show e + 1 - ((64 : ℕ) : ℤ) = e - 63 by push_cast; ring]
    exact le_mul_of_one_le_left (by positivity) (by linarith [(Nat.cast_nonneg tol : (0 : ℝ) ≤ tol)])
  · exact approxResult_spec c ht sign st close low high

/-- The product of a number with the magnitude of a logarithm. -/
theorem close_product (a : Ext80) {l : Mag} {y : ℝ} (close : Close (value l) y (2 ^ (-67 : ℤ))) (hy : 0 ≤ y) :
    Close (value ((extMag a).mul l)) (extMagnitude a * y) (2 ^ (-66 : ℤ)) := by
  have a0 : 0 ≤ extMagnitude a := by rw [← value_extMag]; exact value_nonneg _
  rw [value_mul]
  exact ((close_of_value (value_extMag a)).mul close a0 hy (by norm_num)).mono (mul_nonneg a0 hy) (by norm_num)

theorem sqrt_two_bounds : (2 : ℝ) / 3 < 1 / √2 ∧ (1 : ℝ) / √2 < 18 / 25 := by
  have low : (25 : ℝ) / 18 < √2 := Real.lt_sqrt_of_sq_lt (by norm_num)
  have high : √2 < (3 : ℝ) / 2 := (Real.sqrt_lt' (by norm_num)).mpr (by norm_num)
  constructor
  · rw [lt_div_iff₀ (by positivity)]; linarith
  · rw [div_lt_iff₀ (by positivity)]; linarith

theorem add_one_le_cast {a b : ℤ} (h : (a : ℝ) < b) : (a : ℝ) + 1 ≤ b := by exact_mod_cast h

/-- A number below `1 - 1/sqrt 2` stays clear of it, since it is a multiple of `2^-65`. -/
theorem gap_of_lt {b : Ext80} (hb : extClass b = .normal) (range : extMagnitude b < 1 - 1 / √2) :
    2 ^ (-132 : ℤ) ≤ 1 - 1 / √2 - extMagnitude b := by
  obtain ⟨low, high⟩ := sqrt_two_bounds
  by_cases small : extMagnitude b < 1 / 4
  · have : (2 : ℝ) ^ (-132 : ℤ) ≤ 1 / 50 := by norm_num
    linarith
  obtain ⟨-, top⟩ := binade_of_normal hb
  have exponent : (-65 : ℤ) ≤ (extExp b : ℤ) - 16446 := by
    have : (2 : ℝ) ^ (-2 : ℤ) < 2 ^ ((extExp b : ℤ) - 16383 + 1) :=
      ((by norm_num : (2 : ℝ) ^ (-2 : ℤ) ≤ 1 / 4).trans (not_lt.mp small)).trans_lt top
    have := (zpow_lt_zpow_iff_right₀ (one_lt_two (α := ℝ))).mp this
    omega
  have number := magnitude_normal hb
  rw [← scaled_align _ exponent] at number
  generalize extMant b * 2 ^ ((extExp b : ℤ) - 16446 - -65).toNat = n at *
  have half : (1 / √(2 : ℝ)) * (1 / √2) = 1 / 2 := by
    rw [div_mul_div_comm, one_mul, Real.mul_self_sqrt two_pos.le]
  generalize 1 / √(2 : ℝ) = s at *
  rw [number, scaled] at range ⊢
  have units : (1 : ℝ) - n * 2 ^ (-65 : ℤ) = (2 ^ 65 - n) * 2 ^ (-65 : ℤ) := by norm_num; ring
  have square : (2 : ℝ) ^ 130 < 2 * ((2 ^ 65 - n) * (2 ^ 65 - n)) := by
    have : s * s < (1 - n * 2 ^ (-65 : ℤ)) * (1 - n * 2 ^ (-65 : ℤ)) :=
      mul_self_lt_mul_self (by linarith) (by linarith)
    rw [half, units] at this
    norm_num at this ⊢
    linarith
  have whole : (2 : ℝ) ^ 130 + 1 ≤ 2 * ((2 ^ 65 - n) * (2 ^ 65 - n)) := by
    have := add_one_le_cast (a := 2 ^ 130) (b := 2 * ((2 ^ 65 - n) * (2 ^ 65 - n))) (by
      push_cast
      norm_num at square
      linarith)
    push_cast at this
    norm_num at this ⊢
    linarith
  have difference : (2 : ℝ) ^ (-131 : ℤ) ≤ (1 - n * 2 ^ (-65 : ℤ)) * (1 - n * 2 ^ (-65 : ℤ)) - s * s := by
    rw [half, units]
    norm_num at whole ⊢
    linarith
  have positive : (0 : ℝ) ≤ n * 2 ^ (-65 : ℤ) := by positivity
  generalize (n : ℝ) * 2 ^ (-65 : ℤ) = z at *
  have product : (2 : ℝ) ^ (-132 : ℤ) * 2 ≤ (1 - s - z) * 2 := by
    calc (2 : ℝ) ^ (-132 : ℤ) * 2 = 2 ^ (-131 : ℤ) := by norm_num
      _ ≤ (1 - s - z) * (1 - z + s) := difference.trans_eq (by ring)
      _ ≤ (1 - s - z) * 2 := mul_le_mul_of_nonneg_left (by linarith) (by linarith)
  linarith

/-- The bound of FYL2XP1 in fixed point. -/
theorem fix_lt_of_lt {b : Ext80} (hb : extClass b = .normal) (range : extMagnitude b < 1 - 1 / √2) :
    (extMag b).fix < fixOne - fixDiv fixOne (fixSqrt (2 * fixOne)) := by
  obtain ⟨low, high⟩ := sqrt_two_bounds
  have gap := gap_of_lt hb range
  have two := near_fixOne.smul 2
  rw [Nat.cast_ofNat, mul_one, mul_zero] at two
  have root := two.sqrt one_le_two (Nat.le_mul_of_pos_left _ two_pos)
    (Nat.mul_lt_mul_of_pos_right (by norm_num) (by unfold fixOne; positivity))
  have sqrt : 1 ≤ √(2 : ℝ) := Real.one_le_sqrt.mpr one_le_two
  have quotient := near_fixOne.div root (by linarith) (root.half_le (by linarith) (by norm_num)) (q := 1)
    (by rw [abs_one]; linarith)
  have fix := near_fix_extMag b
  obtain ⟨-, upper⟩ := abs_le.mp fix
  obtain ⟨-, bound⟩ := abs_le.mp quotient
  generalize 1 / √(2 : ℝ) = s at *
  have unit := fixOne_cast
  have sum : ((extMag b).fix : ℝ) + fixDiv fixOne (fixSqrt (2 * fixOne)) < fixOne := by
    have := mul_le_mul_of_nonneg_right gap fixOne_pos.le
    have size : 10 ≤ (2 : ℝ) ^ (-132 : ℤ) * fixOne := by rw [unit]; norm_num
    linarith
  have : (extMag b).fix + fixDiv fixOne (fixSqrt (2 * fixOne)) < fixOne := by exact_mod_cast sum
  omega

section Log

variable (c : FCtl) (tol : ℕ) {a b : Ext80} (ha : extClass a = .normal) (hb : extClass b = .normal)

include ha hb

/-- FYL2X of a positive number other than 1. -/
theorem approxYl2x_eq (sign : extSign b = false) (ne : extMagnitude b ≠ 1) : approxYl2x c tol b a =
    c.inRange (product (extSign a != (exactLog b).1) ((extMag a).mul (exactLog b).2) (extMant b == 2 ^ 63) tol) := by
  obtain ⟨-, -, close⟩ := exactLog_spec hb ne
  have pos : 0 < |Real.logb 2 (extMagnitude b)| := by
    rw [abs_pos]
    exact Real.logb_ne_zero_of_pos_of_ne_one one_lt_two (magnitude_pos hb) ne
  rw [approxYl2x, isNormal_eq hb, sign, if_pos (by decide)]
  exact approxProduct_eq c tol ha _ (m_ne_zero close (by norm_num) pos) _

omit ha in
/-- The logarithm of a power of two is exact. -/
theorem exactLog_power (power : extMant b = 2 ^ 63) (ne : extMagnitude b ≠ 1) :
    value (exactLog b).2 = |Real.logb 2 (extMagnitude b)| := by
  obtain ⟨up, k, d, parts⟩ := exists_parts hb
  have zero := parts.power.mpr power
  have d0 : value d = 0 := by rw [value, zero, scaled, Nat.cast_zero, zero_mul]
  have number := parts.number
  have one : onePlus up 0 = 1 := by cases up <;> simp [onePlus]
  rw [d0, one, mul_one] at number
  have hk : k ≠ 0 := by
    rintro rfl
    exact ne (by rw [number, zpow_zero])
  have fix : (exactLogPlus up d).fix = 0 := by
    rw [exactLogPlus, Mag.times, Mag.fix, zero]
    simp
  rw [parts.log, if_neg hk, fix, number, ← Real.rpow_intCast, Real.logb_rpow two_pos (by norm_num)]
  have signless : signed up 0 = 0 := by cases up <;> rfl
  rw [signless, add_zero, value, scaled, Int.natAbs_mul, Int.natAbs_natCast, Nat.cast_mul, fixOne_cast, Nat.cast_natAbs,
    Int.cast_abs, mul_assoc]
  norm_num

/-- FYL2XP1 inside its range takes the logarithm of `1 + b`. -/
theorem approxYl2xp1_eq (range : extMagnitude b < 1 - 1 / √2) : approxYl2xp1 c tol b a =
    c.inRange (product (extSign a != extSign b) ((extMag a).mul (exactLogPlus (extSign b) (extMag b))) false tol) := by
  have b0 := magnitude_pos hb
  have half : value (extMag b) ≤ 1 / 2 := by
    rw [value_extMag]
    linarith [sqrt_two_bounds.1]
  have ne : onePlus (extSign b) (extMagnitude b) ≠ 1 := by
    cases extSign b <;> simp only [onePlus, Bool.false_eq_true, if_false, if_true] <;> intro h <;> linarith
  have close := close_exactLogPlus (extSign b) half
  rw [value_extMag] at close half
  have pos : 0 < |Real.logb 2 (onePlus (extSign b) (extMagnitude b))| := by
    rw [abs_pos]
    refine Real.logb_ne_zero_of_pos_of_ne_one one_lt_two ?_ ne
    have := onePlus_bounds (neg := extSign b) b0 half
    linarith
  rw [approxYl2xp1, isNormal_eq hb, decide_eq_true (fix_lt_of_lt hb range), if_pos (by decide)]
  exact approxProduct_eq c tol ha _ (m_ne_zero close (by norm_num) pos) _

end Log

end Sys2Proof.Certificates.TranscendentalValues

/-! CERTIFICATE. The transcendental instructions of the VM87 on normal operands: results within the tolerance of the platform
(47_vm87_instructions.md R518-R522, 46_vm87_numerics.md U12). -/

namespace Sys2Proof.Certificates.Transcendentals

open Sys2Proof.Machine Sys2Proof.Certificates.Numbers Sys2Proof.Certificates.ExactResults
  Sys2Proof.Certificates.FixedPoint Sys2Proof.Certificates.Factors Sys2Proof.Certificates.Approximation
  Sys2Proof.Certificates.TranscendentalValues

/-- A product with a logarithm, near the ends of the exponent nowhere. -/
theorem product_inRange (c : FCtl) {tol : ℕ} (ht : tol ≤ 1024) (a : Ext80) (sign whole : Bool) {l : Mag} {y : ℝ}
    (close : Close (value l) y (2 ^ (-67 : ℤ))) (hy : 0 ≤ y) (exact : whole = true → value l = y)
    (low : (2 : ℝ) ^ (-16380 : ℤ) ≤ extMagnitude a * y) (high : extMagnitude a * y < 2 ^ (16380 : ℤ)) :
    Approximates tol sign (extMagnitude a * y) (c.inRange (product sign ((extMag a).mul l) whole tol)) :=
  inRange_approximates (product_approximates _ ht sign whole rfl (close_product a close hy)
    (fun h => by rw [value_mul, value_extMag, exact h]) low high)

theorem product_false_pe (c : FCtl) (sign : Bool) (z : Mag) (tol : ℕ) : (product sign z false tol c).pe = true := rfl

section

variable (c : FCtl) {a b : Ext80} (ha : extClass a = .normal)

include ha

/-- FYL2X of a power of two. -/
theorem yl2x_power {tol : ℕ} (ht : tol ≤ 1024) {k : ℤ} (hk : k ≠ 0) (least : -16382 ≤ k) (greatest : k ≤ 16383)
    (low : (2 : ℝ) ^ (-16380 : ℤ) ≤ extMagnitude a * |(k : ℝ)|) (high : extMagnitude a * |(k : ℝ)| < 2 ^ (16380 : ℤ)) :
    let r := approxYl2x c tol (mkExt false (16383 + k).toNat (2 ^ 63)) a
    (r.pe = true ↔ extMagnitude r.val ≠ extMagnitude a * |(k : ℝ)|) ∧
      Approximates tol (extSign a != decide (k < 0)) (extMagnitude a * |(k : ℝ)|) r := by
  have size : 1 ≤ (16383 + k).toNat ∧ (16383 + k).toNat ≤ 32766 := by omega
  have hb : extClass (mkExt false (16383 + k).toNat (2 ^ 63)) = .normal :=
    extClass_mkExt_normal _ size.1 size.2 le_rfl (by norm_num)
  have mant : extMant (mkExt false (16383 + k).toNat (2 ^ 63)) = 2 ^ 63 := extMant_mkExt _ _ (by norm_num)
  have number : extMagnitude (mkExt false (16383 + k).toNat (2 ^ 63)) = 2 ^ k := by
    rw [extMagnitude_mkExt _ size.1 (by omega) (by norm_num), scaled_two_pow]
    congr 1
    omega
  have sign : extSign (mkExt false (16383 + k).toNat (2 ^ 63)) = false := extSign_mkExt ..
  have ne : extMagnitude (mkExt false (16383 + k).toNat (2 ^ 63)) ≠ 1 := by
    rw [number]
    exact fun h => hk (zpow_right_injective₀ two_pos one_lt_two.ne' (h.trans (zpow_zero _).symm))
  generalize mkExt false (16383 + k).toNat (2 ^ 63) = p at *
  obtain ⟨negative, sticky, close⟩ := exactLog_spec hb ne
  have exact := exactLog_power hb mant ne
  have log : Real.logb 2 (extMagnitude p) = k := by
    rw [number, ← Real.rpow_intCast, Real.logb_rpow two_pos (by norm_num)]
  have neg : (exactLog p).1 = decide (k < 0) := by
    rw [Bool.eq_iff_iff, negative, decide_eq_true_iff, number, ← zpow_zero (2 : ℝ), zpow_lt_zpow_iff_right₀ one_lt_two]
  rw [log] at close exact
  have whole : (extMant p == 2 ^ 63) = true := by simpa using mant
  dsimp only
  rw [approxYl2x_eq c tol ha hb sign ne, neg, whole]
  have near := product_approximates { c with um := true } ht (extSign a != decide (k < 0)) true rfl
    (close_product a close (abs_nonneg _)) (fun _ => by rw [value_mul, value_extMag, exact]) low high
  refine ⟨?_, inRange_approximates near⟩
  rw [(FCtl.inRange_spec c _).2.2 near.1]
  refine product_pe _ _ ?_ rfl (inRange_of_inside low high) tol near.2.1
  rw [← exact, ← value_extMag, ← value_mul]
  exact holds_value rfl

/-- FYL2X of a number other than 1. -/
theorem yl2x_value {tol : ℕ} (ht : tol ≤ 1024) (hb : extClass b = .normal) (sign : extSign b = false)
    (ne : extMagnitude b ≠ 1)
    (low : (2 : ℝ) ^ (-16380 : ℤ) ≤ extMagnitude a * |Real.logb 2 (extMagnitude b)|)
    (high : extMagnitude a * |Real.logb 2 (extMagnitude b)| < 2 ^ (16380 : ℤ)) :
    ∃ neg : Bool, (neg = true ↔ extMagnitude b < 1) ∧
      Approximates tol (extSign a != neg) (extMagnitude a * |Real.logb 2 (extMagnitude b)|) (approxYl2x c tol b a) := by
  obtain ⟨negative, -, close⟩ := exactLog_spec hb ne
  refine ⟨(exactLog b).1, negative, ?_⟩
  rw [approxYl2x_eq c tol ha hb sign ne]
  exact product_inRange c ht a _ _ close (abs_nonneg _) (fun h => exactLog_power hb (by simpa using h) ne) low high

theorem yl2x_pe (tol : ℕ) (hb : extClass b = .normal) (sign : extSign b = false) (ne : extMagnitude b ≠ 1)
    (power : extMant b ≠ 2 ^ 63) : (approxYl2x c tol b a).pe = true := by
  have whole : (extMant b == 2 ^ 63) = false := by simpa using power
  rw [approxYl2x_eq c tol ha hb sign ne, whole]
  exact inRange_pe c (product_false_pe _ _ _ _)

theorem yl2xp1_pe (tol : ℕ) (hb : extClass b = .normal) (range : extMagnitude b < 1 - 1 / √2) :
    (approxYl2xp1 c tol b a).pe = true := by
  rw [approxYl2xp1_eq c tol ha hb range]
  exact inRange_pe c (product_false_pe _ _ _ _)

theorem yl2xp1_value {tol : ℕ} (ht : tol ≤ 1024) (hb : extClass b = .normal) (range : extMagnitude b < 1 - 1 / √2)
    (low : (2 : ℝ) ^ (-16380 : ℤ) ≤ extMagnitude a * |Real.logb 2 (1 + extNumber b)|)
    (high : extMagnitude a * |Real.logb 2 (1 + extNumber b)| < 2 ^ (16380 : ℤ)) :
    Approximates tol (extSign a != extSign b) (extMagnitude a * |Real.logb 2 (1 + extNumber b)|)
      (approxYl2xp1 c tol b a) := by
  have half : value (extMag b) ≤ 1 / 2 := by
    rw [value_extMag]
    linarith [sqrt_two_bounds.1]
  have sum : onePlus (extSign b) (extMagnitude b) = 1 + extNumber b := by
    rw [extNumber]
    cases extSign b
    · rfl
    · exact sub_eq_add_neg _ _
  have close := close_exactLogPlus (extSign b) half
  rw [value_extMag, sum] at close
  rw [approxYl2xp1_eq c tol ha hb range]
  exact product_inRange c ht a _ _ (close.mono (abs_nonneg _) (by norm_num)) (abs_nonneg _) (fun h => by cases h) low high

theorem f2xm1_pe (tol : ℕ) (sign : extSign a = false) (half : extMagnitude a ≤ 1 / 2) : (approx2xm1 c tol a).pe = true := by
  rw [approx2xm1_eq c tol ha sign half]
  rfl

theorem f2xm1_value {tol : ℕ} (ht : tol ≤ 1024) (sign : extSign a = false) (half : extMagnitude a ≤ 1 / 2)
    (low : (2 : ℝ) ^ (-16380 : ℤ) ≤ (2 : ℝ) ^ extMagnitude a - 1) (high : (2 : ℝ) ^ extMagnitude a - 1 < 2 ^ (16380 : ℤ)) :
    Approximates tol false ((2 : ℝ) ^ extMagnitude a - 1) (approx2xm1 c tol a) := by
  rw [approx2xm1_eq c tol ha sign half]
  exact (approxResult_spec c ht false rfl (close_exactExp ha half) low high).2

theorem fptan_pe (tol : ℕ) (half : Bool) (positive : extSign a = false) (range : extMagnitude a < Real.pi / 4) :
    (approxTanY c tol half a).pe = true := by
  rw [approxTanY_eq c tol half ha positive range]
  exact inRange_pe c rfl

theorem fpatan_pe (tol : ℕ) (hb : extClass b = .normal) (signA : extSign a = false) (signB : extSign b = false)
    (less : extMagnitude b < extMagnitude a) : (approxAtan c tol a b).pe = true := by
  rw [approxAtan_eq c tol ha hb signA signB less]
  exact inRange_pe c rfl

theorem fpatan_value {tol : ℕ} (ht : tol ≤ 1024) (hb : extClass b = .normal) (signA : extSign a = false)
    (signB : extSign b = false) (less : extMagnitude b < extMagnitude a)
    (low : (2 : ℝ) ^ (-16380 : ℤ) ≤ Real.arctan (extMagnitude b / extMagnitude a))
    (high : Real.arctan (extMagnitude b / extMagnitude a) < 2 ^ (16380 : ℤ)) :
    Approximates tol false (Real.arctan (extMagnitude b / extMagnitude a)) (approxAtan c tol a b) := by
  rw [approxAtan_eq c tol ha hb signA signB less]
  exact inRange_approximates (approxResult_spec _ ht false rfl (close_exactAtan ha hb less) low high)

end

end Sys2Proof.Certificates.Transcendentals

/-! CERTIFICATE. FSQRT, FRNDINT, FSCALE, FXTRACT and FPREM on normal numbers (47_vm87_instructions.md R511-R515,
46_vm87_numerics.md R410-R412). -/

namespace Sys2Proof.Certificates.SpecialValues

open Sys2Proof.Machine Sys2Proof.Certificates.Numbers Sys2Proof.Certificates.NumberArithmetic
  Sys2Proof.Certificates.Integers Sys2Proof.Certificates.FixedPoint Sys2Proof.Certificates.ExactResults

/-! ### Exact results -/

/-- A number with another sign. -/
theorem normal_withSign {v : Ext80} (hv : extClass v = .normal) (sign : Bool) :
    extClass (mkExt sign (extExp v) (extMant v)) = .normal ∧
      extMagnitude (mkExt sign (extExp v) (extMant v)) = extMagnitude v := by
  obtain ⟨e0, e1, lead⟩ := (extClass_normal_iff v).mp hv
  have e2 := extExp_lt v
  have size := extMant_lt v
  exact ⟨extClass_mkExt_normal _ (by omega) (by omega) lead size,
    extMagnitude_congr (extExp_mkExt _ _ e2) (extMant_mkExt _ _ size)⟩

/-- A number of at most 64 bits in the range of the normal numbers is one. -/
theorem exists_normal {m : ℕ} {e : ℤ} (h0 : m ≠ 0) (size : m < 2 ^ 64) (low : (2 : ℝ) ^ (-16382 : ℤ) ≤ scaled m e)
    (high : scaled m e < 2 ^ (16384 : ℤ)) : ∃ v, extClass v = .normal ∧ extMagnitude v = scaled m e := by
  obtain ⟨log, lead, few⟩ := intMant_bounds h0 size
  obtain ⟨bottom, top⟩ := scaled_log2 h0 e
  have least : -16382 < e + (Nat.log2 m : ℤ) + 1 :=
    (zpow_lt_zpow_iff_right₀ (one_lt_two (α := ℝ))).mp
      (low.trans_lt ((lt_add_of_pos_right _ (by positivity : (0 : ℝ) < 2 ^ e)).trans_le top))
  have greatest : e + (Nat.log2 m : ℤ) < 16384 :=
    (zpow_lt_zpow_iff_right₀ (one_lt_two (α := ℝ))).mp (bottom.trans_lt high)
  refine ⟨mkExt false (e + Nat.log2 m + 16383).toNat (m * 2 ^ (63 - Nat.log2 m)),
    extClass_mkExt_normal _ (by omega) (by omega) lead few, ?_⟩
  rw [extMagnitude_mkExt _ (by omega) (by omega) few, scaled_shift]
  congr 1
  omega

/-- A magnitude that a normal number has is delivered exactly. -/
theorem packNormal_magnitude (c : FCtl) {x : Mag} {v : Ext80} (hv : extClass v = .normal) (h : Holds x (extMagnitude v))
    (st : x.sticky = false) (sign : Bool) :
    let r := packNormal c 64 sign x
    r = FRes.exact r.val ∧ extSign r.val = sign ∧ extMagnitude r.val = extMagnitude v := by
  rw [packNormal_exact c hv h st]
  exact ⟨rfl, extSign_mkExt .., (normal_withSign hv sign).2⟩

/-! ### FSQRT (R511) -/

/-- The root cut off, with what is left as the part below the last place. -/
theorem holds_root {n : ℕ} (size : n < 2 ^ (2 * 100)) (e : ℤ) :
    Holds { m := isqrtFrom 100 n 0, e := e, sticky := isqrtFrom 100 n 0 * isqrtFrom 100 n 0 != n }
      (Real.sqrt n * 2 ^ e) := by
  have unit : (0 : ℝ) < 2 ^ e := by positivity
  obtain ⟨low, high⟩ := isqrtFrom_sqrt 100 n size
  have nonneg : (0 : ℝ) ≤ isqrtFrom 100 n 0 := Nat.cast_nonneg _
  generalize isqrtFrom 100 n 0 = r at *
  unfold Holds scaled
  split
  · rename_i rest
    have ne : r * r ≠ n := by simpa using rest
    have less : (r : ℝ) < Real.sqrt n := by
      refine low.lt_of_ne fun same => ne ?_
      have := Real.mul_self_sqrt (Nat.cast_nonneg (α := ℝ) n)
      rw [← same] at this
      exact_mod_cast this
    constructor <;> nlinarith
  · rename_i rest
    have square : r * r = n := by simpa using rest
    rw [← square, Nat.cast_mul, Real.sqrt_mul_self nonneg]

/-- A number of at least 193 bits has a root of more than 64 bits. -/
theorem le_log2_root {n : ℕ} (low : 2 ^ 192 ≤ n) (size : n < 2 ^ (2 * 100)) :
    isqrtFrom 100 n 0 ≠ 0 ∧ 64 ≤ Nat.log2 (isqrtFrom 100 n 0) := by
  obtain ⟨-, high⟩ := isqrtFrom_spec 100 n 0 (Nat.zero_le n) (by rw [Nat.zero_add, ← pow_add]; exact size)
  generalize isqrtFrom 100 n 0 = r at *
  have large : 2 ^ 96 ≤ r := by
    by_contra less
    have : (r + 1) * (r + 1) ≤ 2 ^ 96 * 2 ^ 96 := Nat.mul_le_mul (by omega) (by omega)
    omega
  have h0 : r ≠ 0 := by omega
  exact ⟨h0, (Nat.le_log2 h0).mpr ((by norm_num : 2 ^ 64 ≤ 2 ^ 96).trans large)⟩

theorem inRange_sqrt {v : Ext80} (hv : extClass v = .normal) : InRange (Real.sqrt (extMagnitude v)) := by
  obtain ⟨low, high⟩ := binade_of_normal hv
  have e0 := ((extClass_normal_iff v).mp hv).1
  have e2 := extExp_lt v
  constructor
  · refine Real.le_sqrt_of_sq_le ((?_ : _ ≤ _).trans low)
    rw [← zpow_natCast, ← zpow_mul]
    exact zpow_le_zpow_right₀ one_le_two (by push_cast; omega)
  · rw [Real.sqrt_lt' (by positivity)]
    refine high.trans_le ?_
    rw [← zpow_natCast, ← zpow_mul]
    exact zpow_le_zpow_right₀ one_le_two (by push_cast; omega)

theorem fpSqrt_rounded (c : FCtl) (hp : 1 ≤ c.prec) (hp' : c.prec ≤ 64) {a : Ext80} (ha : extClass a = .normal)
    (sign : extSign a = false) : RoundedResult c c.prec false (Real.sqrt (extMagnitude a)) (fpSqrt c (operand a)) := by
  have lead : 2 ^ 63 ≤ (extMag a).m := mant_of_normal ha
  have size : (extMag a).m < 2 ^ 64 := extMant_lt a
  have range := inRange_sqrt ha
  simp only [fpSqrt, operand_cls, ha]
  rw [show (operand a).v = a from rfl, sign, if_neg Bool.false_ne_true, extMagnitude_eq]
  rw [extMagnitude_eq] at range
  generalize extMag a = x at *
  obtain ⟨k, hk, k0, k1, even⟩ : ∃ k : ℕ, (if x.e % 2 = 0 then 130 else 131) = k ∧ 130 ≤ k ∧ k ≤ 131 ∧
    (x.e - k) % 2 = 0 := by
    refine ⟨_, rfl, ?_⟩
    split <;> omega
  rw [hk]
  have low : 2 ^ 192 ≤ x.m * 2 ^ k := by
    calc 2 ^ 192 ≤ 2 ^ 63 * 2 ^ 130 := by norm_num
      _ ≤ x.m * 2 ^ k := Nat.mul_le_mul lead (Nat.pow_le_pow_right two_pos k0)
  have high : x.m * 2 ^ k < 2 ^ (2 * 100) := by
    calc x.m * 2 ^ k < 2 ^ 64 * 2 ^ k := Nat.mul_lt_mul_of_pos_right size (by positivity)
      _ ≤ 2 ^ 64 * 2 ^ 131 := Nat.mul_le_mul_left _ (Nat.pow_le_pow_right two_pos k1)
      _ ≤ 2 ^ (2 * 100) := by norm_num
  have root : Real.sqrt (scaled x.m x.e) = Real.sqrt ((x.m * 2 ^ k : ℕ) : ℝ) * 2 ^ ((x.e - (k : ℤ)) / 2) := by
    have unit : (0 : ℝ) ≤ 2 ^ ((x.e - (k : ℤ)) / 2) := by positivity
    have split : scaled x.m x.e = ((x.m * 2 ^ k : ℕ) : ℝ) * (2 ^ ((x.e - (k : ℤ)) / 2) * 2 ^ ((x.e - (k : ℤ)) / 2)) := by
      rw [← zpow_add₀ two_ne_zero, ← two_mul, Int.mul_ediv_cancel' (Int.dvd_of_emod_eq_zero even), ← scaled, scaled_shift]
      congr 1
      ring
    rw [split, Real.sqrt_mul (Nat.cast_nonneg _), Real.sqrt_mul_self unit]
  obtain ⟨h0, log⟩ := le_log2_root low high
  rw [root] at range ⊢
  exact packNormal_rounded c hp hp' false (holds_root high _) h0 (fun _ => hp'.trans log) range

/-! ### FRNDINT (R514) -/

theorem extMag_m_pos {v : Ext80} (hv : extClass v = .normal) : (extMag v).m ≠ 0 := by
  have : 2 ^ 63 ≤ (extMag v).m := mant_of_normal hv
  omega

/-- A whole number that a normal number is rounded to is 0 or one itself. -/
theorem whole_normal (rc : ℕ) {a : Ext80} (ha : extClass a = .normal) (h0 : ((extMag a).round rc (extSign a) 0).1 ≠ 0) :
    ∃ v, extClass v = .normal ∧ extMagnitude v = scaled ((extMag a).round rc (extSign a) 0).1 0 := by
  obtain ⟨rounds, -⟩ := round_spec (holds_extMag a) (q := 0) (fun st => by cases st) rc (extSign a)
  by_cases whole : 0 ≤ (extMag a).e
  · refine ⟨a, ha, ?_⟩
    rw [Mag.round, if_pos whole, scaled_align _ whole]
    exact extMagnitude_eq a
  · have near := abs_lt_of_roundsTo (by norm_num) rounds
    have size : extMagnitude a < 2 ^ 63 := by
      rw [extMagnitude_eq]
      calc scaled (extMag a).m (extMag a).e < 2 ^ ((extMag a).e + (64 : ℕ)) := by
            rw [← scaled_two_pow]
            exact mul_lt_mul_of_pos_right (by exact_mod_cast extMant_lt a) (by positivity)
        _ ≤ 2 ^ (63 : ℤ) := zpow_le_zpow_right₀ one_le_two (by push_cast; omega)
        _ = 2 ^ 63 := by norm_num
    generalize ((extMag a).round rc (extSign a) 0).1 = n at *
    have few : n < 2 ^ 64 := by
      rw [scaled, zpow_zero, mul_one] at near
      have below : (n : ℝ) < 2 ^ 63 + 1 := by linarith [(abs_lt.mp near).2]
      have : n < 2 ^ 63 + 1 := by exact_mod_cast below
      omega
    obtain ⟨normal, magnitude⟩ := extOfIntValue_spec (n := n) (by exact_mod_cast h0) (by simpa using few)
    refine ⟨_, normal, ?_⟩
    rw [magnitude, Int.natAbs_natCast, scaled, zpow_zero, mul_one]

theorem fpRoundInt_normal (c : FCtl) {a : Ext80} (ha : extClass a = .normal) : fpRoundInt c (operand a) =
    let r := (extMag a).round c.rc (extSign a) 0
    let v := if r.1 = 0 then FRes.exact (extZero (extSign a))
      else packNormal c 64 (extSign a) { m := r.1, e := 0, sticky := false }
    { v with pe := r.2 } := by
  rw [← roundedMagnitude_eq, roundedMagnitude]
  simp only [fpRoundInt, operand_cls, ha]
  rfl

/-- A result without IE, DE, ZE, OE and UE, of the sign of the operand. -/
def Clean (a : Ext80) (r : FRes) : Prop :=
  r.ie = false ∧ r.de = false ∧ r.ze = false ∧ r.oe = false ∧ r.ue = false ∧ extSign r.val = extSign a

theorem fpRoundInt_spec (c : FCtl) {a : Ext80} (ha : extClass a = .normal) :
    let r := fpRoundInt c (operand a)
    Clean a r ∧ (r.pe = true ↔ extMagnitude r.val ≠ extMagnitude a) ∧
      RoundsTo c.rc (extSign a) (extMagnitude a) 1 (extMagnitude r.val) := by
  obtain ⟨rounds, inexact⟩ := round_spec (holds_extMag a) (q := 0) (fun st => by cases st) c.rc (extSign a)
  rw [zpow_zero] at rounds
  rw [fpRoundInt_normal c ha]
  dsimp only
  by_cases h0 : ((extMag a).round c.rc (extSign a) 0).1 = 0
  · rw [if_pos h0]
    rw [h0, scaled, Nat.cast_zero, zero_mul] at rounds inexact
    rw [show (FRes.exact (extZero (extSign a))).val = extZero (extSign a) from rfl, extMagnitude_extZero]
    exact ⟨⟨rfl, rfl, rfl, rfl, rfl, extSign_extZero _⟩, inexact, rounds⟩
  · obtain ⟨v, hv, magnitude⟩ := whole_normal c.rc ha h0
    rw [if_neg h0]
    have holds : Holds { m := ((extMag a).round c.rc (extSign a) 0).1, e := 0, sticky := false } (extMagnitude v) := by
      rw [magnitude]
      exact holds_exact _ _
    obtain ⟨exact, sign, value⟩ := packNormal_magnitude c hv holds rfl (extSign a)
    rw [← magnitude] at rounds inexact
    rw [value]
    rw [exact]
    exact ⟨⟨rfl, rfl, rfl, rfl, rfl, sign⟩, inexact, rounds⟩

/-! ### FSCALE (R512) -/

/-- The fields of a whole number as a temporary real. -/
theorem extMag_extOfIntValue {n : ℤ} (h0 : n ≠ 0) (h : n.natAbs < 2 ^ 64) : extMag (extOfIntValue n) =
    { m := n.natAbs * 2 ^ (63 - Nat.log2 n.natAbs), e := (Nat.log2 n.natAbs : ℤ) - 63, sticky := false } := by
  obtain ⟨hlog, -, size⟩ := intMant_bounds (Int.natAbs_ne_zero.mpr h0) h
  rw [extOfIntValue, if_neg h0]
  dsimp only
  rw [extMag, effExp, extExp_mkExt _ _ (by omega), if_neg (by omega), extMant_mkExt _ _ size]
  congr 1
  omega

/-- A whole number is not cut. -/
theorem truncValue_extOfIntValue {n : ℤ} (h : n.natAbs < 2 ^ 64) : truncValue (extOfIntValue n) = n := by
  by_cases h0 : n = 0
  · have mant : (extMag (extZero false)).m = 0 := extMant_mkExt false 0 (by norm_num)
    rw [h0, extOfIntValue_zero, truncValue, mant]
    simp [signed]
  obtain ⟨hlog, -, -⟩ := intMant_bounds (Int.natAbs_ne_zero.mpr h0) h
  have whole : (if 0 ≤ (Nat.log2 n.natAbs : ℤ) - 63 then
      n.natAbs * 2 ^ (63 - Nat.log2 n.natAbs) * 2 ^ ((Nat.log2 n.natAbs : ℤ) - 63).toNat
      else n.natAbs * 2 ^ (63 - Nat.log2 n.natAbs) / 2 ^ (-((Nat.log2 n.natAbs : ℤ) - 63)).toNat) = n.natAbs := by
    split
    · rw [show Nat.log2 n.natAbs = 63 by omega]; norm_num
    · rw [show (-((Nat.log2 n.natAbs : ℤ) - 63)).toNat = 63 - Nat.log2 n.natAbs by omega]
      exact Nat.mul_div_cancel _ (by positivity)
  rw [truncValue, extMag_extOfIntValue h0 h]
  dsimp only
  rw [whole, extSign_extOfIntValue, signed]
  by_cases neg : n < 0
  · rw [decide_eq_true neg, if_pos rfl]; omega
  · rw [decide_eq_false neg, if_neg Bool.false_ne_true]; omega

/-- A whole number other than 0 is not below one. -/
theorem belowOne_extOfIntValue {n : ℤ} (h : n.natAbs < 2 ^ 64) :
    (belowOne (extOfIntValue n) && !(operand (extOfIntValue n)).cls.zeroLike) = false := by
  by_cases h0 : n = 0
  · subst h0; decide
  obtain ⟨normal, magnitude⟩ := extOfIntValue_spec h0 h
  obtain ⟨low, high⟩ := top_bounds (holds_extMag (extOfIntValue n)) (extMag_m_pos normal)
  have top : ¬(extMag (extOfIntValue n)).top < 0 := by
    intro less
    have one : (1 : ℝ) ≤ n.natAbs := by exact_mod_cast Int.natAbs_pos.mpr h0
    rw [← magnitude, ← zpow_zero (2 : ℝ)] at one
    have := (zpow_lt_zpow_iff_right₀ (one_lt_two (α := ℝ))).mp (one.trans_lt high)
    omega
  have mant : (extMant (extOfIntValue n) == 0) = false := by
    have := mant_of_normal normal
    rw [beq_eq_false_iff_ne]
    omega
  rw [belowOne, mant, decide_eq_false top]
  rfl

/-- The last bound of FSCALE is not passed by a whole number. -/
theorem not_above_bound {n : ℤ} (h : n.natAbs < 2 ^ 64) : ((n.natAbs == 2 ^ 15) &&
    relFinite (mkExt false (extExp (extOfIntValue n)) (extMant (extOfIntValue n))) (mkExt false 0x400E (2 ^ 63)) == .gt) =
      false := by
  by_cases bound : n.natAbs = 2 ^ 15
  · have h0 : n ≠ 0 := by rintro rfl; cases bound
    obtain ⟨normal, magnitude⟩ := extOfIntValue_spec h0 h
    have left : extNumber (mkExt false (extExp (extOfIntValue n)) (extMant (extOfIntValue n))) = 2 ^ 15 := by
      rw [extNumber, extSign_mkExt, if_neg Bool.false_ne_true, (normal_withSign normal false).2, magnitude, bound]
      norm_num
    have right : extNumber (mkExt false 0x400E (2 ^ 63)) = 2 ^ 15 := by
      rw [extNumber, extSign_mkExt, if_neg Bool.false_ne_true,
        extMagnitude_mkExt _ (by norm_num) (by norm_num) (by norm_num),
        scaled_two_pow]
      norm_num
    rw [relFinite_eq, left, right, if_neg (lt_irrefl _), if_pos rfl]
    exact Bool.and_false _
  · rw [beq_eq_false_iff_ne.mpr bound]
    rfl

theorem fpScale_spec (c : FCtl) {a : Ext80} (ha : extClass a = .normal) {k : ℤ} (few : k.natAbs ≤ 2 ^ 15)
    (low : 1 ≤ (extExp a : ℤ) + k) (high : (extExp a : ℤ) + k ≤ 32766) :
    fpScale c (operand a) { v := extOfIntValue k, den := false } =
      FRes.exact (mkExt (extSign a) ((extExp a : ℤ) + k).toNat (extMant a)) := by
  have size : k.natAbs < 2 ^ 64 := few.trans_lt (by norm_num)
  obtain ⟨nanA, infA, pseudoA, -, -, oddA⟩ := plain_tests (.inr ha)
  obtain ⟨nanB, infB, -, -, -, -⟩ := plain_tests (plain_extOfIntValue size)
  obtain ⟨zeroA, -⟩ := normal_tests ha
  have trunc := truncValue_extOfIntValue size
  have below := belowOne_extOfIntValue size
  have bound := not_above_bound size
  have largest : decide (2 ^ 15 < k.natAbs) = false := decide_eq_false (by omega)
  have e0 := ((extClass_normal_iff a).mp ha).1
  have lead := mant_of_normal ha
  have mant := extMant_lt a
  have normal : extClass (mkExt (extSign a) ((extExp a : ℤ) + k).toNat (extMant a)) = .normal :=
    extClass_mkExt_normal _ (by omega) (by omega) lead mant
  have holds : Holds { extMag a with e := (extMag a).e + k }
      (extMagnitude (mkExt (extSign a) ((extExp a : ℤ) + k).toNat (extMant a))) := by
    rw [extMagnitude_mkExt _ (by omega) (by omega) mant]
    have exponent : (((extExp a : ℤ) + k).toNat : ℤ) - 16446 = (extMag a).e + k := by
      rw [extMag, effExp, if_neg e0]
      dsimp only
      omega
    rw [exponent]
    exact holds_exact _ _
  have exact := packNormal_exact c normal holds rfl (extSign a)
  rw [extExp_mkExt _ _ (by omega), extMant_mkExt _ _ mant] at exact
  rw [show ({ v := extOfIntValue k, den := false } : Opnd) = operand (extOfIntValue k) from rfl, fpScale, scaleValue]
  rw [show (operand a).v = a from rfl, show (operand (extOfIntValue k)).v = extOfIntValue k from rfl]
  simp only [nanA, infA, nanB, infB, zeroA, pseudoA, oddA, trunc, below, largest, bound, Bool.or_self, Bool.false_eq_true,
    if_false, exact]
  rfl

/-! ### FXTRACT (R515) -/

theorem fpExtract_spec {a : Ext80} (ha : extClass a = .normal) :
    let r := fpExtract (operand a)
    r.1 = false ∧ extSign r.2.2 = extSign a ∧ 1 ≤ extMagnitude r.2.2 ∧ extMagnitude r.2.2 < 2 ∧
      ∃ e : ℤ, r.2.1 = extOfIntValue e ∧ extMagnitude a = extMagnitude r.2.2 * 2 ^ e := by
  have e0 := ((extClass_normal_iff a).mp ha).1
  have lead := mant_of_normal ha
  have size := extMant_lt a
  have result : fpExtract (operand a) = (false, extOfField (effExp a), mkExt (extSign a) 0x3FFF (extMant a)) := by
    simp only [fpExtract, operand_cls, ha]
    rfl
  have normal : extClass (mkExt (extSign a) 0x3FFF (extMant a)) = .normal :=
    extClass_mkExt_normal _ (by norm_num) (by norm_num) lead size
  have number := extMagnitude_mkExt (extSign a) (e := 0x3FFF) (by norm_num) (by norm_num) size
  obtain ⟨low, high⟩ := binade_of_normal normal
  rw [extExp_mkExt _ _ (by norm_num)] at low high
  rw [result]
  refine ⟨rfl, extSign_mkExt .., by norm_num at low; exact low, by norm_num at high; exact high,
    (effExp a : ℤ) - 16383, rfl, ?_⟩
  rw [number, magnitude_normal ha, effExp, if_neg e0, scaled, scaled, mul_assoc, ← zpow_add₀ two_ne_zero]
  congr 2
  push_cast
  ring

/-! ### FPREM (R513) -/

/-- The remainder of two numbers of one exponent. -/
theorem remainder_spec (n : ℕ) {d : ℕ} (hd : 0 < d) (e : ℤ) :
    scaled n e - (n / d : ℕ) * scaled d e = scaled (n % d) e ∧ scaled (n % d) e < scaled d e := by
  have unit : (0 : ℝ) < 2 ^ e := by positivity
  have division : (n : ℝ) = d * (n / d : ℕ) + (n % d : ℕ) := by exact_mod_cast (Nat.div_add_mod n d).symm
  refine ⟨?_, mul_lt_mul_of_pos_right (by exact_mod_cast Nat.mod_lt n hd) unit⟩
  rw [scaled, scaled, scaled]
  linear_combination 2 ^ e * division

/-- Within 63 binary places one execution is complete. -/
theorem gap_lt {a b : Ext80} (ha : extClass a = .normal) (hb : extClass b = .normal)
    (near : extMagnitude a < 2 ^ 63 * extMagnitude b) : (extMag a).top - (extMag b).top < 64 := by
  obtain ⟨low, -⟩ := top_bounds (holds_extMag a) (extMag_m_pos ha)
  obtain ⟨-, high⟩ := top_bounds (holds_extMag b) (extMag_m_pos hb)
  have : (2 : ℝ) ^ (extMag a).top < 2 ^ ((63 : ℤ) + ((extMag b).top + 1)) := by
    calc (2 : ℝ) ^ (extMag a).top ≤ extMagnitude a := low
      _ < 2 ^ 63 * extMagnitude b := near
      _ ≤ 2 ^ (63 : ℤ) * 2 ^ ((extMag b).top + 1) := mul_le_mul_of_nonneg_left high.le (by positivity)
      _ = 2 ^ ((63 : ℤ) + ((extMag b).top + 1)) := (zpow_add₀ two_ne_zero _ _).symm
  have := (zpow_lt_zpow_iff_right₀ (one_lt_two (α := ℝ))).mp this
  omega

/-- The remainder that is left of the mantissas, brought to the smaller exponent. -/
theorem fpRem_complete (c : FCtl) {a b : Ext80} (ha : extClass a = .normal) (hb : extClass b = .normal)
    (near : extMagnitude a < 2 ^ 63 * extMagnitude b) : ∃ (n d : ℕ) (e : ℤ), 0 < d ∧ n % d < 2 ^ 64 ∧
      extMagnitude a = scaled n e ∧ extMagnitude b = scaled d e ∧
      fpRem c (operand a) (operand b) =
        let v := if n % d = 0 then FRes.exact (extZero (extSign a))
          else packNormal c 64 (extSign a) { m := n % d, e := e, sticky := false }
        ({ v with de := false, oe := false, pe := false }, true, n / d) := by
  obtain ⟨nanA, infA, -⟩ := plain_tests (.inr ha)
  obtain ⟨nanB, infB, -, unnormalB, denormalB, -⟩ := plain_tests (.inr hb)
  obtain ⟨-, zeroA⟩ := normal_tests ha
  obtain ⟨-, zeroB⟩ := normal_tests hb
  have sizeA : (extMag a).m < 2 ^ 64 := extMant_lt a
  have sizeB : (extMag b).m < 2 ^ 64 := extMant_lt b
  have gap := gap_lt ha hb near
  have mB := extMag_m_pos hb
  obtain ⟨lowA, lowB⟩ := smaller_le (extMag a).e (extMag b).e
  have one : (extMag a).e ≤ (if (extMag a).e ≤ (extMag b).e then (extMag a).e else (extMag b).e) ∨
      (extMag b).e ≤ (if (extMag a).e ≤ (extMag b).e then (extMag a).e else (extMag b).e) := by split <;> simp
  rw [extMagnitude_eq, extMagnitude_eq, ← scaled_align _ lowA, ← scaled_align _ lowB]
  simp only [fpRem, nanA, infA, nanB, infB, unnormalB, denormalB, zeroA, zeroB, Bool.or_self, Bool.false_eq_true, if_false]
  rw [show (operand a).v = a from rfl, show (operand b).v = b from rfl, if_pos gap, pow_zero, mul_one]
  generalize (if (extMag a).e ≤ (extMag b).e then (extMag a).e else (extMag b).e) = e at *
  have pos : 0 < (extMag b).m * 2 ^ ((extMag b).e - e).toNat := by positivity
  refine ⟨_, _, e, pos, ?_, rfl, rfl, ?_⟩
  · rcases one with h | h
    · refine (Nat.mod_le _ _).trans_lt ?_
      rwa [show ((extMag a).e - e).toNat = 0 by omega, pow_zero, mul_one]
    · refine (Nat.mod_lt _ pos).trans ?_
      rwa [show ((extMag b).e - e).toNat = 0 by omega, pow_zero, mul_one]
  · rw [decide_eq_true (Nat.mod_lt _ pos), if_pos rfl]
    rfl

theorem fpRem_spec (c : FCtl) {a b : Ext80} (ha : extClass a = .normal) (hb : extClass b = .normal)
    (near : extMagnitude a < 2 ^ 63 * extMagnitude b) :
    let r := fpRem c (operand a) (operand b)
    ∃ q : ℕ, let left := extMagnitude a - q * extMagnitude b
      0 ≤ left ∧ left < extMagnitude b ∧
      (left = 0 ∨ (2 : ℝ) ^ (-16382 : ℤ) ≤ left →
        Clean a r.1 ∧ r.1.pe = false ∧ extMagnitude r.1.val = left ∧ r.2.1 = true ∧ r.2.2 % 8 = q % 8) := by
  obtain ⟨n, d, e, pos, size, numberA, numberB, result⟩ := fpRem_complete c ha hb near
  obtain ⟨left, less⟩ := remainder_spec n pos e
  have high : scaled d e < 2 ^ (16384 : ℤ) := by
    rw [← numberB]
    refine (binade_of_normal hb).2.trans_le (zpow_le_zpow_right₀ one_le_two ?_)
    have := ((extClass_normal_iff b).mp hb).2.1
    have := extExp_lt b
    omega
  rw [result]
  dsimp only
  refine ⟨n / d, ?_⟩
  rw [numberA, numberB, left]
  refine ⟨by rw [scaled]; positivity, less, fun range => ?_⟩
  by_cases h0 : n % d = 0
  · rw [if_pos h0, h0]
    refine ⟨⟨rfl, rfl, rfl, rfl, rfl, extSign_extZero _⟩, rfl, ?_, rfl, rfl⟩
    rw [show (FRes.exact (extZero (extSign a))).val = extZero (extSign a) from rfl, extMagnitude_extZero, scaled,
      Nat.cast_zero, zero_mul]
  · have some : scaled (n % d) e ≠ 0 := by
      rw [scaled]
      have : (0 : ℝ) < (n % d : ℕ) := by exact_mod_cast Nat.pos_of_ne_zero h0
      positivity
    obtain ⟨v, hv, magnitude⟩ := exists_normal h0 size (range.resolve_left some) (less.trans high)
    have holds : Holds { m := n % d, e := e, sticky := false } (extMagnitude v) := by
      rw [magnitude]
      exact holds_exact _ _
    obtain ⟨exact, sign, value⟩ := packNormal_magnitude c hv holds rfl (extSign a)
    rw [if_neg h0]
    refine ⟨⟨?_, rfl, ?_, rfl, ?_, sign⟩, rfl, value.trans magnitude, rfl, rfl⟩ <;> rw [exact] <;> rfl

end Sys2Proof.Certificates.SpecialValues

/-! CERTIFICATE. The special computing instructions of the VM87: their results on numbers, the flags they may set, and what
they read, replace, push and pop (47_vm87_instructions.md R511-R522, R556). -/

namespace Sys2Proof.Certificates.SpecialOperations

open Sys2Proof.Machine Sys2Proof.Certificates.Numbers Sys2Proof.Certificates.NumberArithmetic
  Sys2Proof.Certificates.EscapeInstructions Sys2Proof.Certificates.StackMoves Sys2Proof.Certificates.SpecialValues
  Sys2Proof.Certificates.Transcendentals Sys2Proof.Certificates.TranscendentalValues

/-! ### The flags (R556) -/

theorem packNormal_flags (c : FCtl) (p : ℕ) (sign : Bool) (x : Mag) :
    (packNormal c p sign x).ie = false ∧ (packNormal c p sign x).de = false ∧ (packNormal c p sign x).ze = false := by
  unfold packNormal
  dsimp only
  split_ifs <;> exact ⟨rfl, rfl, rfl⟩

theorem packAt_flags (c : FCtl) (p : ℕ) (sign : Bool) (x : Mag) (field : ℕ) :
    (packAt c p sign x field).de = false ∧ (packAt c p sign x field).ze = false := by
  unfold packAt
  dsimp only
  split
  · exact ⟨rfl, rfl⟩
  · exact (packNormal_flags c p sign x).2

theorem packUnnormal_flags (c : FCtl) (p : ℕ) (sign : Bool) (x : Mag) (lo hi : ℤ) :
    (packUnnormal c p sign x lo hi).de = false ∧ (packUnnormal c p sign x lo hi).ze = false := by
  unfold packUnnormal
  dsimp only
  generalize (if lo < 1 then 1 else lo) = low
  generalize (if 32766 < hi then 32766 else hi) = high
  split
  · exact packAt_flags ..
  · exact (packNormal_flags c p sign x).2

theorem scaleValue_flags (c : FCtl) (x y : Opnd) : (scaleValue c x y).de = false ∧ (scaleValue c x y).ze = false := by
  unfold scaleValue
  dsimp only
  split
  · exact ⟨rfl, rfl⟩
  split
  · split <;> exact ⟨rfl, rfl⟩
  split
  · exact ⟨rfl, rfl⟩
  split
  · exact ⟨rfl, rfl⟩
  split
  · exact ⟨rfl, rfl⟩
  split
  · exact ⟨rfl, rfl⟩
  split
  · exact packUnnormal_flags ..
  · exact (packNormal_flags ..).2

theorem fpScale_flags (c : FCtl) (x y : Opnd) :
    (fpScale c x y).de = false ∧ (fpScale c x y).ze = false ∧ (fpScale c x y).pe = false :=
  ⟨(scaleValue_flags c x y).1, (scaleValue_flags c x y).2, rfl⟩

theorem fpRoundInt_flags (c : FCtl) (x : Opnd) : (fpRoundInt c x).de = false ∧ (fpRoundInt c x).ze = false := by
  have normal (m : ℕ) := (packNormal_flags c 64 (extSign x.v) { m := m, e := 0, sticky := false }).2
  unfold fpRoundInt
  split
  case h_6 =>
    dsimp only
    split_ifs
    · exact ⟨rfl, rfl⟩
    · exact normal _
    · exact ⟨rfl, rfl⟩
    · exact normal _
  all_goals exact ⟨rfl, rfl⟩

/-- A result without IE, DE and ZE. -/
def Quiet (r : FRes) : Prop := r.ie = false ∧ r.de = false ∧ r.ze = false

theorem quiet_approxResult (c : FCtl) (tol : ℕ) (sign : Bool) (x : Mag) : Quiet (approxResult c tol sign x) :=
  packNormal_flags c 64 sign (x.near c tol)

theorem quiet_approx2xm1 (c : FCtl) (tol : ℕ) (a : Ext80) : Quiet (approx2xm1 c tol a) := by
  unfold approx2xm1
  split_ifs
  · exact ⟨rfl, rfl, rfl⟩
  · exact quiet_approxResult ..
  · exact ⟨rfl, rfl, rfl⟩

/-- A result that may set PE alone. -/
def PeAlone (r : FRes) : Prop := r.ie = false ∧ r.de = false ∧ r.ze = false ∧ r.oe = false ∧ r.ue = false

theorem peAlone_inRange (c : FCtl) {f : FCtl → FRes} (h : Quiet (f { c with um := true })) : PeAlone (c.inRange f) := by
  obtain ⟨oe, ue, -⟩ := FCtl.inRange_spec c f
  obtain ⟨ie, de, ze⟩ := h
  suffices quiet : Quiet (c.inRange f) from ⟨quiet.1, quiet.2.1, quiet.2.2, oe, ue⟩
  unfold FCtl.inRange
  dsimp only
  split
  · exact ⟨rfl, rfl, rfl⟩
  · exact ⟨ie, de, ze⟩

theorem peAlone_exact (v : Ext80) : PeAlone (FRes.exact v) := ⟨rfl, rfl, rfl, rfl, rfl⟩

theorem peAlone_undefined (c : FCtl) : PeAlone c.undefinedResult := ⟨rfl, rfl, rfl, rfl, rfl⟩

theorem peAlone_tan (c : FCtl) (tol : ℕ) (half : Bool) (a : Ext80) : PeAlone (approxTanY c tol half a) := by
  unfold approxTanY
  split_ifs
  · exact peAlone_exact _
  · exact peAlone_inRange c (quiet_approxResult ..)
  · exact peAlone_undefined c

theorem peAlone_atan (c : FCtl) (tol : ℕ) (a b : Ext80) : PeAlone (approxAtan c tol a b) := by
  unfold approxAtan
  split_ifs
  · exact peAlone_inRange c (quiet_approxResult ..)
  · exact peAlone_undefined c

theorem peAlone_product (c : FCtl) (tol : ℕ) (y : Ext80) (neg : Bool) (l : Mag) (whole : Bool) :
    PeAlone (approxProduct c tol y neg l whole) := by
  unfold approxProduct
  dsimp only
  split_ifs
  · exact peAlone_exact _
  · exact peAlone_exact _
  · refine peAlone_inRange c ?_
    dsimp only
    split_ifs
    · exact packNormal_flags ..
    · exact quiet_approxResult ..
  · exact peAlone_undefined c

theorem peAlone_yl2x (c : FCtl) (tol : ℕ) (a b : Ext80) : PeAlone (approxYl2x c tol a b) := by
  unfold approxYl2x
  split_ifs
  · exact peAlone_product ..
  · exact peAlone_undefined c

theorem peAlone_yl2xp1 (c : FCtl) (tol : ℕ) (a b : Ext80) : PeAlone (approxYl2xp1 c tol a b) := by
  unfold approxYl2xp1
  split_ifs
  · exact peAlone_product ..
  · exact peAlone_undefined c

/-! ### FYL2X of 1 (R521, R434, R437) -/

/-- The logarithm of 1. -/
theorem yl2x_one (c : FCtl) (tol : ℕ) (b : Ext80) : approxYl2x c tol (mkExt false 0x3FFF (2 ^ 63)) b =
    if (extClass b == .zero || isNormal b) = true then FRes.exact (extZero c.looseSign) else c.undefinedResult := by
  have one : extClass (mkExt false 0x3FFF (2 ^ 63)) = .normal :=
    extClass_mkExt_normal _ (by norm_num) (by norm_num) le_rfl (by norm_num)
  have log : (exactLog (mkExt false 0x3FFF (2 ^ 63))).2.m = 0 := by
    rw [exactLog, extMant_mkExt _ _ (by norm_num), extExp_mkExt _ _ (by norm_num), decide_eq_false (by norm_num)]
    norm_num [exactLogPlus, Mag.times]
  rw [approxYl2x, isNormal_eq one, extSign_mkExt, if_pos (by decide), approxProduct]
  dsimp only
  rw [log]
  rfl

theorem defined {b : Ext80} (h : extClass b = .zero ∨ extClass b = .normal) :
    (extClass b == .zero || isNormal b) = true := by
  rw [isNormal]
  rcases h with h | h <;> rw [h] <;> rfl

theorem not_defined {b : Ext80} (zeroLike : (extClass b).zeroLike = false) (normal : extClass b ≠ .normal) :
    ¬(extClass b == .zero || isNormal b) = true := by
  have zero : extClass b ≠ .zero := by
    intro h
    rw [h] at zeroLike
    cases zeroLike
  simp [isNormal, zero, normal]

/-! ### The sign bit (R516, R517) -/

theorem withSign_toNat (g : Bool → Bool) (v : Ext80) :
    (withSign g v).toNat = bitNat (g (extSign v)) * 2 ^ 79 + v.toNat % 2 ^ 79 := by
  rw [withSign, mkExt_toNat, extExp, extMant, fieldNat, fieldNat]
  omega

theorem withSign_false (v : Ext80) : withSign (fun _ => false) v = v &&& BitVec.ofNat 80 (2 ^ 79 - 1) := by
  apply BitVec.eq_of_toNat_eq
  rw [withSign_toNat, BitVec.toNat_and, BitVec.toNat_ofNat, Nat.mod_eq_of_lt (a := 2 ^ 79 - 1) (by norm_num),
    Nat.and_two_pow_sub_one_eq_mod, bitNat, if_neg Bool.false_ne_true, zero_mul, zero_add]

theorem withSign_not (v : Ext80) : withSign not v = v ^^^ BitVec.ofNat 80 (2 ^ 79) := by
  have size := v.isLt
  have top : v.toNat / 2 ^ 79 = 0 ∨ v.toNat / 2 ^ 79 = 1 := by omega
  apply BitVec.eq_of_toNat_eq
  rw [withSign_toNat, BitVec.toNat_xor, BitVec.toNat_ofNat, Nat.mod_eq_of_lt (a := 2 ^ 79) (by norm_num),
    ← Nat.div_add_mod (v.toNat ^^^ 2 ^ 79) (2 ^ 79), Nat.xor_div_two_pow, Nat.xor_mod_two_pow, Nat.mod_self, Nat.xor_zero,
    Nat.div_self (by norm_num), extSign_eq_testBit, mul_comm]
  rcases top with h | h <;> rw [h] <;> rfl

/-! ### The operations of the instructions (R462) -/

/-- What an instruction delivers into ST(0). -/
def intoTop (f : Fpu) (r : FRes) : Fpu := f.deliver r fun h v => h.put 0 v

/-- What an instruction of two operands delivers into the new ST(0). -/
def intoBelow (f : Fpu) (r : FRes) : Fpu := f.deliver r fun h v => h.pop.put 0 v

theorem intoTop_withEp (f e : Fpu) (r : FRes) : intoTop (withEp f e) r = withEp (intoTop f r) e :=
  withEp_deliver f e r fun _ _ => rfl

theorem intoBelow_withEp (f e : Fpu) (r : FRes) : intoBelow (withEp f e) r = withEp (intoBelow f r) e :=
  withEp_deliver f e r fun _ _ => rfl

theorem pushPair_withEp (f e : Fpu) (first : FRes) (second : Ext80) :
    (withEp f e).pushPair first second = withEp (f.pushPair first second) e := by
  unfold Fpu.pushPair
  exact withEp_deliver f e _ fun _ _ => rfl

/-- FPREM delivers its result with the condition codes. -/
def withCodes (f : Fpu) (r : FRes × Bool × ℕ) : Fpu :=
  f.deliver r.1 fun h v =>
    ((h.setCodes (r.2.2 / 2 % 2 == 1) (!r.2.1) (r.2.2 / 4 % 2 == 1)).setC1 (r.2.2 % 2 == 1)).put 0 v

theorem withCodes_withEp (f e : Fpu) (r : FRes × Bool × ℕ) : withCodes (withEp f e) r = withEp (withCodes f r) e :=
  withEp_deliver f e r.1 fun _ _ => rfl

theorem not_bad {a : Opnd} (good : a.cls ≠ .bad) : ¬(a.cls == .bad) = true := by simpa using good

theorem neither_bad {a b : Opnd} (goodA : a.cls ≠ .bad) (goodB : b.cls ≠ .bad) :
    ¬(a.cls == .bad || b.cls == .bad) = true := by simp [goodA, goodB]

section Instructions

variable {s : State} (ready : s.FpuReady)

include ready

/-- An ESC that uses one free value and is otherwise one operation on the VM87. -/
theorem becomes_of_free {i : Instr} (y n second : ℕ) {k : State → Result} {g : ℕ → Fpu → Fpu} (keeps : ∀ j, KeepsEp (g j))
    (run : exec i s = escReg false 1 second s k)
    (after : k (s.noteEp 1 second) =
      .next ((s.noteEp 1 second).bump.setFpu (g (s.noteEp 1 second).free (s.noteEp 1 second).fpu)))
    (code : encode i = encFReg 1 y n) (hs : 192 + 8 * y + n = second := by norm_num) (size : second < 256 := by norm_num) :
    FpuBecomes s i none (g (s.noteEp 1 second).free s.fpu) := by
  refine becomes_of_escReg ready (free := (s.noteEp 1 second).free + 1) (by norm_num) hs size code run (after.trans ?_)
  conv_lhs => rw [noteEp_fpu_withEp s 1 second, keeps]
  rfl

theorem monadic_becomes {i : Instr} (y n second : ℕ) {g : FCtl → Opnd → FRes} (run : exec i s = fpuMonadic second g s)
    (code : encode i = encFReg 1 y n) (hs : 192 + 8 * y + n = second) (size : second < 256)
    (good : (Opnd.ofReg (s.fpu.operand 0)).cls ≠ .bad) :
    ∃ k, FpuBecomes s i none (intoTop s.fpu (g (s.fpu.ctl k) (Opnd.ofReg (s.fpu.operand 0)))) :=
  ⟨_, becomes_of_free ready y n second (g := fun j f => intoTop f (g (f.ctl j) (Opnd.ofReg (f.operand 0))))
    (fun _ f e => intoTop_withEp f e _) run (if_neg (not_bad good)) code hs size⟩

theorem fscale_becomes (goodA : (Opnd.ofReg (s.fpu.operand 0)).cls ≠ .bad)
    (goodB : (Opnd.ofReg (s.fpu.operand 1)).cls ≠ .bad) :
    ∃ k, FpuBecomes s .fscale none
      (intoTop s.fpu (fpScale (s.fpu.ctl k) (Opnd.ofReg (s.fpu.operand 0)) (Opnd.ofReg (s.fpu.operand 1)))) :=
  ⟨_, becomes_of_free ready 7 5 0xFD
    (g := fun j f => intoTop f (fpScale (f.ctl j) (Opnd.ofReg (f.operand 0)) (Opnd.ofReg (f.operand 1))))
    (fun _ f e => intoTop_withEp f e _) (show exec .fscale s = execFscale s from rfl)
    (if_neg (neither_bad goodA goodB)) rfl⟩

theorem fprem_becomes (goodA : (Opnd.ofReg (s.fpu.operand 0)).cls ≠ .bad)
    (goodB : (Opnd.ofReg (s.fpu.operand 1)).cls ≠ .bad) :
    ∃ k, FpuBecomes s .fprem none
      (withCodes s.fpu (fpRem (s.fpu.ctl k) (Opnd.ofReg (s.fpu.operand 0)) (Opnd.ofReg (s.fpu.operand 1)))) :=
  ⟨_, becomes_of_free ready 7 0 0xF8
    (g := fun j f => withCodes f (fpRem (f.ctl j) (Opnd.ofReg (f.operand 0)) (Opnd.ofReg (f.operand 1))))
    (fun _ f e => withCodes_withEp f e _) (show exec .fprem s = execFprem s from rfl)
    (if_neg (neither_bad goodA goodB)) rfl⟩

theorem fxtract_becomes (good : (Opnd.ofReg (s.fpu.operand 0)).cls ≠ .bad) :
    let r := fpExtract (Opnd.ofReg (s.fpu.operand 0))
    FpuBecomes s .fxtract none (s.fpu.pushPair { FRes.exact r.2.1 with ie := r.1 } r.2.2) :=
  becomes_of_free ready 6 4 0xF4
    (g := fun _ f => f.pushPair { FRes.exact (fpExtract (Opnd.ofReg (f.operand 0))).2.1 with
      ie := (fpExtract (Opnd.ofReg (f.operand 0))).1 } (fpExtract (Opnd.ofReg (f.operand 0))).2.2)
    (fun _ f e => pushPair_withEp f e _ _) (show exec .fxtract s = execFxtract s from rfl) (if_neg (not_bad good)) rfl

/-- FABS and FCHS. -/
theorem sign_becomes {i : Instr} (n second : ℕ) {g : Bool → Bool} (run : exec i s = fpuSign second g s)
    (code : encode i = encFReg 1 4 n) (hs : 192 + 8 * 4 + n = second) (size : second < 256)
    (good : extClass (s.fpu.operand 0) ≠ .bad) :
    FpuBecomes s i none (intoTop s.fpu { FRes.exact (withSign g (s.fpu.operand 0)) with ie := s.fpu.isEmpty 0 }) :=
  becomes_of_update ready 1 4 n second
    (g := fun f => intoTop f { FRes.exact (withSign g (f.operand 0)) with ie := f.isEmpty 0 })
    (fun f e => intoTop_withEp f e _) run
    (if_neg (show ¬(extClass (s.fpu.operand 0) == .bad) = true by simpa using good)) code (by norm_num) hs size

theorem fptan_becomes : ∃ k, FpuBecomes s .fptan none (s.fpu.pushPair
    { approxTanY (s.fpu.ctl k) s.plat.vm87Tolerance s.plat.fptanHalfAngle (s.fpu.operand 0) with ie := s.fpu.isEmpty 0 }
    (approxTanX (s.fpu.ctl k) s.plat.vm87Tolerance (s.fpu.operand 0))) :=
  ⟨_, becomes_of_free ready 6 2 0xF2
    (g := fun j f => f.pushPair
      { approxTanY (f.ctl j) s.plat.vm87Tolerance s.plat.fptanHalfAngle (f.operand 0) with ie := f.isEmpty 0 }
      (approxTanX (f.ctl j) s.plat.vm87Tolerance (f.operand 0)))
    (fun _ f e => pushPair_withEp f e _ _) (show exec .fptan s = execFptan s from rfl) rfl rfl⟩

theorem fpatan_becomes : ∃ k, FpuBecomes s .fpatan none (intoBelow s.fpu
    { approxAtan (s.fpu.ctl k) s.plat.vm87Tolerance (s.fpu.operand 0) (s.fpu.operand 1) with
      ie := s.fpu.isEmpty 0 || s.fpu.isEmpty 1 }) :=
  ⟨_, becomes_of_free ready 6 3 0xF3
    (g := fun j f => intoBelow f { approxAtan (f.ctl j) s.plat.vm87Tolerance (f.operand 0) (f.operand 1) with
      ie := f.isEmpty 0 || f.isEmpty 1 })
    (fun _ f e => intoBelow_withEp f e _) (show exec .fpatan s = execFpatan s from rfl) rfl rfl⟩

theorem f2xm1_becomes : ∃ k, FpuBecomes s .f2xm1 none
    (intoTop s.fpu (approx2xm1 (s.fpu.ctl k) s.plat.vm87Tolerance (s.fpu.operand 0))) :=
  ⟨_, becomes_of_free ready 6 0 0xF0 (g := fun j f => intoTop f (approx2xm1 (f.ctl j) s.plat.vm87Tolerance (f.operand 0)))
    (fun _ f e => intoTop_withEp f e _) (show exec .f2xm1 s = execF2xm1 s from rfl) rfl rfl⟩

theorem fyl2x_becomes : ∃ k, FpuBecomes s .fyl2x none
    (intoBelow s.fpu (approxYl2x (s.fpu.ctl k) s.plat.vm87Tolerance (s.fpu.operand 0) (s.fpu.operand 1))) :=
  ⟨_, becomes_of_free ready 6 1 0xF1
    (g := fun j f => intoBelow f (approxYl2x (f.ctl j) s.plat.vm87Tolerance (f.operand 0) (f.operand 1)))
    (fun _ f e => intoBelow_withEp f e _) (show exec .fyl2x s = execFyl2x s from rfl) rfl rfl⟩

theorem fyl2xp1_becomes : ∃ k, FpuBecomes s .fyl2xp1 none
    (intoBelow s.fpu (approxYl2xp1 (s.fpu.ctl k) s.plat.vm87Tolerance (s.fpu.operand 0) (s.fpu.operand 1))) :=
  ⟨_, becomes_of_free ready 7 1 0xF9
    (g := fun j f => intoBelow f (approxYl2xp1 (f.ctl j) s.plat.vm87Tolerance (f.operand 0) (f.operand 1)))
    (fun _ f e => intoBelow_withEp f e _) (show exec .fyl2xp1 s = execFyl2xp1 s from rfl) rfl rfl⟩

end Instructions

/-! ### The statement -/

/-- Settles O47: on normal numbers the results are exact, rounded or within the tolerance; the flags are those of the
operations; and each instruction is an ESC that delivers its result. -/
theorem coprocessorSpecialOperations : Obligations.CoprocessorSpecialOperations := by
  refine ⟨fun c a ha => ?_, fun c tol half a b => ?_, fun s ready => ?_⟩
  · dsimp only
    rw [ofReg_plain (.inr ha)]
    refine ⟨fun hp hp' sign => fpSqrt_rounded c hp hp' ha sign, fpRoundInt_spec c ha,
      fun k few low high => fpScale_spec c ha few low high, fpExtract_spec ha, fun b hb near => ?_,
      fun tol k ht hk least greatest low high => yl2x_power c ha ht hk least greatest low high,
      fun tol half sign => ⟨f2xm1_pe c ha tol sign, fptan_pe c ha tol half sign,
        fun b hb signB less => fpatan_pe c ha tol hb sign signB less⟩,
      fun tol half ht => ⟨fun sign small inside => f2xm1_value c ha ht sign small inside.1 inside.2, fun sign range => ?_,
        fun b hb => ⟨fun signA signB less inside => fpatan_value c ha ht hb signA signB less inside.1 inside.2,
          fun sign ne => ⟨fun inside => yl2x_value c ha ht hb sign ne inside.1 inside.2, yl2x_pe c ha tol hb sign ne⟩,
          fun range => ⟨yl2xp1_pe c ha tol hb range,
            fun inside => yl2xp1_value c ha ht hb range inside.1 inside.2⟩⟩⟩⟩
    · rw [ofReg_plain (.inr hb)]
      exact fpRem_spec c ha hb near
    · obtain ⟨normal, sign', -⟩ := approxTanX_spec c tol a
      exact ⟨normal, sign', approxTanY_approximates c ht half ha sign range⟩
  · obtain ⟨scaleDe, scaleZe, scalePe⟩ := fpScale_flags c (Opnd.ofReg a) (Opnd.ofReg b)
    obtain ⟨roundDe, roundZe⟩ := fpRoundInt_flags c (Opnd.ofReg a)
    obtain ⟨ie, de, ze⟩ := quiet_approx2xm1 c tol a
    refine ⟨scaleDe, scaleZe, scalePe, roundDe, roundZe, ie, de, ze, peAlone_tan c tol half a, peAlone_atan c tol a b,
      peAlone_yl2x c tol a b, peAlone_yl2xp1 c tol a b, fun zeroLike normal => ?_, fun kind => ⟨c.looseSign, ?_⟩⟩
    · rw [yl2x_one, if_neg (not_defined zeroLike normal)]
    · rw [yl2x_one, if_pos (defined kind)]
  · exact ⟨fun good => ⟨monadic_becomes ready 7 2 0xFA rfl rfl rfl (by norm_num) good,
        monadic_becomes ready 7 4 0xFC rfl rfl rfl (by norm_num) good, fxtract_becomes ready good⟩,
      fun goodA goodB => ⟨fscale_becomes ready goodA goodB, fprem_becomes ready goodA goodB⟩,
      fun good => ⟨by
        rw [← withSign_false]
        exact sign_becomes ready 1 0xE1 rfl rfl rfl (by norm_num) good, by
        rw [← withSign_not]
        exact sign_becomes ready 0 0xE0 rfl rfl rfl (by norm_num) good⟩,
      fptan_becomes ready, fpatan_becomes ready, f2xm1_becomes ready, fyl2x_becomes ready, fyl2xp1_becomes ready⟩

end Sys2Proof.Certificates.SpecialOperations

/-! SUPPORT and CERTIFICATE. The decoder of the VM89 against the encoder: the fields of the two opcode bytes, the memory
operand and the bytes after it, one rule per shape of encoding, and the case split over the instructions. -/

namespace Sys2Proof.Certificates.IopEncoding

open Sys2Proof.Machine Sys2Proof.Certificates.Encoding

/-! ### Field codes (48_vm89_iop.md R591) -/

theorem iReg_code_lt (r : IReg) : r.code < 8 := by cases r <;> decide
theorem bit_ofNat (b : BitVec 3) : BitVec.ofNat 3 b.toNat = b :=
  (BitVec.ofNat_toNat 3 b).trans (BitVec.setWidth_eq b)

theorem iBase_code_lt (b : IBase) : b.code < 4 := by cases b <;> decide
theorem iMem_aa_lt (m : IMem) : m.aa < 4 := by cases m <;> simp [IMem.aa]

@[simp] theorem iReg_ofCode_code (r : IReg) : IReg.ofCode r.code = r := by cases r <;> rfl
@[simp] theorem iBase_ofCode_code (b : IBase) : IBase.ofCode b.code = b := by cases b <;> rfl

/-! ### The opcode bytes and the memory operand (R590, R592) -/

/-- The fields of the two opcode bytes come back. -/
theorem iFields_bytes {rrr wb aa w op mm : Nat} (hr : rrr < 8) (hb : wb < 4) (ha : aa < 4) (hw : w < 2) (ho : op < 64)
    (hm : mm < 4) : iFields (byteOf (rrr * 32 + wb * 8 + aa * 2 + w)) (byteOf (op * 4 + mm)) =
      { rrr := rrr, wb := wb, aa := aa, w := w, op := op, mm := mm } := by
  simp only [iFields, toNat_byteOf, IFields.mk.injEq]
  omega

/-- The fields of an instruction with the memory operand `m`. -/
def memFields (rrr wb w op : Nat) (m : IMem) : IFields :=
  { rrr := rrr, wb := wb, aa := m.aa, w := w, op := op, mm := m.baseReg.code }

/-- The fields of an instruction without a memory operand. -/
def regFields (rrr wb w op : Nat) : IFields := { rrr := rrr, wb := wb, aa := 0, w := w, op := op, mm := 0 }

section
variable {rrr wb w op : Nat}

theorem decode89_encIMem (hr : rrr < 8) (hb : wb < 4) (hw : w < 2) (ho : op < 64) (m : IMem) (r : List Byte) :
    decode89 (encIMem rrr wb w op m ++ r) = decodeIRow (memFields rrr wb w op m) (m.offBytes ++ r) :=
  congrArg (fun f => decodeIRow f (m.offBytes ++ r))
    (iFields_bytes hr hb (iMem_aa_lt m) hw ho (iBase_code_lt m.baseReg))

theorem decode89_encIReg (hr : rrr < 8) (hb : wb < 4) (hw : w < 2) (ho : op < 64) (r : List Byte) :
    decode89 (encIReg rrr wb w op ++ r) = decodeIRow (regFields rrr wb w op) r := by
  have fields := iFields_bytes (aa := 0) (mm := 0) hr hb (by decide) hw ho (by decide)
  rw [Nat.zero_mul, Nat.add_zero, Nat.add_zero] at fields
  exact congrArg (fun f => decodeIRow f r) fields

/-- The memory operand and its offset byte come back. -/
theorem iMem_memFields (k : IMem → List Byte → Decoded) (m : IMem) (r : List Byte) :
    iMem (memFields rrr wb w op m) k (m.offBytes ++ r) = k m r := by
  cases m <;> simp [iMem, memFields, decodeIMem, IMem.aa, IMem.baseReg, IMem.offBytes, take8]

/-- The second half of a memory-to-memory move (R600, R601). -/
theorem iSecondHalf_encIMem (k : IMem → Instr) (hw : w < 2) (m : IMem) (r : List Byte) :
    iSecondHalf w k (encIMem 0 0 w 51 m ++ r) = .ok (k m, r) := by
  have fields := iFields_bytes (rrr := 0) (wb := 0) (op := 51) (by decide) (by decide) (iMem_aa_lt m) hw (by decide)
    (iBase_code_lt m.baseReg)
  rw [encIMem, List.cons_append, List.cons_append, iSecondHalf, fields, if_pos ⟨rfl, rfl, rfl, rfl⟩]
  exact iMem_memFields (fun m r => .ok (k m, r)) m r

end

/-! ### One rule per shape of encoding -/

/-- The bytes stand for the instruction of the VM89, whatever follows them. -/
def Decodes (bytes : List Byte) (i : Instr) : Prop := ∀ rest, decode89 (bytes ++ rest) = .ok (i, rest)

namespace Decodes

variable {n wb w op : Nat} {m : IMem} {i : Instr}

/-- A row with a memory operand, and what comes after its offset byte. The row is looked up in the table, and says what
is decoded after the operand. -/
theorem memThen {k : IMem → List Byte → Decoded} {tail : List Byte} (after : ∀ r, k m (tail ++ r) = .ok (i, r))
    (row : ∀ r, decodeIRow (memFields n wb w op m) r = iMem (memFields n wb w op m) k r := by
      intro; dsimp only [decodeIRow, memFields]; rfl)
    (hn : n < 8 := by decide) (hb : wb < 4 := by decide) (hw : w < 2 := by decide) (ho : op < 64 := by decide) :
    Decodes (encIMem n wb w op m ++ tail) i := fun rest => by
  rw [List.append_assoc, decode89_encIMem hn hb hw ho, row, iMem_memFields, after]

theorem mem {k : IMem → List Byte → Decoded} (after : ∀ r, k m r = .ok (i, r))
    (row : ∀ r, decodeIRow (memFields n wb w op m) r = iMem (memFields n wb w op m) k r := by
      intro; dsimp only [decodeIRow, memFields]; rfl)
    (hn : n < 8 := by decide) (hb : wb < 4 := by decide) (hw : w < 2 := by decide) (ho : op < 64 := by decide) :
    Decodes (encIMem n wb w op m) i := fun rest => by
  rw [decode89_encIMem hn hb hw ho, row, iMem_memFields, after]

/-- A row without a memory operand, and what comes after the opcode bytes. -/
theorem regThen {tail : List Byte} (row : ∀ r, decodeIRow (regFields n wb w op) (tail ++ r) = .ok (i, r))
    (hn : n < 8 := by decide) (hb : wb < 4 := by decide) (hw : w < 2 := by decide) (ho : op < 64 := by decide) :
    Decodes (encIReg n wb w op ++ tail) i := fun rest => by
  rw [List.append_assoc, decode89_encIReg hn hb hw ho, row]

theorem reg (row : ∀ r, decodeIRow (regFields n wb w op) r = .ok (i, r)) (hn : n < 8 := by decide)
    (hb : wb < 4 := by decide) (hw : w < 2 := by decide) (ho : op < 64 := by decide) :
    Decodes (encIReg n wb w op) i := fun rest => by
  rw [decode89_encIReg hn hb hw ho, row]

end Decodes

/-! ### The instructions (Table 4.7) -/

/-- Every well-formed instruction of the VM89 has an encoding that stands for it. The cases go by the shape of the
encoding: with a memory operand, and a register, a bit number, a pointer or nothing beside it; then what follows the
offset byte; and without a memory operand. -/
theorem decodes_encode (i : Instr) (wf : i.wf = true) (iop : i.isIop = true) : Decodes (encode i) i := by
  cases i
  case iMovRegMem r _ | iMovbRegMem r _ | iAddRegMem r _ | iAddbRegMem r _ | iAndRegMem r _ | iAndbRegMem r _
      | iOrRegMem r _ | iOrbRegMem r _ | iNotRegMem r _ | iNotbRegMem r _ | iMovMemReg _ r | iMovbMemReg _ r
      | iAddMemReg _ r | iAddbMemReg _ r | iAndMemReg _ r | iAndbMemReg _ r | iOrMemReg _ r | iOrbMemReg _ r =>
    refine .mem (hn := iReg_code_lt r) fun _ => ?_
    rw [iReg_ofCode_code]
  case iSetbMem _ b | iClrMem _ b =>
    refine .mem (hn := b.isLt) fun _ => ?_
    rw [bit_ofNat]
  case iMovpPtrMem p _ | iMovpMemPtr _ p | iLpdPtrMem p _ =>
    cases p <;> refine .mem ?_ <;> exact fun _ => rfl
  case iIncMem | iIncbMem | iDecMem | iDecbMem | iNotMem | iNotbMem =>
    refine .mem ?_
    exact fun _ => rfl
  case iMovMemMem dst | iMovbMemMem dst =>
    refine .memThen ?_
    exact iSecondHalf_encIMem _ (by decide) dst
  case iMovbiMemData | iAddbiMemData | iAndbiMemData | iOrbiMemData | iCallMem | iJzMem | iJzbMem | iJnzMem | iJnzbMem
      | iJmceMem | iJmcneMem =>
    refine .memThen ?_
    exact fun _ => rfl
  case iMoviMemData v | iAddiMemData v | iAndiMemData v | iOriMemData v | iLcallMem v | iLjzMem v | iLjzbMem v
      | iLjnzMem v | iLjnzbMem v | iLjmceMem v | iLjmcneMem v =>
    refine .memThen ?_
    exact with16_wordBytes _ v
  case iJbtMem _ b _ | iJnbtMem _ b _ =>
    refine .memThen (hn := b.isLt) fun _ => ?_
    rw [bit_ofNat]
    rfl
  case iLjbtMem _ b v | iLjnbtMem _ b v =>
    refine .memThen (hn := b.isLt) fun _ => ?_
    rw [bit_ofNat]
    exact with16_wordBytes _ v _
  case iTslMemData =>
    rw [encode, List.append_assoc]
    refine .memThen ?_
    exact fun _ => rfl
  case iIncReg r | iDecReg r | iNotReg r =>
    refine .reg (hn := iReg_code_lt r) fun _ => ?_
    dsimp only [decodeIRow, regFields]
    rw [iReg_ofCode_code]
    rfl
  case iMovbiRegData r _ | iAndbiRegData r _ | iOrbiRegData r _ | iJzReg r _ | iJnzReg r _ =>
    refine .regThen (hn := iReg_code_lt r) fun _ => ?_
    dsimp only [decodeIRow, regFields]
    rw [iReg_ofCode_code]
    rfl
  case iMoviRegData r v | iAndiRegData r v | iOriRegData r v | iLjzReg r v | iLjnzReg r v =>
    refine .regThen (hn := iReg_code_lt r) fun _ => ?_
    dsimp only [decodeIRow, regFields]
    rw [iReg_ofCode_code]
    exact with16_wordBytes _ v _
  case iAddbiRegData r _ =>
    cases r with
    | tp => nomatch wf
    | _ => exact .regThen fun _ => by dsimp only [decodeIRow, regFields]; rfl
  case iAddiRegData r v =>
    cases r with
    | tp => nomatch wf
    | _ => exact .regThen fun _ => by dsimp only [decodeIRow, regFields]; exact with16_wordBytes _ v _
  case iLpdiPtr p off seg =>
    rw [encode, List.append_assoc]
    cases p <;> exact .regThen fun _ => by dsimp only [decodeIRow, regFields]; exact with32_wordBytes _ off seg _
  case iJmp => exact .regThen fun _ => by dsimp only [decodeIRow, regFields]; rfl
  case iLjmp v => exact .regThen fun _ => by dsimp only [decodeIRow, regFields]; exact with16_wordBytes _ v _
  case iWid x y => cases x <;> cases y <;> exact .reg fun _ => rfl
  case iXfer | iSintr | iHlt | iNop => exact .reg fun _ => by dsimp only [decodeIRow, regFields]; rfl
  all_goals nomatch iop

/-- Settles O39: the rule for the shape of its encoding decodes every instruction. -/
theorem encodingsOfTheIopDecode : Obligations.EncodingsOfTheIopDecode :=
  fun i rest wf iop => decodes_encode i wf iop rest

end Sys2Proof.Certificates.IopEncoding

/-! CERTIFICATE. RESET as an event, part by part. -/

namespace Sys2Proof.Certificates.ResetEvent

open Sys2Proof.Machine

/-- A field of bits that a mask takes out is 0. -/
theorem fieldNat_and_eq_zero {n : Nat} (v m : BitVec n) {lo len : Nat} (h : fieldNat m lo len = 0) :
    fieldNat (v &&& m) lo len = 0 := by
  unfold fieldNat at h ⊢
  rw [← Nat.shiftRight_eq_div_pow] at h ⊢
  rw [BitVec.toNat_and, Nat.shiftRight_and_distrib, Nat.and_mod_two_pow, h, Nat.and_zero]

/-- Of SR the initialisation leaves the condition codes alone open (10_state.md R53, R60). -/
theorem init_top (k : Nat) : (Fpu.init k).top = 0#3 := by
  have field : fieldNat (Config.freeWord k &&& 0x4700#16) 11 3 = 0 := fieldNat_and_eq_zero _ _ (by decide)
  rw [Fpu.top, Fpu.init, field]

theorem init_busy (k : Nat) : (Fpu.init k).busy = false := by
  have masked : (0x4700#16).getLsbD 15 = false := by decide
  rw [Fpu.busy, Fpu.init, bit, BitVec.getLsbD_and, masked, Bool.and_false]

/-- Settles O33: memory and the general registers are not touched, and the rest is the initial state of each part. -/
theorem resetEventKeepsMemory : Obligations.ResetEventKeepsMemory := fun s =>
  ⟨s.systemReset, rfl, rfl, rfl, ⟨rfl, rfl⟩, rfl, rfl, rfl, rfl, rfl, rfl, init_top _, init_busy _, rfl, rfl, rfl, rfl,
    rfl, rfl, rfl, rfl, rfl, rfl, rfl, rfl, rfl⟩

end Sys2Proof.Certificates.ResetEvent

/-! SUPPORT and CERTIFICATE. The ports of the RF55 and the RU55, and the three bytes of Specify of the VG72. -/

namespace Sys2Proof.Certificates.DevicePorts

open Sys2Proof.Machine

/-! ### The RF55 (49_platform_devices.md R788) -/

/-- A line of a port: the latch of an output, the pin of an input. -/
theorem rfPort_getLsbD (out dir pins : Byte) (i : Nat) :
    (rfPort out dir pins).getLsbD i = if dir.getLsbD i = true then out.getLsbD i else pins.getLsbD i := by
  by_cases h : i < 8
  · rw [rfPort, BitVec.getLsbD_or, BitVec.getLsbD_and, BitVec.getLsbD_and, BitVec.getLsbD_not]
    cases dir.getLsbD i <;> simp [h]
  · simp [BitVec.getLsbD_of_ge _ _ (Nat.le_of_not_lt h)]

/-! ### The RU55 (R782-R784) -/

/-- A port without handshake: programmed for output it reads back what was written, for input its pins (R784). -/
theorem port_simple (p : RuPort) (output : Bool) (v : Byte) :
    (output = true → ((p.write output false v).read output false).1 = v) ∧
      (output = false → (p.read output false).1 = p.pins) := by
  cases output
  · exact ⟨nofun, fun _ => rfl⟩
  · exact ⟨fun _ => rfl, nofun⟩

section Ru55

variable {d : Ru55}

theorem portA_read (h : d.alt < 2) (v : Byte) (f : Word) :
    (d.ctl.getLsbD 0 = true → ((d.write 1 v).read 1 f).1 = v) ∧
      (d.ctl.getLsbD 0 = false → (d.read 1 f).1 = d.a.pins) := by
  have simple : d.handshakeA = false := decide_eq_false (by omega)
  have port := port_simple d.a (bit d.ctl 0) v
  have written : ((d.write 1 v).read 1 f).1 =
      ((d.a.write (bit d.ctl 0) d.handshakeA v).read (bit d.ctl 0) d.handshakeA).1 := rfl
  have read : (d.read 1 f).1 = (d.a.read (bit d.ctl 0) d.handshakeA).1 := rfl
  rw [written, read, simple]
  exact port

theorem portB_read (h : d.alt < 2) (v : Byte) (f : Word) :
    (d.ctl.getLsbD 1 = true → ((d.write 2 v).read 2 f).1 = v) ∧
      (d.ctl.getLsbD 1 = false → (d.read 2 f).1 = d.b.pins) := by
  have simple : d.handshakeB = false := decide_eq_false (by omega)
  have port := port_simple d.b (bit d.ctl 1) v
  have written : ((d.write 2 v).read 2 f).1 =
      ((d.b.write (bit d.ctl 1) d.handshakeB v).read (bit d.ctl 1) d.handshakeB).1 := rfl
  have read : (d.read 2 f).1 = (d.b.read (bit d.ctl 1) d.handshakeB).1 := rfl
  rw [written, read, simple]
  exact port

/-- INTR and BF of port A stand in the two lowest bits of the status byte (R783). -/
theorem status_portA (d : Ru55) (f : Word) :
    (d.read 0 f).1.getLsbD 0 = d.a.intr ∧ (d.read 0 f).1.getLsbD 1 = d.a.bf := by
  obtain ⟨-, -, -, -, -, bf, intr⟩ := bit_byteBits (bit (highByte f) 7) d.tc (bit d.ctl 5) d.b.bf d.b.intr (bit d.ctl 4)
    d.a.bf d.a.intr
  exact ⟨intr, bf⟩

/-- A strobe of port A, with handshake, for input and with its interrupt enabled (R784). -/
theorem strobeA_input (hand : 2 ≤ d.alt) (input : d.ctl.getLsbD 0 = false) (enabled : d.ctl.getLsbD 4 = true) :
    d.strobeA = { d with a := { d.a with buf := d.a.pins, bf := true, intr := true } } := by
  have port : d.a.strobe (bit d.ctl 0) (bit d.ctl 4) = { d.a with buf := d.a.pins, bf := true, intr := true } := by
    rw [bit, input, bit, enabled, RuPort.strobe, Bool.or_true]
    rfl
  rw [Ru55.strobeA, Ru55.handshakeA, if_pos (decide_eq_true hand), port]

theorem readA_input (hand : 2 ≤ d.alt) (input : d.ctl.getLsbD 0 = false) (f : Word) :
    d.read 1 f = (d.a.buf, { d with a := { d.a with bf := false, intr := false } }) := by
  have port : d.a.read (bit d.ctl 0) d.handshakeA = (d.a.buf, { d.a with bf := false, intr := false }) := by
    rw [Ru55.handshakeA, decide_eq_true hand, bit, input]
    rfl
  exact congrArg (fun p => (p.1, { d with a := p.2 })) port

end Ru55

/-! ### The VG72 (R772, R774) -/

section Specify

variable {d : Vg72}

/-- The first byte of Specify opens a command of three bytes. -/
theorem specify_first (idle : d.phase = .idle) (sensed : d.unsensed = false) :
    d.write 1 3#8 = { d with cmd := [3#8], phase := .command } := by
  simp only [Vg72.write, idle, Vg72.commandByte, sensed, Bool.and_false, Bool.false_and]
  rfl

theorem specify_second (x : Byte) (phase : d.phase = .command) (cmd : d.cmd = [3#8]) :
    d.write 1 x = { d with cmd := [3#8, x] } := by
  simp only [Vg72.write, phase, Vg72.commandByte, cmd]
  rfl

/-- The third byte completes the command, which sets the four parameters. -/
theorem specify_third (x y : Byte) (phase : d.phase = .command) (cmd : d.cmd = [3#8, x]) :
    d.write 1 y = { d with
      cmd := [3#8, x, y], phase := .idle, srt := BitVec.ofNat 4 (fieldNat x 4 4),
      hut := BitVec.ofNat 4 (fieldNat x 0 4), hlt := BitVec.ofNat 7 (fieldNat y 1 7), nd := bit y 0 } := by
  simp only [Vg72.write, phase, Vg72.commandByte, cmd]
  rfl

end Specify

/-- A bit vector holds a number modulo 2 to its length. -/
theorem ofNat_mod (n k : Nat) : BitVec.ofNat n (k % 2 ^ n) = BitVec.ofNat n k := by
  apply BitVec.eq_of_toNat_eq
  rw [BitVec.toNat_ofNat, BitVec.toNat_ofNat, Nat.mod_mod]

/-- Settles O60: a port line by line, a strobe and a read as updates of port A, and Specify byte by byte. -/
theorem portsOfTheDevices : Obligations.PortsOfTheDevices := by
  refine ⟨fun d v f i => ⟨rfPort_getLsbD v d.dirA d.pinsA i, rfPort_getLsbD v d.dirB d.pinsB i⟩,
    fun d v f simple => ?_, fun d f hand input enabled => ?_, fun d x y idle sensed => ?_⟩
  · obtain ⟨outA, inA⟩ := portA_read simple v f
    obtain ⟨outB, inB⟩ := portB_read simple v f
    exact ⟨outA, inA, outB, inB⟩
  · have strobed := strobeA_input hand input enabled
    have read := readA_input (d := d.strobeA) (by rw [strobed]; exact hand) (by rw [strobed]; exact input) f
    obtain ⟨intr, bf⟩ := status_portA d.strobeA f
    obtain ⟨intr', bf'⟩ := status_portA (d.strobeA.read 1 f).2 f
    dsimp only
    rw [intr, bf, intr', bf', read, strobed]
    exact ⟨rfl, rfl, rfl, rfl, rfl⟩
  · dsimp only
    rw [specify_first idle sensed, specify_second x rfl rfl, specify_third x y rfl rfl]
    refine ⟨rfl, by rw [Vg72.status, Vg72.status, idle], ?_, ?_, ?_, rfl⟩
    · exact ofNat_mod 4 _
    · exact congrArg (fun k => BitVec.ofNat 4 (k % 16)) (Nat.div_one x.toNat)
    · exact ofNat_mod 7 _

end Sys2Proof.Certificates.DevicePorts

/-! SUPPORT. What the parts of a VM89 instruction leave: `ChannelIs` through reads, writes and updates of the
channel. -/

namespace Sys2Proof.Certificates.IopChannel

open Sys2Proof.Machine

/-! ### Channels that agree but for a request by CA and the look-ahead byte -/

section Core

variable {c d : IopChan}

theorem core_setReg (h : c.core = d.core) (r : IReg) (v : Addr20) : (c.setReg r v).core = (d.setReg r v).core := by
  cases r <;> simp_all [IopChan.core, IopChan.setReg]

theorem core_setTag (h : c.core = d.core) (r : IReg) (io : Bool) : (c.setTag r io).core = (d.setTag r io).core := by
  cases r <;> simp_all [IopChan.core, IopChan.setTag]

theorem core_move (h : c.core = d.core) (r : IReg) (v : Addr20) : (c.move r v).core = (d.move r v).core :=
  core_setTag (core_setReg h r v) r true

theorem reg_core (c : IopChan) (r : IReg) : c.core.reg r = c.reg r := by
  cases r <;> rfl

theorem reg_eq (h : c.core = d.core) (r : IReg) : c.reg r = d.reg r := by
  rw [← reg_core c, h, reg_core]

theorem space_core (c : IopChan) (m : IMem) : c.core.space m = c.space m := by
  rw [IopChan.space, IopChan.space]
  cases memBase m <;> rfl

theorem space_eq (h : c.core = d.core) (m : IMem) : c.space m = d.space m := by
  rw [← space_core c, h, space_core]

theorem base_core (c : IopChan) (b : IBase) : c.core.base b = c.base b := by
  cases b <;> rfl

theorem ea_core (c : IopChan) (m : IMem) : c.core.ea m = c.ea m := by
  cases m <;> rw [IopChan.ea, IopChan.ea, base_core] <;> rfl

theorem ea_eq (h : c.core = d.core) (m : IMem) : c.ea m = d.ea m := by
  rw [← ea_core c, h, ea_core]

end Core

/-! ### The two channels -/

section SetChan

variable (p : Iop) (n : ChanNo) (c d : IopChan)

@[simp] theorem cur_setChan : (p.setChan n c).cur = p.cur := by cases n <;> rfl

@[simp] theorem chan_setChan : (p.setChan n c).chan n = c := by cases n <;> rfl

@[simp] theorem setChan_chan : p.setChan n (p.chan n) = p := by cases n <;> rfl

@[simp] theorem setChan_setChan : (p.setChan n c).setChan n d = p.setChan n d := by cases n <;> rfl

theorem core_chan : p.core.chan n = (p.chan n).core := by cases n <;> rfl

theorem core_setChan : (p.setChan n c).core = p.core.setChan n c.core := by cases n <;> rfl

end SetChan

/-! ### The channel that runs -/

section Steps

variable {s t u : State} {c d : IopChan}

@[simp] theorem ch_setCh (s : State) (c : IopChan) : (s.setCh c).ch = c := by
  unfold State.ch
  rw [State.setCh_iop, cur_setChan, chan_setChan]

theorem sameCells_setCh (s : State) (c : IopChan) : s.SameCells (s.setCh c) := fun _ _ => rfl

theorem sameCells_trans (h : s.SameCells t) (g : t.SameCells u) : s.SameCells u := fun io x => (g io x).trans (h io x)

theorem plat_of_calm (h : s.Calm t) : t.plat = s.plat := by
  obtain ⟨-, -, -, -, -, plat, -⟩ := h
  exact plat

theorem cur_of_calm (h : s.Calm t) : t.iop.cur = s.iop.cur := by
  obtain ⟨-, -, iop, -⟩ := h
  have cur := congrArg Iop.cur iop
  exact cur

theorem plat_of_channelIs (h : s.ChannelIs t c) : t.plat = s.plat := by
  obtain ⟨-, -, -, -, -, plat, -⟩ := h
  exact plat

/-- Bus cycles leave the channel. -/
theorem channelIs_of_calm (h : s.Calm t) : s.ChannelIs t s.ch := by
  obtain ⟨cpu, fpu, iop, far, env, plat, dev⟩ := h
  refine ⟨iop.trans ?_, cpu, fpu, far, env, plat, dev⟩
  rw [State.ch, setChan_chan]

theorem channelIs_setCh (s : State) (c : IopChan) : s.ChannelIs (s.setCh c) c := (State.Calm.refl s).setCh rfl

theorem channelIs_cur (h : s.ChannelIs t c) : t.iop.cur = s.iop.cur := by
  have e : t.iop.core.cur = (s.iop.setChan s.iop.cur c).core.cur := congrArg Iop.cur h.1
  exact e.trans (cur_setChan _ _ _)

theorem channelIs_ch (h : s.ChannelIs t c) : t.ch.core = c.core := by
  have e : t.iop.core.chan s.iop.cur = (s.iop.setChan s.iop.cur c).core.chan s.iop.cur :=
    congrArg (fun p => Iop.chan p s.iop.cur) h.1
  rwa [core_chan, core_chan, chan_setChan, ← channelIs_cur h] at e

/-- The other channel stays through two updates, and the second update is what holds. -/
theorem channelIs_trans (h : s.ChannelIs t c) (g : t.ChannelIs u d) : s.ChannelIs u d := by
  have cur := channelIs_cur h
  obtain ⟨iop, cpu, fpu, far, env, plat, dev⟩ := h
  obtain ⟨iop', cpu', fpu', far', env', plat', dev'⟩ := g
  refine ⟨?_, cpu'.trans cpu, ⟨fpu'.1.trans fpu.1, fpu'.2.trans fpu.2⟩, far'.trans far, env'.trans env,
    plat'.trans plat, fun n => (dev n).trans (dev' (n.congr plat))⟩
  rw [iop', cur, Iop.core_setChan iop, setChan_setChan]

theorem channelIs_congr (h : s.ChannelIs t c) (e : c.core = d.core) : s.ChannelIs t d := by
  refine ⟨h.1.trans ?_, h.2⟩
  rw [core_setChan, core_setChan, e]

/-- The channel replaced once more. -/
theorem channelIs_update (h : s.ChannelIs t c) {e : IopChan} (same : e.core = d.core) : s.ChannelIs (t.setCh e) d :=
  channelIs_congr (channelIs_trans h (channelIs_setCh t e)) same

/-- Bytes stored after cycles that leave every byte. -/
theorem cellsStored_after_same (p : t.plat = s.plat) (same : s.SameCells t) {io : Bool} {n a v : Nat}
    (h : t.CellsStored u io n a v) : s.CellsStored u io n a v := by
  obtain ⟨rest, bytes⟩ := h
  refine ⟨fun io' x hx => (rest io' x hx).trans (same io' x), fun k hk => (bytes k hk).trans ?_⟩
  rw [State.cellKind_congr p, same]

/-- Only the bytes of a value count. -/
theorem cellsStored_congr {io : Bool} {a v w : Nat} (h : s.CellsStored t io 1 a v) (e : v % 256 = w % 256) :
    s.CellsStored t io 1 a w := by
  obtain ⟨rest, bytes⟩ := h
  refine ⟨rest, fun k hk => ?_⟩
  obtain rfl : k = 0 := by omega
  have low : BitVec.ofNat 8 (v / 256 ^ 0) = BitVec.ofNat 8 (w / 256 ^ 0) :=
    BitVec.eq_of_toNat_eq (by simpa using e)
  rw [bytes 0 hk, low]

end Steps

/-! ### Reading an operand -/

section Operand

variable (s : State) (w : Width) (m : IMem)

theorem channelIs_iopLoad : s.ChannelIs (s.iopLoad w m).2 (s.ch.after m (widthBytes w)) := by
  have calm := (s.iopLoad_quiet w m).calm
  exact calm.setCh (IopChan.core_after calm.ch m _)

theorem sameCells_iopLoad : s.SameCells (s.iopLoad w m).2 := (s.iopLoad_quiet w m).cells

theorem ch_iopLoad : (s.iopLoad w m).2.ch.core = (s.ch.after m (widthBytes w)).core :=
  channelIs_ch (channelIs_iopLoad s w m)

end Operand

/-! ### Registers (48_vm89_iop.md R591, R595, R596) -/

/-- A register holds 20 bits (GA, GB, GC, TP) or 16 (R71, R596). -/
theorem reg_setReg_self (c : IopChan) (r : IReg) (v : Addr20) :
    (c.setReg r v).reg r = if isPointer r = true then v else v &&& 0x0FFFF#20 := by
  have low : (v.truncate 16).zeroExtend 20 = v &&& 0x0FFFF#20 := by
    apply BitVec.eq_of_toNat_eq
    have mask : v.toNat &&& 65535 = v.toNat % 65536 := Nat.and_two_pow_sub_one_eq_mod v.toNat 16
    simp only [BitVec.toNat_setWidth, BitVec.truncate_eq_setWidth, BitVec.toNat_and]
    change _ = v.toNat &&& 65535
    omega
  cases r
  case ga | gb | gc | tp => rfl
  case bc | ix | cc | mc => exact low

theorem reg_setReg_of_ne (c : IopChan) {r q : IReg} (h : q ≠ r) (v : Addr20) : (c.setReg r v).reg q = c.reg q := by
  cases r <;> cases q <;> trivial

/-- A logic result fills bits 15-0 of a register; bits 19-16 of a pointer register may be anything (R595, U21). -/
theorem iopLogic_spec (s : State) (r : IReg) (v : Word) :
    ∃ x : Addr20, x.truncate 16 = v ∧ s.ChannelIs (s.iopLogic r v) (s.ch.setReg r x) ∧
      s.SameCells (s.iopLogic r v) := by
  unfold State.iopLogic
  split
  · refine ⟨_, ?_, (State.bump_quiet s).calm.setCh rfl, fun _ _ => rfl⟩
    apply BitVec.eq_of_toNat_eq
    simp only [BitVec.toNat_setWidth, BitVec.truncate_eq_setWidth, BitVec.toNat_ofNat]
    omega
  · refine ⟨_, ?_, channelIs_setCh s _, fun _ _ => rfl⟩
    apply BitVec.eq_of_toNat_eq
    simp only [BitVec.toNat_setWidth, BitVec.truncate_eq_setWidth]
    omega

/-! ### What an instruction does, from the form of its run -/

section Forms

variable {s t : State} {i : Instr} {c : IopChan}

theorem cellsAre_of_same (p : t.plat = s.plat) (same : s.SameCells t) {w : Width} {io : Bool} {a : Nat} {v : Word}
    (h : t.CellsAre w io a v) : s.CellsAre w io a v := by
  cases w <;> simpa only [State.CellsAre, State.cellMemory, State.cellKind_congr p, same _ _] using h

/-- What a read after other reads finds stood there before them. -/
theorem cellsAre_of_quiet (q : s.Quiet t) {w : Width} {io : Bool} {a : Nat} {v : Word} (h : t.CellsAre w io a v) :
    s.CellsAre w io a v :=
  cellsAre_of_same (plat_of_calm q.calm) q.cells h

theorem cellsAre_after_quiet (q : s.Quiet t) {w : Width} {io : Bool} {a : Nat} {v : Word} (h : s.CellsAre w io a v) :
    t.CellsAre w io a v :=
  cellsAre_of_same (plat_of_calm q.calm).symm (fun io x => (q.cells io x).symm) h

/-- The channel replaced, and nothing else. -/
theorem becomes_of_setCh (run : exec i s = .next (s.setCh c)) : IopBecomes s i c :=
  ⟨_, run, channelIs_setCh s c, sameCells_setCh s c⟩

/-- Cycles that store nothing, and then the channel replaced. -/
theorem becomes_of_quiet (q : s.Quiet t) {e : IopChan} (run : exec i s = .next (t.setCh e)) (same : e.core = c.core) :
    IopBecomes s i c :=
  ⟨_, run, q.calm.setCh same, sameCells_trans q.cells (sameCells_setCh t e)⟩

/-- A memory operand read, IX stepped, and the channel then changed by `f`. -/
theorem becomes_of_load {w : Width} {m : IMem} (f : Word → IopChan → IopChan)
    (keeps : ∀ v c d, c.core = d.core → (f v c).core = (f v d).core)
    (run : exec i s = .next ((s.iopLoad w m).2.setCh (f (s.iopLoad w m).1 (s.iopLoad w m).2.ch))) :
    ∃ v, s.IopOperandIs w m v ∧ IopBecomes s i (f v (s.ch.after m (widthBytes w))) :=
  ⟨_, s.iopLoad_value w m, _, run, channelIs_update (channelIs_iopLoad s w m) (keeps _ _ _ (ch_iopLoad s w m)),
    sameCells_trans (sameCells_iopLoad s w m) (sameCells_setCh _ _)⟩

theorem writes_of_store {w : Width} {m : IMem} {v : Word} (run : exec i s = .next (s.iopStore w m v)) :
    IopWrites s i (s.ch.after m (widthBytes w)) (s.ch.space m) (widthBytes w) (s.ch.ea m) v.toNat := by
  obtain ⟨chan, stored⟩ := s.iopStore_spec w m v
  exact ⟨_, run, chan, stored⟩

theorem writes_of_modify {w : Width} {m : IMem} (g : Word → Word) (run : exec i s = .next (s.iopModify w m g)) :
    ∃ v, s.IopOperandIs w m v ∧
      IopWrites s i (s.ch.after m (widthBytes w)) (s.ch.space m) (widthBytes w) (s.ch.ea m) (g v).toNat := by
  obtain ⟨v, operand, chan, stored⟩ := s.iopModify_spec w m g
  exact ⟨v, operand, _, run, chan, stored⟩

/-- Bytes stored by bus cycles, and then the channel replaced. -/
theorem writes_of_calm (calm : s.Calm t) {e : IopChan} {io : Bool} {n a v : Nat} (stored : s.CellsStored t io n a v)
    (run : exec i s = .next (t.setCh e)) (same : e.core = c.core) : IopWrites s i c io n a v :=
  ⟨_, run, calm.setCh same, stored⟩

end Forms

end Sys2Proof.Certificates.IopChannel

/-! SUPPORT and CERTIFICATE. The data transfer instructions of the VM89. -/

namespace Sys2Proof.Certificates.IopDataTransfer

open Sys2Proof.Machine Sys2Proof.Certificates.IopChannel

section Moves

variable (s : State)

/-- A value moved from memory into a register. -/
theorem becomes_move {i : Instr} {w : Width} {r : IReg} {m : IMem}
    (run : exec i s = .next ((s.iopLoad w m).2.setCh ((s.iopLoad w m).2.ch.move r (sext20 (s.iopLoad w m).1)))) :
    ∃ v, s.IopOperandIs w m v ∧ IopBecomes s i ((s.ch.after m (widthBytes w)).move r (v.signExtend 20)) :=
  becomes_of_load (fun v c => c.move r (sext20 v)) (fun _ _ _ h => core_move h r _) run

/-- A value moved between two memory operands: the source half, then the destination half. -/
theorem writes_between {i : Instr} {w : Width} {m n : IMem}
    (run : exec i s = .next ((s.iopLoad w m).2.iopStore w n (s.iopLoad w m).1)) :
    ∃ v, s.IopOperandIs w m v ∧
      let d := s.ch.after m (widthBytes w)
      IopWrites s i (d.after n (widthBytes w)) (d.space n) (widthBytes w) (d.ea n) v.toNat := by
  have loaded := channelIs_iopLoad s w m
  have chan := ch_iopLoad s w m
  obtain ⟨stepped, stored⟩ := (s.iopLoad w m).2.iopStore_spec w n (s.iopLoad w m).1
  rw [space_eq chan, ea_eq chan] at stored
  exact ⟨_, s.iopLoad_value w m, _, run,
    channelIs_congr (channelIs_trans loaded stepped) (IopChan.core_after chan n _),
    cellsStored_after_same (plat_of_channelIs loaded) (sameCells_iopLoad s w m) stored⟩

/-- The pointer and the TAG bit that MOVP reads from three bytes (R604). -/
theorem movp_load (p : IPtr) (m : IMem) :
    ∃ (lo : Word) (h : Byte), s.CellsAre .word (s.ch.space m) (s.ch.ea m) lo ∧
      s.CellsAre .byte (s.ch.space m) (s.ch.ea m + 2) (h.signExtend 16) ∧
      IopBecomes s (.iMovpPtrMem p m)
        (((s.ch.after m 3).setReg (ptrReg p) (BitVec.ofNat 20 (lo.toNat + 2 ^ 16 * (h.toNat / 16)))).setTag (ptrReg p)
          (h.getLsbD 3)) := by
  let lo := s.iopRead16 (s.ch.space m) (s.ch.ea m)
  let hi := lo.2.iopRead8 (s.ch.space m) (s.ch.ea m + 2)
  have quiet : s.Quiet lo.2 := s.iopRead16_quiet _ _
  have all : s.Quiet hi.2 := s.iopLoadPtr_quiet _ _
  refine ⟨lo.1, hi.1, s.iopReadW_value .word _ _,
    cellsAre_of_quiet quiet (lo.2.iopReadW_value .byte _ _),
    becomes_of_quiet all (by rfl) ?_⟩
  rw [Nat.add_comm, Nat.mul_comm]
  exact core_setTag (core_setReg (IopChan.core_after all.calm.ch m 3) _ _) _ _

/-- The segment and offset that LPD reads, the offset first (R605, R570). -/
theorem lpd_load (p : IPtr) (m : IMem) :
    ∃ off seg, s.CellsAre .word (s.ch.space m) (s.ch.ea m) off ∧ s.CellsAre .word (s.ch.space m) (s.ch.ea m + 2) seg ∧
      IopBecomes s (.iLpdPtrMem p m)
        (((s.ch.after m 4).setReg (ptrReg p) (BitVec.ofNat 20 (phys seg off))).setTag (ptrReg p) false) := by
  let off := s.iopRead16 (s.ch.space m) (s.ch.ea m)
  let seg := off.2.iopRead16 (s.ch.space m) (s.ch.ea m + 2)
  have quiet : s.Quiet off.2 := s.iopRead16_quiet _ _
  have all : s.Quiet seg.2 := s.iopPointer_quiet _ _
  exact ⟨off.1, seg.1, s.iopReadW_value .word _ _,
    cellsAre_of_quiet quiet (off.2.iopReadW_value .word _ _),
    becomes_of_quiet all (by rfl) (core_setTag (core_setReg (IopChan.core_after all.calm.ch m 4) _ _) _ _)⟩

/-- MOVP stores a pointer in three bytes. -/
theorem movp_store (m : IMem) (p : IPtr) :
    IopWrites s (.iMovpMemPtr m p) (s.ch.after m 3) (s.ch.space m) 3 (s.ch.ea m)
      (pointerBytes (s.ch.reg (ptrReg p)) (s.ch.tagOf p)) := by
  obtain ⟨calm, stored⟩ := s.iopSavePtr_spec (s.ch.space m) (s.ch.ea m) (s.ch.reg (ptrReg p)) (s.ch.tagOf p)
  exact writes_of_calm calm stored (by rfl) (IopChan.core_after calm.ch m 3)

end Moves

/-- The data byte of MOVBI, zero-extended, keeps its value. -/
theorem zext_toNat (b : Byte) : (zext b).toNat = b.toNat := by
  rw [Registers.zext_eq]
  exact BitVec.toNat_setWidth_of_le (by decide)

section Registers

variable (c : IopChan) (r : IReg) (v : Addr20)

theorem tagOf_setReg (p : IPtr) : (c.setReg r v).tagOf p = c.tagOf p := by
  cases r <;> cases p <;> rfl

theorem tagOf_setTag (p : IPtr) : (c.setTag r true).tagOf p = (decide (ptrReg p = r) || c.tagOf p) := by
  cases r <;> cases p <;> rfl

theorem setReg_frame : (c.setReg r v).pp = c.pp ∧ (c.setReg r v).psw = c.psw := by
  cases r <;> exact ⟨rfl, rfl⟩

theorem isPointer_iff : isPointer r = decide (r = .ga ∨ r = .gb ∨ r = .gc ∨ r = .tp) := by
  cases r <;> rfl

end Registers

/-- A memory operand lies at its base register, plus an offset or IX (R592). -/
theorem operandAddress (c : IopChan) (b : IBase) (o : Byte) (n : ℕ) :
    let r : Addr20 × Bool := (c.base b, c.baseTag b)
    c.ea (.base b) = r.1.toNat ∧ c.ea (.off b o) = (r.1.toNat + o.toNat) % 2 ^ 20 ∧
      c.ea (.idx b) = (r.1.toNat + c.ix.toNat) % 2 ^ 20 ∧ c.ea (.idxInc b) = (r.1.toNat + c.ix.toNat) % 2 ^ 20 ∧
      c.space (.base b) = r.2 ∧ c.space (.off b o) = r.2 ∧ c.space (.idx b) = r.2 ∧ c.space (.idxInc b) = r.2 ∧
      c.after (.base b) n = c ∧ c.after (.off b o) n = c ∧ c.after (.idx b) n = c ∧
      c.after (.idxInc b) n = { c with ix := c.ix + BitVec.ofNat 16 n } :=
  ⟨rfl, rfl, rfl, rfl, rfl, rfl, rfl, rfl, rfl, rfl, rfl, rfl⟩

/-- Settles O52: each instruction from the form of its run, and the registers from `setReg`. -/
theorem iopMoves : Obligations.IopMoves := by
  refine ⟨fun c b o n => ?_, fun s => ⟨?_, ?_, ?_, ?_, ?_, ?_, ?_, ?_, ?_, movp_load s, movp_store s, lpd_load s, ?_⟩,
    fun c r q v => ⟨?_, (setReg_frame c r v).1, (setReg_frame c r v).2, tagOf_setReg c r v, fun p => ?_⟩⟩
  · have place := operandAddress c b o n
    cases b <;> exact place
  · exact fun r m => becomes_move s rfl
  · exact fun r m => becomes_move s rfl
  · exact fun m r => ⟨writes_of_store rfl, writes_of_store rfl⟩
  · exact fun m n => writes_between s rfl
  · exact fun m n => writes_between s rfl
  · exact fun r v => becomes_of_setCh rfl
  · exact fun r v => becomes_of_setCh rfl
  · exact fun m v => writes_of_store rfl
  · intro m v
    rw [← zext_toNat v]
    exact writes_of_store rfl
  · exact fun p off seg => becomes_of_setCh rfl
  · split
    · next same => rw [same, reg_setReg_self, isPointer_iff]
    · next other => exact reg_setReg_of_ne c other v
  · exact (tagOf_setTag _ r p).trans (by rw [tagOf_setReg])

end Sys2Proof.Certificates.IopDataTransfer

/-! SUPPORT and CERTIFICATE. The arithmetic, logic and bit instructions of the VM89. -/

namespace Sys2Proof.Certificates.IopArithmetic

open Sys2Proof.Machine Sys2Proof.Certificates.IopChannel

/-- A byte result as the statement fills a register is `fill`. -/
theorem fill_byte (v : Word) : fill .byte v = (v.truncate 8).signExtend 16 := by
  rw [fill, lowByte_eq]
  rfl

section Forms

variable {s : State}

/-- A memory operand added to a register: all bits take part (R607, R608). -/
theorem becomes_add {i : Instr} {w : Width} {r : IReg} {m : IMem}
    (run : exec i s = iopArith r (s.ch.reg r + sext20 (s.iopLoad w m).1) (s.iopLoad w m).2) :
    ∃ v, s.IopOperandIs w m v ∧
      IopBecomes s i ((s.ch.after m (widthBytes w)).setReg r (s.ch.reg r + v.signExtend 20)) :=
  becomes_of_load (fun v c => c.setReg r (s.ch.reg r + sext20 v)) (fun _ _ _ h => core_setReg h r _) run

/-- A logic result of a register into it. -/
theorem becomes_logic {i : Instr} {r : IReg} {v : Word} (run : exec i s = .next (s.iopLogic r v)) :
    ∃ x : Addr20, x.truncate 16 = v ∧ IopBecomes s i (s.ch.setReg r x) := by
  obtain ⟨x, low, chan, cells⟩ := iopLogic_spec s r v
  exact ⟨x, low, _, run, chan, cells⟩

theorem becomes_logic_byte {i : Instr} {r : IReg} {v : Word} (run : exec i s = .next (s.iopLogic r (fill .byte v))) :
    ∃ x : Addr20, x.truncate 16 = (v.truncate 8).signExtend 16 ∧ IopBecomes s i (s.ch.setReg r x) := by
  rw [← fill_byte]
  exact becomes_logic run

/-- A logic result of a memory operand into a register. -/
theorem becomes_logic_mem {i : Instr} {w : Width} {r : IReg} {m : IMem} (f : Word → Word)
    (run : exec i s = .next ((s.iopLoad w m).2.iopLogic r (fill w (f (s.iopLoad w m).1)))) :
    ∃ v, ∃ x : Addr20, s.IopOperandIs w m v ∧
      x.truncate 16 = (if w = .byte then ((f v).truncate 8).signExtend 16 else f v) ∧
      IopBecomes s i ((s.ch.after m (widthBytes w)).setReg r x) := by
  obtain ⟨x, low, chan, cells⟩ := iopLogic_spec (s.iopLoad w m).2 r (fill w (f (s.iopLoad w m).1))
  refine ⟨_, x, s.iopLoad_value w m, low.trans ?_, _, run, ?_, sameCells_trans (sameCells_iopLoad s w m) cells⟩
  · cases w
    case byte => exact fill_byte _
    case word => rfl
  · exact channelIs_congr (channelIs_trans (channelIs_iopLoad s w m) chan) (core_setReg (ch_iopLoad s w m) r x)

/-- A byte of memory changed: only the low byte of the function's value counts. -/
theorem writes_of_modify_byte {i : Instr} {m : IMem} (g f : Word → Word)
    (low : ∀ v, (g v).toNat % 256 = (f v).toNat % 256) (run : exec i s = .next (s.iopModify .byte m g)) :
    ∃ v, s.IopOperandIs .byte m v ∧
      IopWrites s i (s.ch.after m (widthBytes .byte)) (s.ch.space m) (widthBytes .byte) (s.ch.ea m) (f v).toNat := by
  obtain ⟨v, operand, t, run', chan, stored⟩ := writes_of_modify g run
  exact ⟨v, operand, t, run', chan, cellsStored_congr stored (low v)⟩

end Forms

/-- Sign and zero extension of a byte agree in the low byte of a sum. -/
theorem add_sext_low (v : Word) (d : Byte) : (v + sext d).toNat % 256 = (v + d.zeroExtend 16).toNat % 256 := by
  have low : ∀ x : Word, (v + x).toNat % 256 = (v.toNat + x.toNat % 256) % 256 := fun x => by
    rw [BitVec.toNat_add]
    omega
  have ext : (sext d).toNat % 256 = (d.zeroExtend 16).toNat % 256 := by
    revert d
    decide
  rw [low, low, ext]

/-- Settles O53: each instruction from the form of its run. -/
theorem iopArithmeticAndLogic : Obligations.IopArithmeticAndLogic := by
  refine fun s => ⟨?_, ?_, ?_, ?_, ?_, ?_, ?_, ?_, ?_, ?_, ?_, ?_, ?_, ?_, ?_⟩
  · exact fun r m => becomes_add rfl
  · exact fun r m => becomes_add rfl
  · exact fun r m => becomes_logic_mem (fun v => s.ch.reg16 r &&& v) rfl
  · exact fun r m => becomes_logic_mem (fun v => s.ch.reg16 r &&& v) rfl
  · exact fun r m => becomes_logic_mem (fun v => s.ch.reg16 r ||| v) rfl
  · exact fun r m => becomes_logic_mem (fun v => s.ch.reg16 r ||| v) rfl
  · exact fun r m => becomes_logic_mem (fun v => ~~~v) rfl
  · exact fun r m => becomes_logic_mem (fun v => ~~~v) rfl
  · exact fun m r => ⟨writes_of_modify _ rfl, writes_of_modify _ rfl, writes_of_modify _ rfl, writes_of_modify _ rfl,
      writes_of_modify _ rfl, writes_of_modify _ rfl⟩
  · exact fun m d => ⟨writes_of_modify _ rfl, writes_of_modify _ rfl, writes_of_modify _ rfl⟩
  · refine fun m d => ⟨writes_of_modify_byte _ _ (fun v => add_sext_low v d) rfl, ?_, ?_⟩
    · rw [← Registers.zext_eq]
      exact writes_of_modify _ rfl
    · rw [← Registers.zext_eq]
      exact writes_of_modify _ rfl
  · exact fun m => ⟨writes_of_modify _ rfl, writes_of_modify _ rfl, writes_of_modify _ rfl, writes_of_modify _ rfl,
      writes_of_modify _ rfl, writes_of_modify _ rfl, fun b => ⟨writes_of_modify _ rfl, writes_of_modify _ rfl⟩⟩
  · exact fun r d => ⟨becomes_of_setCh rfl, becomes_logic rfl, becomes_logic rfl⟩
  · refine fun r d => ⟨becomes_of_setCh rfl, ?_, ?_⟩
    · rw [← Registers.zext_eq]
      exact becomes_logic_byte rfl
    · rw [← Registers.zext_eq]
      exact becomes_logic_byte rfl
  · exact fun r => ⟨becomes_of_setCh rfl, becomes_of_setCh rfl, becomes_logic rfl⟩

end Sys2Proof.Certificates.IopArithmetic

/-! SUPPORT and CERTIFICATE. The jumps and calls of the VM89. -/

namespace Sys2Proof.Certificates.IopJumping

open Sys2Proof.Machine Sys2Proof.Certificates.IopChannel

/-- The low byte of an operand, as the statement names it. -/
theorem lowByte_truncate (v : Word) : lowByte v = v.truncate 8 := by
  rw [lowByte_eq]
  rfl

/-- The comparison of JMCE under the mask, bit by bit (R77). -/
theorem maskedEqual_iff (mc : Word) (b : Byte) : maskedEqual mc b = true ↔ agrees mc b := by
  have low : ∀ j, j < 8 → (lowByte mc).getLsbD j = mc.getLsbD j := fun j hj => by
    rw [lowByte_eq, BitVec.getLsbD_ofNat, decide_eq_true hj, Bool.true_and, BitVec.getLsbD]
  have high : ∀ j, j < 8 → (highByte mc).getLsbD j = mc.getLsbD (8 + j) := fun j hj => by
    rw [highByte_eq, BitVec.getLsbD_ofNat, decide_eq_true hj, Bool.true_and, BitVec.getLsbD,
      show (256 : ℕ) = 2 ^ 8 from rfl, Nat.testBit_div_two_pow, Nat.add_comm]
  rw [maskedEqual, beq_iff_eq, agrees]
  constructor
  · intro zero j hj masked
    have at_ := congrArg (fun x => BitVec.getLsbD x j) zero
    rw [BitVec.getLsbD_and, BitVec.getLsbD_xor, low j hj, high j hj, masked, Bool.and_true] at at_
    simpa using at_
  · intro agree
    refine BitVec.eq_of_getLsbD_eq fun j hj => ?_
    rw [BitVec.getLsbD_and, BitVec.getLsbD_xor, low j hj, high j hj, BitVec.getLsbD_zero]
    cases masked : mc.getLsbD (8 + j)
    · exact Bool.and_false _
    · rw [agree j hj masked, Bool.xor_self]
      rfl

section Jumps

variable {s : State}

/-- A jump leaves every byte and puts the sum into TP. -/
theorem iopJump_spec (t : State) (d : Addr20) :
    t.ChannelIs (t.iopJump d) (t.ch.setReg .tp (t.ch.tp + d)) ∧ t.SameCells (t.iopJump d) :=
  ⟨channelIs_setCh t _, sameCells_setCh t _⟩

theorem core_jump {c d : IopChan} (h : c.core = d.core) (a : Addr20) :
    (c.setReg .tp (c.tp + a)).core = (d.setReg .tp (d.tp + a)).core := by
  rw [show c.tp = d.tp from reg_eq h .tp]
  exact core_setReg h .tp _

/-- A jump on a condition of a register. -/
theorem becomes_jumpIf {i : Instr} {d : Addr20} {test : Bool} {p : Prop} (means : test = true ↔ p)
    (run : exec i s = .next (s.iopJumpIf test d)) :
    (p → IopBecomes s i (s.ch.setReg .tp (s.ch.tp + d))) ∧ (¬p → IopBecomes s i s.ch) := by
  constructor
  · intro holds
    rw [means.mpr holds] at run
    exact becomes_of_setCh run
  · intro fails
    rw [Bool.eq_false_iff.mpr fun h => fails (means.mp h)] at run
    exact ⟨s, run, channelIs_of_calm (.refl s), fun _ _ => rfl⟩

/-- A jump on a condition of a memory operand. -/
theorem becomes_jumpIf_mem {i : Instr} {w : Width} {m : IMem} {d : Addr20} {test : Word → Bool} {p : Word → Prop}
    (means : ∀ v, test v = true ↔ p v)
    (run : exec i s = .next ((s.iopLoad w m).2.iopJumpIf (test (s.iopLoad w m).1) d)) :
    ∃ v, s.IopOperandIs w m v ∧
      (p v → IopBecomes s i ((s.ch.after m (widthBytes w)).setReg .tp ((s.ch.after m (widthBytes w)).tp + d))) ∧
      (¬p v → IopBecomes s i (s.ch.after m (widthBytes w))) := by
  have loaded := channelIs_iopLoad s w m
  have cells := sameCells_iopLoad s w m
  have chan := ch_iopLoad s w m
  refine ⟨_, s.iopLoad_value w m, fun holds => ?_, fun fails => ?_⟩
  · rw [(means _).mpr holds] at run
    obtain ⟨jumped, same⟩ := iopJump_spec (s.iopLoad w m).2 d
    exact ⟨_, run, channelIs_congr (channelIs_trans loaded jumped) (core_jump chan d), sameCells_trans cells same⟩
  · rw [Bool.eq_false_iff.mpr fun h => fails ((means _).mp h)] at run
    exact ⟨_, run, loaded, cells⟩

/-- A call saves TP with its TAG bit and jumps (R627, R628). -/
theorem writes_call {i : Instr} {m : IMem} {d : Addr20}
    (run : let t := s.iopSavePtr (s.ch.space m) (s.ch.ea m) s.ch.tp s.ch.tagTp
      exec i s = .next ((t.setCh (t.ch.after m 3)).iopJump d)) :
    IopWrites s i ((s.ch.after m 3).setReg .tp ((s.ch.after m 3).tp + d)) (s.ch.space m) 3 (s.ch.ea m)
      (pointerBytes s.ch.tp s.ch.tagTp) := by
  obtain ⟨calm, stored⟩ := s.iopSavePtr_spec (s.ch.space m) (s.ch.ea m) s.ch.tp s.ch.tagTp
  have stepped := calm.setCh (IopChan.core_after calm.ch m 3)
  obtain ⟨jumped, -⟩ := iopJump_spec _ d
  exact ⟨_, run, channelIs_congr (channelIs_trans stepped jumped) (core_jump (channelIs_ch stepped) d), stored⟩

end Jumps

theorem masked_iff (mc v : Word) : maskedEqual mc (lowByte v) = true ↔ agrees mc (v.truncate 8) := by
  rw [maskedEqual_iff, lowByte_truncate]

theorem not_masked_iff (mc v : Word) : (!maskedEqual mc (lowByte v)) = true ↔ ¬agrees mc (v.truncate 8) := by
  rw [Bool.not_eq_true', ← Bool.not_eq_true, masked_iff]

theorem bit_iff (v : Word) (b : ℕ) : bit (lowByte v) b = true ↔ (v.truncate 8).getLsbD b = true := by
  rw [lowByte_truncate, bit]

theorem not_bit_iff (v : Word) (b : ℕ) : (!bit (lowByte v) b) = true ↔ (v.truncate 8).getLsbD b = false := by
  rw [lowByte_truncate, bit, Bool.not_eq_true']

/-- Settles O54: each jump from its condition and the form of its run. -/
theorem iopJumpsAndCalls : Obligations.IopJumpsAndCalls := by
  refine fun s d8 d16 => ⟨becomes_of_setCh rfl, becomes_of_setCh rfl, fun r => ⟨?_, ?_, ?_, ?_⟩,
    fun m => ⟨?_, ?_, ?_, ?_, ?_, ?_, ?_, ?_, ?_, ?_, ?_, ?_, fun b => ⟨?_, ?_, ?_, ?_⟩, ?_, ?_⟩⟩
  · exact becomes_jumpIf beq_iff_eq rfl
  · exact becomes_jumpIf beq_iff_eq rfl
  · exact becomes_jumpIf bne_iff_ne rfl
  · exact becomes_jumpIf bne_iff_ne rfl
  · exact becomes_jumpIf_mem (fun _ => beq_iff_eq) rfl
  · exact becomes_jumpIf_mem (fun _ => beq_iff_eq) rfl
  · exact becomes_jumpIf_mem (fun _ => bne_iff_ne) rfl
  · exact becomes_jumpIf_mem (fun _ => bne_iff_ne) rfl
  · exact becomes_jumpIf_mem (fun _ => beq_iff_eq) rfl
  · exact becomes_jumpIf_mem (fun _ => beq_iff_eq) rfl
  · exact becomes_jumpIf_mem (fun _ => bne_iff_ne) rfl
  · exact becomes_jumpIf_mem (fun _ => bne_iff_ne) rfl
  · exact becomes_jumpIf_mem (masked_iff s.ch.mc) rfl
  · exact becomes_jumpIf_mem (masked_iff s.ch.mc) rfl
  · exact becomes_jumpIf_mem (not_masked_iff s.ch.mc) rfl
  · exact becomes_jumpIf_mem (not_masked_iff s.ch.mc) rfl
  · exact becomes_jumpIf_mem (fun v => bit_iff v b.toNat) rfl
  · exact becomes_jumpIf_mem (fun v => bit_iff v b.toNat) rfl
  · exact becomes_jumpIf_mem (fun v => not_bit_iff v b.toNat) rfl
  · exact becomes_jumpIf_mem (fun v => not_bit_iff v b.toNat) rfl
  · exact writes_call rfl
  · exact writes_call rfl

end Sys2Proof.Certificates.IopJumping

/-! SUPPORT and CERTIFICATE. The processor control instructions of the VM89. -/

namespace Sys2Proof.Certificates.IopProcessor

open Sys2Proof.Machine Sys2Proof.Certificates.IopChannel

theorem sext_eq_zero_iff (b : Byte) : sext b = 0#16 ↔ b = 0#8 := by
  revert b
  decide

/-- TSL compares the byte with zero and the outcome with the platform's polarity (R647, D43). -/
theorem tsl_jumps_iff (b : Byte) (polarity : Bool) :
    ((b == 0#8) == polarity) = true ↔ (sext b = 0#16 ↔ polarity = true) := by
  rw [sext_eq_zero_iff, beq_iff_eq, Bool.eq_iff_iff, beq_iff_eq]

/-- TSL: a read, and then a jump or a write of the data. -/
theorem tsl_spec (s : State) (m : IMem) (d rel : Byte) :
    ∃ v, s.IopOperandIs .byte m v ∧
      ((v = 0#16 ↔ s.plat.tslJumpWhenZero = true) → IopBecomes s (.iTslMemData m d rel)
        ((s.ch.after m 1).setReg .tp ((s.ch.after m 1).tp + rel.signExtend 20))) ∧
      (¬(v = 0#16 ↔ s.plat.tslJumpWhenZero = true) →
        IopWrites s (.iTslMemData m d rel) (s.ch.after m 1) (s.ch.space m) 1 (s.ch.ea m) d.toNat) := by
  have quiet := s.iopRead8_quiet (s.ch.space m) (s.ch.ea m)
  have arm : exec (.iTslMemData m d rel) s = execITslMemData m d rel s := rfl
  have operand : s.IopOperandIs .byte m (sext (s.iopRead8 (s.ch.space m) (s.ch.ea m)).1) := s.iopReadW_value .byte _ _
  rw [execITslMemData] at arm
  dsimp only at arm
  refine ⟨_, operand, fun jumps => ?_, fun stays => ?_⟩
  · rw [if_pos ((tsl_jumps_iff _ _).mpr jumps)] at arm
    have stepped := quiet.calm.setCh (IopChan.core_after quiet.calm.ch m 1)
    obtain ⟨jumped, same⟩ := IopJumping.iopJump_spec _ (sext20b rel)
    exact ⟨_, arm,
      channelIs_congr (channelIs_trans stepped jumped) (IopJumping.core_jump (channelIs_ch stepped) _),
      sameCells_trans quiet.cells same⟩
  · rw [if_neg fun h => stays ((tsl_jumps_iff _ _).mp h)] at arm
    obtain ⟨calm, stored⟩ :=
      (s.iopRead8 (s.ch.space m) (s.ch.ea m)).2.iopWrite8_spec (s.ch.space m) (s.ch.ea m) d
    have all := quiet.calm.trans calm
    exact ⟨_, arm, all.setCh (IopChan.core_after all.ch m 1),
      cellsStored_after_same (plat_of_calm quiet.calm) quiet.cells stored⟩

/-- WID sets the two logical widths and keeps the other bits of the PSW (R648). -/
theorem wid_spec (s : State) (x y : Bool) :
    ∃ p : Byte, IopBecomes s (.iWid x y) { s.ch with psw := p, widDone := true } ∧ p.getLsbD 1 = x ∧ p.getLsbD 0 = y ∧
      ∀ k, 2 ≤ k → p.getLsbD k = s.ch.psw.getLsbD k := by
  have bits : ∀ k, (setBit (setBit s.ch.psw 1 x) 0 y).getLsbD k =
      if k = 0 then y else if k = 1 then x else s.ch.psw.getLsbD k := fun k => by
    rw [setBit_getLsbD _ _ _ _ (by decide), setBit_getLsbD _ _ _ _ (by decide)]
  refine ⟨_, becomes_of_setCh rfl, bits 1, bits 0, fun k hk => (bits k).trans ?_⟩
  rw [if_neg (by omega), if_neg (by omega)]

/-- HLT clears BUSY of the channel in memory (R651). -/
theorem hlt_spec (s : State) :
    IopWrites s .iHlt { s.ch with psw := s.ch.psw &&& 0xFB#8, activity := .idle } false 1
      (s.iop.block s.iop.cur + 1) 0 := by
  obtain ⟨calm, stored⟩ := s.iopWrite8_spec false (s.iop.block s.iop.cur + 1) 0#8
  exact writes_of_calm calm stored rfl
    (congrArg (fun c : IopChan => { c with psw := c.psw &&& 0xFB#8, activity := Activity.idle }) calm.ch)

/-- Settles O55. -/
theorem iopProcessorControl : Obligations.IopProcessorControl := fun s =>
  ⟨tsl_spec s, wid_spec s, becomes_of_setCh rfl, becomes_of_setCh rfl, hlt_spec s, rfl⟩

end Sys2Proof.Certificates.IopProcessor

/-! SUPPORT and CERTIFICATE. A channel attention that starts a program: the BUSY byte, the command, the pointers. -/

namespace Sys2Proof.Certificates.ChannelStart

open Sys2Proof.Machine Sys2Proof.Certificates.IopChannel

/-! ### Reads of the system space without devices -/

theorem iop_iopRead8 {s : State} (n : s.NoDevices) (a : ℕ) : (s.iopRead8 false a).2.iop = s.iop := by
  change (s.read8 (a % 2 ^ 20)).2.iop = s.iop
  unfold State.read8
  split
  · rfl
  · rfl
  · rfl
  · next d k off h => exact absurd (congrArg Prod.fst h) (n.1 _ d k)

theorem iop_iopRead16 {s : State} (n : s.NoDevices) (a : ℕ) : (s.iopRead16 false a).2.iop = s.iop := by
  have low := iop_iopRead8 n a
  rw [State.iopRead16]
  dsimp only
  split
  · exact low
  · exact (iop_iopRead8 (n.congr (plat_of_calm (s.iopRead8_quiet false a).calm)) _).trans low

theorem iop_iopPointer {s : State} (n : s.NoDevices) (a : ℕ) : (s.iopPointer false a).2.iop = s.iop :=
  (iop_iopRead16 (n.congr (plat_of_calm (s.iopRead16_quiet false a).calm)) _).trans (iop_iopRead16 n a)

/-! ### The pointers (48_vm89_iop.md R570, R575) -/

/-- A pointer of two words, the offset first. -/
theorem iopPointer_value (s : State) (a : ℕ) :
    ∃ off seg, s.CellsAre .word false a off ∧ s.CellsAre .word false (a + 2) seg ∧
      (s.iopPointer false a).1 = BitVec.ofNat 20 (phys seg off) := by
  have quiet := s.iopRead16_quiet false a
  exact ⟨_, _, s.iopReadW_value .word false a,
    cellsAre_of_quiet quiet (State.iopReadW_value _ .word false (a + 2)), rfl⟩

theorem toNat_phys (seg off : Word) : (BitVec.ofNat 20 (phys seg off)).toNat = phys seg off := by
  rw [BitVec.toNat_ofNat, phys, Nat.mod_mod]

/-- The start of a program in the system space (R575). -/
theorem iopStart_spec {s : State} (idle : s.ch.activity = .idle) (base : ℕ) :
    ∃ t pp, s.iopStart base false = .next t ∧ s.SameCells t ∧ t.iop.cur = s.iop.cur ∧
      t.ch.pp = BitVec.ofNat 20 pp ∧ t.ch.tagTp = false ∧ t.ch.activity = .program ∧
      t.ch.psw.getLsbD 2 = true ∧ t.ch.psw.getLsbD 6 = false ∧ (s.NoDevices → t.ch.ca = s.ch.ca) ∧
      (∃ off seg, t.CellsAre .word false (base + 2) off ∧ t.CellsAre .word false (base + 4) seg ∧ pp = phys seg off) ∧
      ∃ off seg, t.CellsAre .word false pp off ∧ t.CellsAre .word false (pp + 2) seg ∧
        t.ch.tp = BitVec.ofNat 20 (phys seg off) := by
  let pp := s.iopPointer false (base + 2)
  let tp := pp.2.iopPointer false pp.1.toNat
  have first : s.Quiet pp.2 := s.iopPointer_quiet false (base + 2)
  have both : s.Quiet tp.2 := first.trans (State.iopPointer_quiet _ _ _)
  obtain ⟨off, seg, offIs, segIs, ppIs⟩ := iopPointer_value s (base + 2)
  obtain ⟨off', seg', offIs', segIs', tpIs⟩ := iopPointer_value pp.2 pp.1.toNat
  let c : IopChan := { (tp.2.ch.setPsw 2 true).setPsw 6 false with
    pp := pp.1, tp := tp.1, tagTp := false, queued := false, look := [], kept := none, activity := .program,
    armed := false, suspended := false }
  have run : s.iopStart base false = .next (tp.2.setCh c) := by
    rw [State.iopStart, idle]
    rfl
  have chan : (tp.2.setCh c).ch = c := ch_setCh _ _
  have psw : ∀ k, c.psw.getLsbD k =
      if k = 6 then false else if k = 2 then true else tp.2.ch.psw.getLsbD k := fun k => by
    change (setBit (setBit tp.2.ch.psw 2 true) 6 false).getLsbD k = _
    rw [setBit_getLsbD _ _ _ _ (by decide), setBit_getLsbD _ _ _ _ (by decide)]
  have cur : tp.2.iop.cur = s.iop.cur := cur_of_calm both.calm
  have ppNat : pp.1.toNat = phys seg off := (congrArg BitVec.toNat ppIs).trans (toNat_phys seg off)
  rw [ppNat] at offIs' segIs'
  refine ⟨tp.2.setCh c, phys seg off, run, both.cells, (cur_setChan _ _ _).trans cur, ?_, ?_, ?_, ?_, ?_, fun n => ?_,
    ⟨off, seg, cellsAre_after_quiet both offIs, cellsAre_after_quiet both segIs, rfl⟩, off', seg', ?_, ?_, ?_⟩
  · rw [chan]
    exact ppIs
  · rw [chan]
  · rw [chan]
  · rw [chan, psw]
    rfl
  · rw [chan, psw]
    rfl
  · have same : tp.2.iop = s.iop :=
      (iop_iopPointer (n.congr (plat_of_calm first.calm)) _).trans (iop_iopPointer n _)
    have ca : c.ca = tp.2.ch.ca := rfl
    rw [chan, ca, State.ch, State.ch, same]
  · exact cellsAre_after_quiet (State.iopPointer_quiet _ _ _) offIs'
  · exact cellsAre_after_quiet (State.iopPointer_quiet _ _ _) segIs'
  · rw [chan]
    exact tpIs

/-! ### The answer to a channel attention (R572-R574, R581) -/

/-- The channel that answers runs, and its request is served. -/
def called (s : State) (n : ChanNo) : State :=
  { s with iop := { s.iop.setChan n { s.iop.chan n with ca := false } with cur := n } }

/-- BUSY of the channel is marked in memory. -/
def busy (s : State) (n : ChanNo) : State := (called s n).iopWrite8 false (s.iop.block n + 1) 0xFF#8

/-- The command byte has been read and its actions on the PSW taken. -/
def commanded (s : State) (n : ChanNo) (ccw : Byte) : State := (busy s n).setCh ((busy s n).ch.applyCcw ccw)

section Answer

variable (s : State) (n : ChanNo)

theorem called_eq : ({ s with iop := { s.iop with cur := n } } : State).setCh
    { ({ s with iop := { s.iop with cur := n } } : State).ch with ca := false } = called s n := by
  cases n <;> rfl

theorem block_cur : ({ s.iop with cur := n } : Iop).block n = s.iop.block n := by
  cases n <;> rfl

theorem ch_called : (called s n).ch = { s.iop.chan n with ca := false } := by
  cases n <;> rfl

theorem activity_applyCcw (c : IopChan) (ccw : Byte) :
    (c.applyCcw ccw).activity = c.activity ∧ (c.applyCcw ccw).ca = c.ca := by
  rw [IopChan.applyCcw]
  split <;> exact ⟨rfl, rfl⟩

theorem busy_spec : (called s n).Calm (busy s n) ∧ s.CellsStored (busy s n) false 1 (s.iop.block n + 1) 0xFF :=
  (called s n).iopWrite8_spec false (s.iop.block n + 1) 0xFF#8

theorem cur_busy : (busy s n).iop.cur = n :=
  cur_of_calm (busy_spec s n).1

/-- The command byte reads as it was: BUSY is the next byte. -/
theorem command_read (ram : s.cellKind false (iopCell false (s.iop.block n)) = .ram) :
    (busy s n).iopRead8 false (s.iop.block n) = (s.cellByte false (iopCell false (s.iop.block n)), busy s n) := by
  obtain ⟨calm, rest, -⟩ := busy_spec s n
  have memory : (busy s n).cellMemory false (iopCell false (s.iop.block n)) :=
    Or.inl ((State.cellKind_congr (s := called s n) (plat_of_calm calm) _ _).trans ram)
  have same := rest false (iopCell false (s.iop.block n)) fun _ k hk => by
    rw [Nat.add_assoc]
    exact iopCell_ne (a := s.iop.block n) (j := 0) (by decide) (by omega) (by omega)
  rw [State.iopRead8_memory _ memory, same]

/-- A store in RAM raises no request. -/
theorem ca_busy (ram : s.cellKind false (iopCell false (s.iop.block n + 1)) = .ram) : (busy s n).ch.ca = false := by
  have stores : busy s n = (called s n).store8 ((s.iop.block n + 1) % 2 ^ 20) 0xFF#8 := by
    change (called s n).write8 ((s.iop.block n + 1) % 2 ^ 20) 0xFF#8 = _
    have kind : (findRegion .ram ((s.iop.block n + 1) % 2 ^ 20) (called s n).plat.memoryMap).1 = .ram := ram
    unfold State.write8
    split
    · rfl
    all_goals next h => rw [h] at kind; cases kind
  have note : ∀ (c : IopChan) (io : Bool) (a : ℕ) (b : Byte), (c.noteStore io a b).ca = c.ca := fun c io a b => by
    rw [IopChan.noteStore]
    split <;> split <;> rfl
  rw [stores]
  cases n <;> exact note _ _ _ _

/-- A command byte with CF = 011 starts a program in the system space. -/
theorem iopAnswer_start (ram : s.cellKind false (iopCell false (s.iop.block n)) = .ram)
    (command : (s.cellByte false (iopCell false (s.iop.block n))).toNat % 8 = 3) :
    s.iopAnswer n =
      (commanded s n (s.cellByte false (iopCell false (s.iop.block n)))).iopStart (s.iop.block n) false := by
  have field : fieldNat (s.cellByte false (iopCell false (s.iop.block n))) 0 3 = 3 := by
    rw [fieldNat, pow_zero, Nat.div_one]
    exact command
  have read := command_read s n ram
  rw [busy] at read
  unfold State.iopAnswer
  dsimp only
  rw [called_eq, block_cur, read]
  dsimp only
  rw [field]
  rfl

end Answer

/-- Settles O56: the answer is the start of the program after the mark of BUSY and the command. -/
theorem channelStartLoadsThePointers : Obligations.ChannelStartLoadsThePointers := by
  intro s n base idle ram command
  have ram0 := ram 0 (by decide)
  have ram1 := ram 1 (by decide)
  obtain ⟨calm, stored⟩ := busy_spec s n
  let ccw := s.cellByte false (iopCell false base)
  have chan : (commanded s n ccw).ch = (busy s n).ch.applyCcw ccw := ch_setCh _ _
  obtain ⟨activity, ca⟩ := activity_applyCcw (busy s n).ch ccw
  have idle' : (commanded s n ccw).ch.activity = .idle := by
    have same := congrArg IopChan.activity calm.ch
    have start : (called s n).ch.activity = .idle := by rw [ch_called]; exact idle
    rw [chan, activity]
    exact same.trans start
  obtain ⟨t, pp, run, cells, cur, ppIs, tag, runs, tb, xf, request, block, program⟩ := iopStart_spec idle' base
  have here : t.ch = t.iop.chan n := by
    rw [State.ch, cur, commanded, State.setCh_iop, cur_setChan, cur_busy]
  rw [here] at ppIs tag runs tb xf request program
  obtain ⟨rest, bytes⟩ := stored
  refine ⟨t, pp, (iopAnswer_start s n ram0 command).trans run,
    ⟨fun io x hx => (cells io x).trans (rest io x hx), fun k hk => (cells _ _).trans (bytes k hk)⟩, ppIs, tag, runs, tb,
    xf, fun none => ?_, block, program⟩
  have marked : (busy s n).plat = (called s n).plat := plat_of_calm calm
  have plat : (commanded s n ccw).plat = s.plat := marked
  rw [request (none.congr plat), chan, ca, ca_busy s n ram1]

end Sys2Proof.Certificates.ChannelStart

/-! SUPPORT and CERTIFICATE. A transfer cycle of one byte: the read bus cycle, the write bus cycle, and the end. -/

namespace Sys2Proof.Certificates.TransferCycle

open Sys2Proof.Machine Sys2Proof.Certificates.IopChannel

/-- The PSW and CC of a transfer of bytes without synchronisation, translation or an end condition. -/
structure Plain (psw : Byte) (cc : Word) : Prop where
  widths : psw.toNat % 4 = 0
  translate : cc.getLsbD 13 = false
  syn : fieldNat cc 11 2 = 0
  compare : cc.toNat % 4 = 0
  count : cc.getLsbD 3 = false ∧ cc.getLsbD 4 = false
  external : cc.getLsbD 5 = false ∧ cc.getLsbD 6 = false
  single : cc.getLsbD 7 = false

/-- The cycle of one byte, not yet written. -/
def byteCycle : XferCycle := { readWord := false, writeWord := false, written := 0 }

/-- A field of two bits is 0 when both are. -/
theorem fieldNat_two {n : ℕ} {v : BitVec n} {lo : ℕ} (low : v.getLsbD lo = false) (high : v.getLsbD (lo + 1) = false) :
    fieldNat v lo 2 = 0 := by
  apply Nat.eq_of_testBit_eq
  intro i
  rw [fieldNat, Nat.testBit_mod_two_pow, Nat.testBit_div_two_pow, Nat.zero_testBit]
  match i with
  | 0 => simpa [BitVec.getLsbD] using low
  | 1 => simpa [BitVec.getLsbD, Nat.add_comm] using high
  | i + 2 => rw [decide_eq_false (by omega), Bool.false_and]

section Conditions

variable {c : IopChan} (h : Plain c.psw c.cc)

include h

theorem widths_byte : bit c.psw 1 = false ∧ bit c.psw 0 = false := by
  have low : ∀ i, i < 2 → bit c.psw i = false := fun i hi => by
    have shown : (c.psw.toNat % 2 ^ 2).testBit i = c.psw.toNat.testBit i := by
      rw [Nat.testBit_mod_two_pow, decide_eq_true hi, Bool.true_and]
    rw [bit, BitVec.getLsbD, ← shown, show c.psw.toNat % 2 ^ 2 = 0 from h.widths, Nat.zero_testBit]
  exact ⟨low 1 (by decide), low 0 (by decide)⟩

theorem newCycle_byte : c.newCycle = byteCycle := by
  obtain ⟨one, zero⟩ := widths_byte h
  rw [IopChan.newCycle, one, zero]
  rfl

/-- Nothing refuses the cycle once a WID has been executed. -/
theorem cycleRefusal_byte (p : Iop) (wid : c.widDone = true) : p.cycleRefusal c = none := by
  obtain ⟨one, zero⟩ := widths_byte h
  have syn : c.syn = 0 := h.syn
  have size : (c.newCycle.size == 2) = false := by rw [newCycle_byte h]; rfl
  simp [Iop.cycleRefusal, wid, syn, one, zero, size]

/-- No condition ends the transfer. -/
theorem termination_byte (b : Byte) : c.termination b = none := by
  have single : c.single = false := h.single
  have tx : fieldNat c.cc 5 2 = 0 := fieldNat_two h.external.1 h.external.2
  have tbc : fieldNat c.cc 3 2 = 0 := fieldNat_two h.count.1 h.count.2
  have tmc : fieldNat c.cc 0 2 = 0 := by
    rw [fieldNat, pow_zero, Nat.div_one]
    exact h.compare
  simp [IopChan.termination, single, tx, tbc, tmc, maxOffset]

end Conditions

/-! ### The read bus cycle (48_vm89_iop.md R671) -/

/-- The channel between the two bus cycles: it holds the byte. -/
def holding (c : IopChan) (b : Byte) : IopChan := { c with held := [b], cycle := some byteCycle }

/-- The state after the read. -/
def afterRead (s : State) (n : ChanNo) (b : Byte) : State :=
  { s with iop := { s.iop.setChan n (holding (s.iop.chan n) b) with
      cur := n, lockOut := s.iop.lockOut || bit (s.iop.chan n).cc 9 } }

theorem iopTransfer_read {s : State} {n : ChanNo} (h : Plain (s.iop.chan n).psw (s.iop.chan n).cc)
    (wid : (s.iop.chan n).widDone = true) (fresh : (s.iop.chan n).cycle = none) (empty : (s.iop.chan n).held = [])
    (ram : s.cellKind (s.iop.chan n).src.1 (iopCell (s.iop.chan n).src.1 (s.iop.chan n).src.2) = .ram) :
    s.iopTransfer n = .next (afterRead s n
      (s.cellByte (s.iop.chan n).src.1 (iopCell (s.iop.chan n).src.1 (s.iop.chan n).src.2))) := by
  generalize hc : s.iop.chan n = c at *
  let r : State := { s with iop := { s.iop with cur := n } }
  have chan : r.ch = c := by
    rw [← hc]
    cases n <;> rfl
  have read : r.iopRead8 c.src.1 c.src.2 = (s.cellByte c.src.1 (iopCell c.src.1 c.src.2), r) :=
    State.iopRead8_memory r (Or.inl ram)
  have offset : (if c.srcSteps = true then c.held.length else 0) = 0 := by rw [empty]; exact ite_self 0
  have translate : ∀ b, r.iopTranslate b = (b, r) := fun b => by
    rw [State.iopTranslate, chan, bit, h.translate]
    rfl
  have bus : r.iopXferRead byteCycle =
      r.setCh (holding c (s.cellByte c.src.1 (iopCell c.src.1 c.src.2))) := by
    rw [State.iopXferRead, chan, offset, Nat.add_zero, read]
    dsimp only
    rw [translate, chan, empty]
    rfl
  have run : s.iopTransfer n = .next { r.iopXferRead byteCycle with
      iop := { (r.iopXferRead byteCycle).iop with
        lockOut := (r.iopXferRead byteCycle).iop.lockOut || bit c.cc 9 } } := by
    unfold State.iopTransfer
    dsimp only
    rw [chan, fresh]
    dsimp only
    rw [cycleRefusal_byte h _ wid, newCycle_byte h]
  rw [run, bus, afterRead, hc]
  cases n <;> rfl

/-! ### The write bus cycle and the end (R672, R678) -/

theorem iopTransfer_write {t : State} {c : IopChan} {b : Byte} (h : Plain c.psw c.cc) (going : c.suspending = false)
    (chan : t.ch = holding c b) :
    ∃ u, t.iopTransfer t.iop.cur = .next u ∧ t.CellsStored u c.dst.1 1 c.dst.2 b.toNat ∧
      (u.iop.chan t.iop.cur).core = (c.step 1).core := by
  obtain ⟨calm, stored⟩ := t.iopWrite8_spec c.dst.1 c.dst.2 b
  let w := t.iopWrite8 c.dst.1 c.dst.2 b
  let e : IopChan := { w.ch with cycle := some { byteCycle with written := 1 } }
  have same : w.ch.core = (holding c b).core := chan ▸ calm.ch
  have stepped : (e.step 1).core = (c.step 1).core :=
    congrArg (fun d : IopChan => ({ d with cycle := some { byteCycle with written := 1 } } : IopChan).step 1) same
  have next : t.ch.writesNext = true := by rw [chan]; rfl
  have offset : (if c.dstSteps = true then byteCycle.written else 0) = 0 := ite_self 0
  have bus : t.iopXferWrite byteCycle = w.setCh e := by
    rw [State.iopXferWrite, chan]
    dsimp only
    rw [show (holding c b).dstSteps = c.dstSteps from rfl, offset]
    rfl
  have plain : Plain (e.step 1).psw (e.step 1).cc := by
    have psw := congrArg IopChan.psw stepped
    have cc := congrArg IopChan.cc stepped
    change (e.step 1).psw = c.psw at psw
    change (e.step 1).cc = c.cc at cc
    rwa [psw, cc]
  have ends : (w.setCh e).iopXferEnd byteCycle = (w.setCh e).setCh (e.step 1) := by
    rw [State.iopXferEnd, ch_setCh, show byteCycle.size = 1 from rfl, termination_byte plain]
  have done : (w.setCh e).iopCycleDone byteCycle = (w.setCh e).setCh (e.step 1) := by
    have stays : (e.step 1).suspending = false := (congrArg IopChan.suspending stepped).trans going
    rw [State.iopCycleDone, ends, ch_setCh, stays]
    rfl
  have run : t.iopTransfer t.iop.cur = .next ((w.setCh e).setCh (e.step 1)) := by
    have cycle : t.ch.cycle = some byteCycle := by rw [chan]; rfl
    have cycle' : (w.setCh e).ch.cycle = some { byteCycle with written := 1 } := by rw [ch_setCh]
    have here : ({ t with iop := { t.iop with cur := t.iop.cur } } : State) = t := rfl
    unfold State.iopTransfer
    dsimp only
    rw [here, cycle]
    dsimp only
    rw [next, bus, if_pos rfl, cycle', ← done]
    rfl
  have cur : w.iop.cur = t.iop.cur := cur_of_calm calm
  refine ⟨_, run, stored, ?_⟩
  rw [← cur, State.setCh_iop, State.setCh_iop, cur_setChan, chan_setChan]
  exact stepped

/-- The pointers after a cycle of one byte, by the channel's direction (R672). -/
theorem step_pointers (c : IopChan) :
    (c.srcIsGb = false →
      (c.step 1).ga = (if c.srcSteps = true then c.ga + 1#20 else c.ga) ∧
      (c.step 1).gb = (if c.dstSteps = true then c.gb + 1#20 else c.gb)) ∧
    (c.srcIsGb = true →
      (c.step 1).gb = (if c.srcSteps = true then c.gb + 1#20 else c.gb) ∧
      (c.step 1).ga = (if c.dstSteps = true then c.ga + 1#20 else c.ga)) := by
  constructor <;> intro direction <;> simp [IopChan.step, direction]

/-- The channel after the cycle, field by field. -/
theorem step_spec {c d : IopChan} (same : d.core = (c.step 1).core) :
    d.bc = c.bc - 1#16 ∧ d.cycle = none ∧ d.held = [] ∧ d.activity = c.activity ∧ d.psw = c.psw ∧ d.tp = c.tp ∧
      (c.srcIsGb = false →
        d.ga = (if c.srcSteps = true then c.ga + 1#20 else c.ga) ∧
        d.gb = (if c.dstSteps = true then c.gb + 1#20 else c.gb)) ∧
      (c.srcIsGb = true →
        d.gb = (if c.srcSteps = true then c.gb + 1#20 else c.gb) ∧
        d.ga = (if c.dstSteps = true then c.ga + 1#20 else c.ga)) := by
  have ga : d.ga = (c.step 1).ga := reg_eq same .ga
  have gb : d.gb = (c.step 1).gb := reg_eq same .gb
  have bc := congrArg IopChan.bc same
  have cycle := congrArg IopChan.cycle same
  have held := congrArg IopChan.held same
  have activity := congrArg IopChan.activity same
  have psw := congrArg IopChan.psw same
  have tp := congrArg IopChan.tp same
  rw [ga, gb]
  exact ⟨bc, cycle, held, activity, psw, tp, step_pointers c⟩

/-- Settles O57: the read holds the byte, the write stores it, and the end steps the channel. -/
theorem transferCycleCopiesAByte : Obligations.TransferCycleCopiesAByte := by
  intro s n c source dest wid fresh going empty widths translate syn compare tbc0 tbc1 tx0 tx1 single ramSource ramDest
  have plain : Plain c.psw c.cc := ⟨widths, translate, syn, compare, ⟨tbc0, tbc1⟩, ⟨tx0, tx1⟩, single⟩
  have read := iopTransfer_read (s := s) (n := n) plain wid fresh empty ramSource
  let t := afterRead s n (s.cellByte c.src.1 source)
  have chan : t.ch = holding c (s.cellByte c.src.1 source) := by
    cases n <;> rfl
  obtain ⟨u, write, ⟨rest, bytes⟩, same⟩ := iopTransfer_write (t := t) plain going chan
  have byte := bytes 0 (by decide)
  have ram : t.cellKind c.dst.1 (iopCell c.dst.1 (c.dst.2 + 0)) = .ram := ramDest
  rw [if_pos ram, pow_zero, Nat.div_one, BitVec.ofNat_toNat, BitVec.setWidth_eq] at byte
  refine ⟨t, u, read, fun _ _ => rfl, write, byte, fun io x other => rest io x fun here k hk => ?_, step_spec same⟩
  obtain rfl : k = 0 := by omega
  exact other here

end Sys2Proof.Certificates.TransferCycle

/-! SUPPORT and CERTIFICATE. Which channel of a VT37 is served, where the bus goes, and what a cycle does. -/

namespace Sys2Proof.Certificates.DmaCycle

open Sys2Proof.Machine

/-! ### Priorities (49_platform_devices.md R746) -/

/-- The four channels in falling priority, from `first` on. -/
def rotation (first : BitVec 2) : List ℕ := (List.range 4).map fun i => (first + BitVec.ofNat 2 i).toNat

theorem order_fixed {d : Vt37} (h : d.cr.getLsbD 4 = false ∨ d.lastServed = none) : d.order = rotation 0#2 := by
  have fixed : rotation 0#2 = [0, 1, 2, 3] := by decide
  rw [fixed, Vt37.order]
  split
  · next last => exact if_neg (by rw [bit, h.resolve_right (by rw [last]; exact nofun)]; decide)
  · rfl

theorem order_rotating {d : Vt37} {l : BitVec 2} (turns : d.cr.getLsbD 4 = true) (last : d.lastServed = some l) :
    d.order = rotation (l + 1#2) := by
  have turned : ∀ k : BitVec 2,
      [(k.toNat + 1) % 4, (k.toNat + 2) % 4, (k.toNat + 3) % 4, k.toNat] = rotation (k + 1#2) := by
    decide
  rw [Vt37.order, last, bit, turns]
  exact turned l

theorem order_rotation (d : Vt37) : ∃ first, d.order = rotation first := by
  cases last : d.lastServed with
  | none => exact ⟨_, order_fixed (Or.inr last)⟩
  | some l =>
    cases turns : d.cr.getLsbD 4 with
    | false => exact ⟨_, order_fixed (Or.inl turns)⟩
    | true => exact ⟨_, order_rotating turns last⟩

/-- Every channel has its place in the order. -/
theorem place_of_channel (first m : BitVec 2) : first + BitVec.ofNat 2 (m - first).toNat = m := by
  revert first m
  decide

/-- The first of the order that asks. -/
theorem find_rotation {p : ℕ → Bool} {first : BitVec 2} {k : ℕ} (h : (rotation first).find? p = some k) :
    p k = true ∧ k < 4 ∧ ∀ m : BitVec 2, (m - first).toNat < (BitVec.ofNat 2 k - first).toNat → p m.toNat = false := by
  rw [rotation, List.find?_map, Option.map_eq_some_iff] at h
  obtain ⟨i, found, rfl⟩ := h
  obtain ⟨asks, -, before⟩ := List.find?_range_eq_some.mp found
  refine ⟨asks, (first + BitVec.ofNat 2 i).isLt, fun m less => ?_⟩
  have place : (BitVec.ofNat 2 (first + BitVec.ofNat 2 i).toNat - first).toNat ≤ i := by
    rw [BitVec.ofNat_toNat, BitVec.setWidth_eq, BitVec.add_comm, BitVec.add_sub_cancel, BitVec.toNat_ofNat]
    exact Nat.mod_le _ _
  have quiet := before (m - first).toNat (by omega)
  rw [Function.comp, place_of_channel] at quiet
  simpa using quiet

theorem find_rotation_none {p : ℕ → Bool} {first : BitVec 2} :
    (rotation first).find? p = none ↔ ∀ m, m < 4 → p m = false := by
  rw [List.find?_eq_none]
  constructor
  · intro none m hm
    have place : m ∈ rotation first := by
      refine List.mem_map.mpr ⟨(BitVec.ofNat 2 m - first).toNat, List.mem_range.mpr (BitVec.isLt _), ?_⟩
      rw [place_of_channel, BitVec.toNat_ofNat, Nat.mod_eq_of_lt hm]
    exact Bool.eq_false_iff.mpr (none m place)
  · intro none k mem
    obtain ⟨i, -, rfl⟩ := List.mem_map.mp mem
    exact Bool.eq_false_iff.mp (none _ (BitVec.isLt _))

theorem sub_next (x l : BitVec 2) : x - (l + 1#2) = x - l - 1#2 := by
  revert x l
  decide

section Winner

variable {d : Vt37}

theorem winner_none_iff : d.winner = none ↔ ∀ m, m < 4 → d.pending m = false := by
  obtain ⟨first, order⟩ := order_rotation d
  rw [← find_rotation_none (first := first), ← order, Vt37.winner]
  split
  · next found => rw [found]; exact ⟨nofun, nofun⟩
  · next found => rw [found]; exact ⟨fun _ => rfl, fun _ => rfl⟩

/-- The winner is pending, and none before it in the order is. -/
theorem winner_some {n : BitVec 2} (h : d.winner = some n) {first : BitVec 2} (order : d.order = rotation first) :
    d.pending n.toNat = true ∧
      ∀ m : BitVec 2, (m - first).toNat < (n - first).toNat → d.pending m.toNat = false := by
  rw [Vt37.winner, order] at h
  split at h
  · next k found =>
    obtain ⟨asks, small, before⟩ := find_rotation found
    obtain rfl : BitVec.ofNat 2 k = n := Option.some.inj h
    rw [BitVec.toNat_ofNat, Nat.mod_eq_of_lt small]
    exact ⟨asks, before⟩
  · cases h

end Winner

/-- When a controller looks at its requests, and whom it serves. -/
theorem settle_spec (d : Vt37) :
    (d.chosen = none → d.settle = { d with chosen := d.winner }) ∧
    (∀ n : BitVec 2, d.chosen = some n → d.pending n.toNat = true → d.settle = d) ∧
    (d.winner = none ↔ ∀ m, m < 4 → d.pending m = false) ∧
    ∀ n : BitVec 2, d.winner = some n → d.pending n.toNat = true ∧
      (d.cr.getLsbD 4 = false ∨ d.lastServed = none → ∀ m, m < n.toNat → d.pending m = false) ∧
      (∀ l : BitVec 2, d.cr.getLsbD 4 = true → d.lastServed = some l →
        ∀ m : BitVec 2, (m - l - 1#2).toNat < (n - l - 1#2).toNat → d.pending m.toNat = false) := by
  refine ⟨fun none => ?_, fun n chosen asks => ?_, winner_none_iff, fun n wins => ⟨?_, fun fixed m less => ?_, ?_⟩⟩
  · rw [Vt37.settle, Vt37.resolve, none]
  · have same : d.resolve = d.chosen := by
      rw [Vt37.resolve, chosen]
      exact if_pos asks
    rw [Vt37.settle, same]
  · obtain ⟨first, order⟩ := order_rotation d
    exact (winner_some wins order).1
  · have quiet := (winner_some wins (order_fixed fixed)).2 (BitVec.ofNat 2 m)
    have small : m < 4 := less.trans n.isLt
    rw [BitVec.sub_zero, BitVec.sub_zero, BitVec.toNat_ofNat, Nat.mod_eq_of_lt small] at quiet
    exact quiet less
  · intro l turns last m less
    exact (winner_some wins (order_rotating turns last)).2 m (by rwa [sub_next, sub_next])

/-! ### Where the bus goes (R742, R734) -/

theorem length_wireHrq (u : ℕ) (cs : List Cascade) (ds : List Vt37) : (wireHrq u cs ds).length = ds.length := by
  induction cs generalizing u with
  | nil => rfl
  | cons c rest ih => rw [wireHrq, List.length_modify, ih]

theorem length_dmacs (s : State) : s.dmacs.length = s.cascaded.length + 1 := by
  rw [State.dmacs, length_wireHrq]
  split
  · rw [List.length_modify, List.length_cons]
  · rw [List.length_cons]

/-- A controller that has left SI is there. -/
theorem fits_of_chosen {s : State} {u : ℕ} {n : BitVec 2} (h : (s.dma u).chosen = some n) :
    u ≤ s.cascaded.length := by
  by_contra beyond
  rw [State.dma, List.getD_eq_default _ _ (by rw [length_dmacs]; omega)] at h
  cases h

section Pass

variable (s : State) (u : ℕ)

/-- The controller after it has begun to serve channel `n`. -/
def served (d : Vt37) (n : BitVec 2) : Vt37 :=
  { d with lastServed := some n, chosen := none, dack := setBit d.dack n.toNat true,
           yield := !d.movesMemory n && decide ((d.ch.get n).dmaMode = .single) }

theorem dmaServe_eq (n : BitVec 2) : s.dmaServe u n = s.setDmac u (served (s.dma u) n) := rfl

variable {u} in
theorem dmac_dmaServe (fits : u ≤ s.cascaded.length) (n : BitVec 2) :
    (s.dmaServe u n).dmac u = served (s.dma u) n := by
  rw [dmaServe_eq, State.dmac_setDmac _ _ _ _ fits, if_pos rfl]

/-- The bit of a channel set, and the bits of the others. -/
theorem setBit_true_channel (v : BitVec 4) (n m : BitVec 2) :
    (setBit v n.toNat true).getLsbD m.toNat = (v.getLsbD m.toNat || m == n) := by
  rw [setBit_getLsbD _ _ _ _ (by omega)]
  by_cases same : m = n
  · rw [if_pos (congrArg BitVec.toNat same), same, beq_self_eq_true, Bool.or_true]
  · rw [if_neg fun h => same (BitVec.eq_of_toNat_eq h), beq_false_of_ne same, Bool.or_false]

theorem setBit_false_channel (v : BitVec 4) (n m : BitVec 2) :
    (setBit v n.toNat false).getLsbD m.toNat = (v.getLsbD m.toNat && !(m == n)) := by
  rw [setBit_getLsbD _ _ _ _ (by omega)]
  by_cases same : m = n
  · rw [if_pos (congrArg BitVec.toNat same), same, beq_self_eq_true, Bool.not_true, Bool.and_false]
  · rw [if_neg fun h => same (BitVec.eq_of_toNat_eq h), beq_false_of_ne same, Bool.not_false, Bool.and_true]

theorem dack_served (d : Vt37) (n i : BitVec 2) :
    (served d n).dack.getLsbD i.toNat = (d.dack.getLsbD i.toNat || i == n) := setBit_true_channel d.dack n i

/-- The pin DACK of the channel in service follows CR bit 7, once a command has been loaded. -/
theorem dackPin_served (d : Vt37) (n : BitVec 2) : (served d n).dackPin n = (!d.dackZero && d.cr.getLsbD 7) := by
  have active : bit (served d n).dack n.toNat = true := by
    rw [bit, dack_served, beq_self_eq_true, Bool.or_true]
  rw [Vt37.dackPin, active]
  change (!d.dackZero && (true == d.cr.getLsbD 7)) = _
  cases d.cr.getLsbD 7 <;> rfl

/-- The bus stays with a controller whose channel in service is no cascade, or does not show its DACK at 1. -/
theorem dmaPass_stays {n : BitVec 2} (chosen : (s.dma u).chosen = some n)
    (h : ((s.dma u).ch.get n).dmaMode ≠ .cascade ∨ (s.dma u).cr.getLsbD 7 = false) (v : ℕ) (cs : List Cascade) :
    s.dmaPass u v cs = (u, s) := by
  induction cs generalizing v with
  | nil => rfl
  | cons c rest ih =>
    have passes : ¬(c.parent = u && (s.dma u).chosen == some c.channel &&
        ((s.dma u).ch.get c.channel).dmaMode = .cascade && !(s.dma u).movesMemory c.channel &&
        ((s.dmaServe u c.channel).dmac u).dackPin c.channel) = true := by
      intro all
      simp only [Bool.and_eq_true, decide_eq_true_eq, beq_iff_eq] at all
      obtain ⟨⟨⟨⟨-, same⟩, cascade⟩, -⟩, pin⟩ := all
      obtain rfl : n = c.channel := Option.some.inj (chosen.symm.trans same)
      rw [dmac_dmaServe s (fits_of_chosen chosen), dackPin_served, Bool.and_eq_true] at pin
      obtain other | low := h
      · exact other cascade
      · exact absurd (low.symm.trans pin.2) nofun
    rw [State.dmaPass]
    exact (if_neg passes).trans (ih (v + 1))

/-- It goes through the DACK of a cascade channel to the first controller wired there. -/
theorem dmaPass_through {n : BitVec 2} (chosen : (s.dma u).chosen = some n)
    (cascade : ((s.dma u).ch.get n).dmaMode = .cascade) (ordinary : (s.dma u).cr.getLsbD 0 = false)
    (high : (s.dma u).cr.getLsbD 7 = true) (loaded : (s.dma u).dackZero = false) {cs : List Cascade} {j v : ℕ}
    {c : Cascade} (at_ : cs[j]? = some c) (parent : c.parent = u) (channel : c.channel = n)
    (first : ∀ i e, i < j → cs[i]? = some e → e.parent = u → e.channel ≠ n) :
    s.dmaPass u v cs = (s.dmaServe u n).dmaPass (v + j) (v + j + 1) (cs.drop (j + 1)) := by
  induction cs generalizing j v with
  | nil => cases at_
  | cons e rest ih =>
    rw [State.dmaPass]
    cases j with
    | zero =>
      obtain rfl : e = c := Option.some.inj at_
      subst channel
      have pin : ((s.dmaServe u e.channel).dmac u).dackPin e.channel = true := by
        rw [dmac_dmaServe s (fits_of_chosen chosen), dackPin_served, loaded, high]
        rfl
      have moves : (s.dma u).movesMemory e.channel = false := by
        rw [Vt37.movesMemory, bit, ordinary, Bool.false_and]
      refine if_pos ?_
      rw [pin, moves, chosen, decide_eq_true parent, decide_eq_true cascade, beq_self_eq_true]
      rfl
    | succ j =>
      have skips : ¬(e.parent = u ∧ e.channel = n) := fun ⟨same, wired⟩ => first 0 e (by omega) rfl same wired
      have tail := ih (j := j) (v := v + 1) at_ fun i x less found => first (i + 1) x (by omega) found
      have shift : v + 1 + j = v + (j + 1) := by omega
      rw [shift] at tail
      refine (if_neg fun all => skips ?_).trans tail
      simp only [Bool.and_eq_true, decide_eq_true_eq, beq_iff_eq] at all
      obtain ⟨⟨⟨⟨same, wired⟩, -⟩, -⟩, -⟩ := all
      exact ⟨same, (Option.some.inj (chosen.symm.trans wired)).symm⟩

end Pass

/-- The bus goes to the first controller, or through it to one wired to its cascade channel. -/
theorem dmaGrant_spec (s : State) (n : BitVec 2) (k : ℕ) (eop : Bool) (data : List Byte)
    (chosen : (s.dma 0).chosen = some n) :
    (((s.dma 0).ch.get n).dmaMode ≠ .cascade ∨ (s.dma 0).cr.getLsbD 7 = false →
      s.dmaGrant k eop data = s.dmaRun 0 k eop data) ∧
    (∀ j c m, ((s.dma 0).ch.get n).dmaMode = .cascade → (s.dma 0).cr.getLsbD 0 = false →
      s.plat.cascades[j]? = some c → c.parent = 0 → c.channel = n → (s.dma 0).cr.getLsbD 7 = true →
      (s.dma 0).dackZero = false →
      (∀ i e, i < j → s.plat.cascades[i]? = some e → e.parent = 0 → e.channel ≠ n) →
      ((s.dmaServe 0 n).dma (j + 1)).chosen = some m →
      (((s.dmaServe 0 n).dma (j + 1)).ch.get m).dmaMode ≠ .cascade →
      s.dmaGrant k eop data = (s.dmaServe 0 n).dmaRun (j + 1) k eop data ∧
        (s.dmaServe 0 n).vt37 = { s.dma 0 with
          lastServed := some n, chosen := none, dack := (s.dmaServe 0 n).vt37.dack, yield := false } ∧
        ∀ i : BitVec 2, (s.dmaServe 0 n).vt37.dack.getLsbD i.toNat = ((s.dma 0).dack.getLsbD i.toNat || i == n)) := by
  refine ⟨fun h => ?_, fun j c m cascade ordinary at_ parent channel high loaded first chosen' mode => ⟨?_, ?_, ?_⟩⟩
  · rw [State.dmaGrant, dmaPass_stays s 0 chosen h]
  · rw [State.dmaGrant, dmaPass_through s 0 chosen cascade ordinary high loaded at_ parent channel first,
      Nat.add_comm 1 j, dmaPass_stays _ _ chosen' (Or.inl mode)]
  · have moves : (!(s.dma 0).movesMemory n && decide (((s.dma 0).ch.get n).dmaMode = .single)) = false := by
      rw [cascade]
      exact Bool.and_false _
    rw [dmaServe_eq, State.setDmac_vt37, if_pos rfl, served, moves]
  · exact fun i => dack_served (s.dma 0) n i


/-! ### One cycle (R741, R743, R747, R748) -/

theorem get_set {α : Type} (b : Bank4 α) (i j : BitVec 2) (x : α) :
    (b.set i x).get j = if j = i then x else b.get j := by
  have all : ∀ k : BitVec 2, k = 0 ∨ k = 1 ∨ k = 2 ∨ k = 3 := by decide
  rcases all i with rfl | rfl | rfl | rfl <;> rcases all j with rfl | rfl | rfl | rfl <;> rfl

/-- All that a cycle of controller `u` leaves as it is. -/
structure Beside (s t : State) (u : ℕ) : Prop where
  cpu : t.cpu.core = s.cpu.core
  fpu : s.SameFpu t
  iop : t.iop.core = s.iop.core
  io : s.SameIo t
  env : t.env = s.env
  plat : t.plat = s.plat
  vi54 : t.vi54 = s.vi54
  vg72 : t.vg72 = s.vg72
  ru55 : t.ru55 = s.ru55
  rf55 : t.rf55 = s.rf55
  others : ∀ w, w ≠ u → t.dmac w = s.dmac w
  number : t.cascaded.length = s.cascaded.length

section Frames

variable {s t r : State} {u : ℕ}

theorem beside_refl (s : State) (u : ℕ) : Beside s s u :=
  ⟨rfl, ⟨rfl, rfl⟩, rfl, ⟨rfl, rfl⟩, rfl, rfl, rfl, rfl, rfl, rfl, fun _ _ => rfl, rfl⟩

theorem beside_trans (h : Beside s t u) (g : Beside t r u) : Beside s r u :=
  ⟨g.cpu.trans h.cpu, ⟨g.fpu.1.trans h.fpu.1, g.fpu.2.trans h.fpu.2⟩, g.iop.trans h.iop,
    ⟨g.io.1.trans h.io.1, g.io.2.trans h.io.2⟩, g.env.trans h.env, g.plat.trans h.plat, g.vi54.trans h.vi54,
    g.vg72.trans h.vg72, g.ru55.trans h.ru55, g.rf55.trans h.rf55,
    fun w other => (g.others w other).trans (h.others w other), g.number.trans h.number⟩

theorem beside_setDmac (fits : u ≤ s.cascaded.length) (d : Vt37) : Beside s (s.setDmac u d) u := by
  refine ⟨congrArg Cpu.core (State.setDmac_cpu ..), ⟨State.setDmac_fpu .., State.setDmac_run ..⟩,
    congrArg Iop.core (State.setDmac_iop ..), ⟨State.setDmac_iomem .., State.setDmac_remote ..⟩,
    State.setDmac_env .., State.setDmac_plat .., State.setDmac_vi54 .., State.setDmac_vg72 .., State.setDmac_ru55 ..,
    State.setDmac_rf55 ..,
    fun w other => by rw [State.dmac_setDmac _ _ _ _ fits, if_neg other], ?_⟩
  rw [State.setDmac_cascaded]
  split
  · rfl
  · rw [List.length_set]

theorem setDmac_setDmac (s : State) (u : ℕ) (d e : Vt37) : (s.setDmac u d).setDmac u e = s.setDmac u e := by
  cases u with
  | zero => rfl
  | succ k => exact congrArg (fun l => { s with cascaded := l }) (List.set_set ..)

/-- A read cycle of the VT37: the byte of memory, and no effect (R748). -/
theorem dmaRead8_spec (s : State) (u a : ℕ) :
    Beside s (s.dmaRead8 a).2 u ∧ (s.dmaRead8 a).2.dmac u = s.dmac u ∧ (s.dmaRead8 a).2.mem = s.mem ∧
      (s.isMemory a = true → (s.dmaRead8 a).1 = s.byteAt a) := by
  rw [State.dmaRead8, State.isMemory, State.isRam, State.isRom]
  split
  · exact ⟨beside_refl s u, rfl, rfl, fun _ => rfl⟩
  · exact ⟨beside_refl s u, rfl, rfl, fun _ => rfl⟩
  · next noRam noRom =>
    refine ⟨⟨rfl, ⟨rfl, rfl⟩, rfl, ⟨rfl, rfl⟩, rfl, rfl, rfl, rfl, rfl, rfl, fun _ _ => by cases u <;> rfl, rfl⟩,
      by cases u <;> rfl, rfl, fun memory => ?_⟩
    simp only [Bool.or_eq_true, beq_iff_eq] at memory
    exact memory.elim (fun h => absurd h noRam) (fun h => absurd h noRom)

/-- A write cycle of the VT37 stores in RAM alone (R748). -/
theorem dmaWrite8_spec (s : State) (u a : ℕ) (v : Byte) :
    Beside s (s.dmaWrite8 a v) u ∧ (s.dmaWrite8 a v).dmac u = s.dmac u ∧
      (s.isRam a = true → (s.dmaWrite8 a v).byteAt a = v) ∧
      ∀ x, x ≠ a → (s.dmaWrite8 a v).byteAt x = s.byteAt x := by
  rw [State.dmaWrite8, State.isRam]
  split
  · exact ⟨⟨Cpu.core_noteStore _ _ _ _, ⟨rfl, rfl⟩, Iop.core_noteStore _ _ _ _, ⟨rfl, rfl⟩, rfl, rfl, rfl, rfl, rfl,
      rfl, fun w _ => by cases w <;> rfl, rfl⟩, by cases u <;> rfl, fun _ => Memory.get_put_same _ _ _,
      fun x other => Memory.get_put_ne _ _ other⟩
  · next noRam =>
    exact ⟨beside_refl s u, rfl, fun ram => absurd (beq_iff_eq.mp ram) noRam, fun _ _ => rfl⟩

end Frames

/-- The bytes of a cycle: what memory and the device get (R741, R743). -/
theorem dmaMove_spec {s : State} {u : ℕ} {n : BitVec 2} (fits : u ≤ s.cascaded.length)
    (other : s.servesFdc u n = false) {type : DmaType} (htype : ((s.dmac u).ch.get n).type = type) (b : Byte)
    (data : List Byte) :
    let m := (s.dmaMove u n (b :: data)).2
    let a := s.dmaAddr u n
    Beside s m u ∧ (∃ given, m.dmac u = { s.dmac u with given := given } ∧
      (type ≠ .read → given = (s.dmac u).given) ∧
      (type = .read → ∃ x, given = (s.dmac u).given ++ [x] ∧ (s.isMemory a = true → x = s.byteAt a))) ∧
      (type = .write → s.isRam a = true → m.byteAt a = b) ∧
      ∀ x, (type = .write → x ≠ a) → m.byteAt x = s.byteAt x := by
  cases type with
  | write =>
    have move : s.dmaMove u n (b :: data) = (data, s.dmaWrite8 (s.dmaAddr u n) b) := by
      rw [State.dmaMove, htype, State.dmaTake, other]
      rfl
    obtain ⟨beside, same, stored, rest⟩ := dmaWrite8_spec s u (s.dmaAddr u n) b
    rw [move]
    exact ⟨beside, ⟨_, same, fun _ => rfl, nofun⟩, fun _ => stored, fun x h => rest x (h rfl)⟩
  | read =>
    obtain ⟨beside, same, mem, value⟩ := dmaRead8_spec s u (s.dmaAddr u n)
    have still : (s.dmaRead8 (s.dmaAddr u n)).2.servesFdc u n = false := by
      rw [State.servesFdc, beside.plat]
      exact other
    have move : (s.dmaMove u n (b :: data)).2 = (s.dmaRead8 (s.dmaAddr u n)).2.setDmac u
        { s.dmac u with given := (s.dmac u).given ++ [(s.dmaRead8 (s.dmaAddr u n)).1] } := by
      rw [State.dmaMove, htype]
      dsimp only
      rw [State.dmaGive, still, same]
      rfl
    have fits' : u ≤ (s.dmaRead8 (s.dmaAddr u n)).2.cascaded.length := by rw [beside.number]; exact fits
    rw [move]
    refine ⟨beside_trans beside (beside_setDmac fits' _), ⟨_, ?_, nofun, fun _ => ⟨_, rfl, value⟩⟩, nofun,
      fun x _ => ?_⟩
    · rw [State.dmac_setDmac _ _ _ _ fits', if_pos rfl]
    · rw [State.byteAt, State.setDmac_mem, mem, State.byteAt]
  | verify =>
    have move : s.dmaMove u n (b :: data) = (b :: data, s) := by rw [State.dmaMove, htype]
    rw [move]
    exact ⟨beside_refl s u, ⟨_, rfl, fun _ => rfl, nofun⟩, nofun, fun _ _ => rfl⟩
  | illegal =>
    have move : s.dmaMove u n (b :: data) = (b :: data, s) := by rw [State.dmaMove, htype]
    rw [move]
    exact ⟨beside_refl s u, ⟨_, rfl, fun _ => rfl, nofun⟩, nofun, fun _ _ => rfl⟩

/-- The controller after a cycle of channel `n`: address and count, and at the end the terminal count (R741, R747). -/
def cycled (d : Vt37) (n : BitVec 2) : Vt37 :=
  if (d.ch.get n).cwr = 0#16 then { (d.advance n).terminal n with eop := (d.advance n).eop || true } else d.advance n

theorem dmaEnd_eq {s : State} {u : ℕ} {n : BitVec 2} (other : s.servesFdc u n = false) (pulse : Bool) :
    s.dmaEnd u n pulse = s.setDmac u { (s.dmac u).terminal n with eop := (s.dmac u).eop || pulse } := by
  rw [State.dmaEnd, other]
  cases u <;> rfl

theorem dmaCycle_eq {s : State} {u : ℕ} {n : BitVec 2} (data : List Byte) (fits : u ≤ s.cascaded.length)
    (beside : Beside s (s.dmaMove u n data).2 u) (other : s.servesFdc u n = false) :
    (s.dmaCycle u n data).2.2 =
        (s.dmaMove u n data).2.setDmac u (cycled ((s.dmaMove u n data).2.dmac u) n) := by
  have fits' : u ≤ (s.dmaMove u n data).2.cascaded.length := by rw [beside.number]; exact fits
  rw [State.dmaCycle, cycled]
  generalize s.dmaMove u n data = m at *
  have other' : (m.2.setDmac u ((m.2.dmac u).advance n)).servesFdc u n = false := by
    rw [State.servesFdc, State.setDmac_plat, beside.plat]
    exact other
  have here : (m.2.setDmac u ((m.2.dmac u).advance n)).dmac u = (m.2.dmac u).advance n := by
    rw [State.dmac_setDmac _ _ _ _ fits', if_pos rfl]
  dsimp only
  split
  · rw [dmaEnd_eq other', here, setDmac_setDmac]
  · rfl

/-- A grant in single mode is one cycle, after the channel has been served (R742). -/
theorem dmaRun_single {s : State} {u : ℕ} {n : BitVec 2} {c : DmaChan} (hc : (s.dma u).ch.get n = c)
    (chosen : (s.dma u).chosen = some n) (ordinary : (s.dma u).cr.getLsbD 0 = false) (single : c.dmaMode = .single)
    (legal : c.type ≠ .illegal) (here : (s.dmaServe u n).dmac u = served (s.dma u) n) (k : ℕ) (data : List Byte) :
    s.dmaRun u k false data = .next ((s.dmaServe u n).dmaCycle u n data).2.2 := by
  have moves : (s.dma u).movesMemory n = false := by
    rw [Vt37.movesMemory, bit, ordinary, Bool.false_and]
  have mode : (((s.dmaServe u n).dmac u).ch.get n).dmaMode = .single := by
    rw [here]
    exact hc ▸ single
  rw [State.dmaRun, chosen]
  dsimp only
  rw [moves, hc, single, if_neg nofun, if_neg nofun, if_neg legal]
  simp only [Bool.false_eq_true, if_false, State.dmaCycles, mode, reduceCtorEq, decide_false, Bool.false_and]
  split <;> rfl

/-- The address and the count after a cycle that is not the last. -/
def movedOn (c : DmaChan) : DmaChan := { c with car := c.nextCar, cwr := c.cwr - 1#16 }

section Cycled

variable {d : Vt37} {n : BitVec 2}

theorem cycled_more (more : (d.ch.get n).cwr ≠ 0#16) :
    cycled d n = { d with ch := d.ch.set n (movedOn (d.ch.get n)) } := if_neg more

/-- At the terminal count the channel starts anew, with automatic initialisation (R747). -/
theorem cycled_last_auto (last : (d.ch.get n).cwr = 0#16) (auto : bit (d.ch.get n).mode 2 = true) :
    cycled d n = { d with
      ch := (d.ch.set n (movedOn (d.ch.get n))).set n
        { d.ch.get n with car := (d.ch.get n).bar, cwr := (d.ch.get n).wcr },
      tc := setBit d.tc n.toNat true, rr := setBit d.rr n.toNat false, eop := d.eop || true } := by
  have now : (d.advance n).ch.get n = movedOn (d.ch.get n) := (get_set _ _ _ _).trans (if_pos rfl)
  have init : ((d.advance n).ch.get n).autoInit = true := by rw [now]; exact auto
  rw [cycled, if_pos last, Vt37.terminal]
  dsimp only
  rw [if_pos init, now]
  rfl

/-- Without it the channel is masked. -/
theorem cycled_last_masked (last : (d.ch.get n).cwr = 0#16) (plain : bit (d.ch.get n).mode 2 = false) :
    cycled d n = { d with
      ch := d.ch.set n (movedOn (d.ch.get n)), tc := setBit d.tc n.toNat true, rr := setBit d.rr n.toNat false,
      mask := setBit d.mask n.toNat true, eop := d.eop || true } := by
  have now : (d.advance n).ch.get n = movedOn (d.ch.get n) := (get_set _ _ _ _).trans (if_pos rfl)
  have init : ¬((d.advance n).ch.get n).autoInit = true := by
    rw [now]
    exact Bool.eq_false_iff.mp plain
  rw [cycled, if_pos last, Vt37.terminal]
  dsimp only
  rw [if_neg init]
  rfl

end Cycled

/-- The channels and bits of a controller after a cycle. -/
theorem cycled_spec (d : Vt37) (n : BitVec 2) :
    let c := d.ch.get n
    let last : Bool := c.cwr = 0#16
    let e := cycled d n
    e.ch.get n = (if last = true ∧ bit c.mode 2 = true then { c with car := c.bar, cwr := c.wcr } else movedOn c) ∧
      (∀ m, m ≠ n → e.ch.get m = d.ch.get m) ∧
      (∀ m : BitVec 2, e.tc.getLsbD m.toNat = (d.tc.getLsbD m.toNat || (last && m == n)) ∧
        e.rr.getLsbD m.toNat = (d.rr.getLsbD m.toNat && !(last && m == n)) ∧
        e.mask.getLsbD m.toNat = (d.mask.getLsbD m.toNat || (last && m == n && !bit c.mode 2))) ∧
      e.eop = (d.eop || last) ∧ e = { d with ch := e.ch, tc := e.tc, rr := e.rr, mask := e.mask, eop := e.eop } := by
  intro c last e
  by_cases count : c.cwr = 0#16
  · have hlast : last = true := decide_eq_true count
    rw [hlast]
    cases auto : bit c.mode 2
    · rw [show e = _ from cycled_last_masked count auto]
      refine ⟨(get_set _ _ _ _).trans (if_pos rfl), fun m other => (get_set _ _ _ _).trans (if_neg other), fun m => ?_,
        rfl, rfl⟩
      rw [setBit_true_channel, setBit_false_channel, setBit_true_channel, Bool.not_false, Bool.and_true, Bool.true_and]
      exact ⟨rfl, rfl, rfl⟩
    · rw [show e = _ from cycled_last_auto count auto]
      refine ⟨(get_set _ _ _ _).trans (if_pos rfl), fun m other => ?_, fun m => ?_, rfl, rfl⟩
      · rw [get_set, if_neg other, get_set, if_neg other]
      · rw [setBit_true_channel, setBit_false_channel, Bool.not_true, Bool.and_false, Bool.or_false, Bool.true_and]
        exact ⟨rfl, rfl, rfl⟩
  · have hlast : last = false := decide_eq_false count
    rw [hlast, show e = _ from cycled_more count]
    refine ⟨(get_set _ _ _ _).trans (if_pos rfl), fun m other => (get_set _ _ _ _).trans (if_neg other), fun m => ?_,
      (Bool.or_false _).symm, rfl⟩
    simp

/-- The address of a cycle, by the page of the channel (R741, D47). -/
theorem dmaAddr_eq (s : State) (u : ℕ) (n : BitVec 2) :
    s.dmaAddr u n = (dmaPage s u n).toNat * 65536 + ((s.dmac u).ch.get n).car.toNat := by
  have all : (Bank4.all 0#4).get n = 0#4 := by
    rw [Bank4.all, Bank4.get]
    split <;> rfl
  cases u with
  | zero => rfl
  | succ k =>
    rw [State.dmaAddr, dmaPage]
    cases s.plat.cascades[k]? with
    | none => rw [all]
    | some c => rfl

/-- A cycle in single mode, from the grant on. -/
theorem dmaRun_spec (s : State) (u : ℕ) (n : BitVec 2) (k : ℕ) (b : Byte) (data : List Byte)
    (fits : u ≤ s.cascaded.length) (chosen : (s.dma u).chosen = some n) (ordinary : (s.dma u).cr.getLsbD 0 = false)
    (single : ((s.dma u).ch.get n).dmaMode = .single) (legal : ((s.dma u).ch.get n).type ≠ .illegal)
    (noFdc : s.plat.fdcDma ≠ some (u, n)) :
    let v := s.dma u
    let c := v.ch.get n
    let a := (dmaPage s u n).toNat * 65536 + c.car.toNat
    ∃ t g, s.dmaRun u k false (b :: data) = .next t ∧ Beside s t u ∧
      t.dmac u = cycled { served v n with given := g } n ∧
      (c.type = .write → s.isRam a = true → t.byteAt a = b) ∧
      (∀ x, (c.type = .write → x ≠ a) → t.byteAt x = s.byteAt x) ∧
      (c.type ≠ .read → g = v.given) ∧
      (c.type = .read → ∃ x, g = v.given ++ [x] ∧ (s.isMemory a = true → x = s.byteAt a)) := by
  intro v c a
  let t := s.dmaServe u n
  have begun : Beside s t u := beside_setDmac fits _
  have here : t.dmac u = served v n := dmac_dmaServe s fits n
  have fits' : u ≤ t.cascaded.length := begun.number.symm ▸ fits
  have other : t.servesFdc u n = false := by
    rw [State.servesFdc, begun.plat]
    exact beq_false_of_ne noFdc
  have addr : t.dmaAddr u n = a := by
    have page : dmaPage t u n = dmaPage s u n := by
      cases u <;> rfl
    rw [dmaAddr_eq, page, here]
    rfl
  have mem : t.mem = s.mem := State.setDmac_mem _ _ _
  obtain ⟨moved, ⟨g, there, same, gives⟩, stored, rest⟩ :=
    dmaMove_spec fits' other (type := c.type) (by rw [here]; rfl) b data
  rw [addr] at gives stored rest
  rw [here] at there same gives
  have run := dmaRun_single (c := c) rfl chosen ordinary single legal here k (b :: data)
  rw [dmaCycle_eq (b :: data) fits' moved other, there] at run
  have fits'' : u ≤ (t.dmaMove u n (b :: data)).2.cascaded.length := moved.number.symm ▸ fits'
  refine ⟨_, g, run, beside_trans begun (beside_trans moved (beside_setDmac fits'' _)), ?_, ?_, ?_, same, ?_⟩
  · rw [State.dmac_setDmac _ _ _ _ fits'', if_pos rfl]
  · intro write ram
    rw [State.byteAt, State.setDmac_mem]
    exact stored write (by rw [State.isRam_congr begun.plat]; exact ram)
  · intro x h
    rw [State.byteAt, State.setDmac_mem]
    exact (rest x h).trans (by rw [State.byteAt, mem, State.byteAt])
  · intro read
    obtain ⟨x, value, stands⟩ := gives read
    refine ⟨x, value, fun memory => (stands ?_).trans ?_⟩
    · rw [State.isMemory_congr begun.plat]
      exact memory
    · rw [State.byteAt, mem, State.byteAt]

/-- Settles O58: the choice of a channel, the way of the bus, and one cycle. -/
theorem dmaCycleMovesAByte : Obligations.DmaCycleMovesAByte := by
  refine ⟨settle_spec, fun s n k eop data chosen => dmaGrant_spec s n k eop data chosen, ?_⟩
  intro s u n k b data fits v c last at_ moved chosen ordinary single legal noFdc
  obtain ⟨t, g, run, beside, ctl, stored, rest, same, gives⟩ :=
    dmaRun_spec s u n k b data fits chosen ordinary single legal noFdc
  obtain ⟨channel, others, bits, eop, frame⟩ := cycled_spec { served v n with given := g } n
  rw [← ctl] at channel others bits eop frame
  have dack : (t.dmac u).dack = (served v n).dack := by rw [frame]
  have yield : (served v n).yield = true := by
    rw [served, Vt37.movesMemory, bit, ordinary, decide_eq_true single]
    rfl
  have given : (t.dmac u).given = g := by rw [frame]
  refine ⟨t, run, stored, rest, beside.cpu, beside.fpu, beside.iop, beside.io, beside.env, beside.plat, beside.vi54,
    beside.vg72, beside.ru55, beside.rf55, beside.others, channel, others, fun m => ?_, fun loaded => ?_, ?_, eop, ?_,
    fun other => given.trans (same other), fun read => ?_, ?_, ?_, ?_, ?_, ?_, ?_⟩
  · obtain ⟨tc, rr, mask⟩ := bits m
    exact ⟨tc, rr, mask, by rw [dack, dack_served]⟩
  · have pin : (t.dmac u).dackPin n = (served v n).dackPin n := by rw [frame]; rfl
    rw [pin, dackPin_served, loaded, Bool.not_false, Bool.true_and]
  · rw [frame]; rfl
  · rw [frame]; exact yield
  · rw [given]
    exact gives read
  · rw [frame]; rfl
  · rw [frame]; rfl
  · rw [frame]; rfl
  · rw [frame]; rfl
  · rw [frame]; rfl
  · rw [frame]; rfl

end Sys2Proof.Certificates.DmaCycle

/-! SUPPORT and CERTIFICATE. Mode 0 of the VI54 period by period, and what a latched count keeps. -/

namespace Sys2Proof.Certificates.TimerCounts

open Sys2Proof.Machine

/-! ### Mode 0 -/

/-- The channel counts in mode 0, in binary and with GATE = 1, and has `left` periods left. -/
def Counting (c : PitChan) (left : ℕ) : Prop :=
  c.rcw = 0x30#6 ∧ c.gate = true ∧ c.loadPending = false ∧ c.counting = true ∧ c.out = false ∧ c.fn = false ∧
    c.ce.toNat = left

/-- The count of mode 0 is over, and OUT stays 1. -/
def Over (c : PitChan) : Prop := c.rcw = 0x30#6 ∧ c.loadPending = false ∧ c.counting = false ∧ c.out = true

section Mode0

variable {c : PitChan}

theorem mode_zero (h : c.rcw = 0x30#6) : c.mode = 0 := by
  rw [PitChan.mode, h]
  rfl

theorem rw_both (h : c.rcw = 0x30#6) : c.rw = 3 := by
  rw [PitChan.rw, h]
  rfl

theorem countDown_binary (h : c.rcw = 0x30#6) (f : Word) : c.countDown f = c.ce - 1#16 := by
  rw [PitChan.countDown, PitChan.bcd, h]
  rfl

/-- A period of CLK while the channel counts. -/
theorem tick_counting {left : ℕ} (h : Counting c left) (f : Word) :
    c.tick f = if c.ce - 1#16 = 0#16 then { c with ce := c.ce - 1#16, out := true, counting := false }
      else { c with ce := c.ce - 1#16 } := by
  obtain ⟨rcw, gate, pending, counting, -⟩ := h
  simp only [PitChan.tick, mode_zero rcw, countDown_binary rcw, pending, counting, gate, Bool.false_eq_true, if_false,
    if_true]

/-- It goes on while more than one period is left. -/
theorem counting_tick {left : ℕ} (h : Counting c (left + 2)) (f : Word) : Counting (c.tick f) (left + 1) := by
  rw [tick_counting h]
  obtain ⟨rcw, gate, pending, counting, out, fn, ce⟩ := h
  have size := c.ce.isLt
  have less : (c.ce - 1#16).toNat = left + 1 := by
    rw [BitVec.toNat_sub, ce]
    change (65536 - 1 + (left + 2)) % 65536 = left + 1
    omega
  rw [if_neg fun zero => by rw [zero] at less; exact absurd less (by simp)]
  exact ⟨rcw, gate, pending, counting, out, fn, less⟩

/-- The last period raises OUT. -/
theorem over_tick_last (h : Counting c 1) (f : Word) : Over (c.tick f) := by
  rw [tick_counting h]
  obtain ⟨rcw, -, pending, -, -, -, ce⟩ := h
  have one : c.ce = 1#16 := BitVec.eq_of_toNat_eq ce
  rw [one, if_pos (by decide)]
  exact ⟨rcw, pending, rfl, rfl⟩

theorem over_tick (h : Over c) (f : Word) : Over (c.tick f) := by
  obtain ⟨rcw, pending, counting, out⟩ := h
  have stays : c.tick f = { c with ce := f } := by
    simp only [PitChan.tick, mode_zero rcw, pending, counting, out, Bool.false_eq_true, if_false, if_true]
  rw [stays]
  exact ⟨rcw, pending, counting, out⟩

theorem over_ticks (h : Over c) (unknown : List Word) : Over (unknown.foldl PitChan.tick c) := by
  induction unknown generalizing c with
  | nil => exact h
  | cons f rest ih => exact ih (over_tick h f)

/-- What some periods of CLK make of a count. -/
theorem counting_ticks {left : ℕ} (h : Counting c (left + 1)) (unknown : List Word) :
    (unknown.length ≤ left → Counting (unknown.foldl PitChan.tick c) (left + 1 - unknown.length)) ∧
      (left < unknown.length → Over (unknown.foldl PitChan.tick c)) := by
  induction unknown generalizing c left with
  | nil => exact ⟨fun _ => h, nofun⟩
  | cons f rest ih =>
    rw [List.length_cons, List.foldl_cons]
    cases left with
    | zero => exact ⟨nofun, fun _ => over_ticks (over_tick_last h f) rest⟩
    | succ left =>
      obtain ⟨early, late⟩ := ih (counting_tick h f)
      refine ⟨fun le => ?_, fun lt => late (by omega)⟩
      rw [Nat.add_sub_add_right]
      exact early (by omega)

end Mode0

/-- The first byte of a constant in mode 0 (R754). -/
theorem writeByte_first {c : PitChan} (rcw : c.rcw = 0x30#6) (start : c.writeHigh = false) (v : Byte) (f : Word) :
    c.writeByte v f =
      { c with cr := wordOf v (highByte c.cr), writeHigh := true, counting := false, loadPending := false } := by
  rw [PitChan.writeByte, rw_both rcw, start]
  exact if_pos (Or.inl (mode_zero rcw))

theorem constantDone_mode0 {c : PitChan} (rcw : c.rcw = 0x30#6) : c.constantDone =
    { c with
      fn := true, writeHigh := false, loaded := true, loadPending := true, counting := false, out := false } := by
  have mode : ({ c with fn := true, writeHigh := false, loaded := true } : PitChan).mode = 0 := mode_zero rcw
  simp only [PitChan.constantDone, mode]

/-- The second byte completes it: it is to be loaded, and OUT falls (R754, R760). -/
theorem writeByte_second {c : PitChan} (rcw : c.rcw = 0x30#6) (half : c.writeHigh = true) (v : Byte) (f : Word) :
    c.writeByte v f =
      { c with
        cr := wordOf (lowByte c.cr) v, fn := true, writeHigh := false, loaded := true, loadPending := true,
        counting := false, out := false } := by
  have whole : c.writeByte v f = ({ c with cr := wordOf (lowByte c.cr) v } : PitChan).constantDone := by
    simp only [PitChan.writeByte, rw_both rcw, half, if_true]
  exact whole.trans (constantDone_mode0 rcw)

/-- The control word 30h and the two bytes of a constant (R753, R754). -/
theorem programmed_spec (c : PitChan) (lo hi : Byte) (f g : Word) :
    let p := ((c.control 0x30#8).writeByte lo f).writeByte hi g
    p.rcw = 0x30#6 ∧ p.gate = c.gate ∧ p.loadPending = true ∧ p.out = false ∧ p.fn = true ∧ p.writeHigh = false ∧
      p.cr = wordOf lo hi := by
  have low : lowByte (wordOf lo (highByte c.cr)) = lo := lowByte_wordOf _ _
  rw [writeByte_first (c := c.control 0x30#8) rfl rfl, writeByte_second rfl rfl]
  exact ⟨rfl, rfl, rfl, rfl, rfl, rfl, congrArg (fun b => wordOf b hi) low⟩

/-- The first period of CLK loads the constant. -/
theorem counting_load {p : PitChan} (rcw : p.rcw = 0x30#6) (gate : p.gate = true) (pending : p.loadPending = true)
    (out : p.out = false) (whole : p.writeHigh = false) (f : Word) : Counting (p.tick f) p.cr.toNat := by
  have loads : p.tick f = { p.load f with loadPending := false, counting := true } := by
    simp only [PitChan.tick, mode_zero rcw, pending, if_true]
  rw [loads, PitChan.load, PitChan.constant, whole]
  exact ⟨rcw, gate, rfl, rfl, out, rfl, rfl⟩

/-! ### A latched count (R756) -/

/-- What a read of a latched count looks at. -/
def latch (c : PitChan) : BitVec 6 × Word × Bool × Bool × Bool :=
  (c.rcw, c.ol, c.countLatched, c.statusLatched, c.readHigh)

/-- CLK disturbs none of it, in any mode. -/
theorem latch_tick (c : PitChan) (f : Word) : latch (c.tick f) = latch c := by
  unfold PitChan.tick
  split <;> dsimp only <;> (repeat' split) <;> rfl

theorem latch_ticks (c : PitChan) (unknown : List Word) : latch (unknown.foldl PitChan.tick c) = latch c := by
  induction unknown generalizing c with
  | nil => rfl
  | cons f rest ih => exact (ih (c.tick f)).trans (latch_tick c f)

section Reads

variable {c : PitChan} (both : c.rw = 3) (count : c.countLatched = true) (status : c.statusLatched = false)

include both count status

theorem readByte_first (start : c.readHigh = false) (f : Word) :
    c.readByte f = (lowByte c.ol, { c with readHigh := true }) := by
  simp only [PitChan.readByte, both, count, status, start, Bool.false_eq_true, if_false, if_true]

theorem readByte_second (half : c.readHigh = true) (f : Word) :
    c.readByte f = (highByte c.ol, { c with readHigh := false, countLatched := false }) := by
  simp only [PitChan.readByte, both, count, status, half, Bool.false_eq_true, if_false, if_true]

/-- Two reads give the two bytes of a latched count and free the latch. -/
theorem reads_latched (start : c.readHigh = false) (g h : Word) :
    (c.readByte g).1 = lowByte c.ol ∧ ((c.readByte g).2.readByte h).1 = highByte c.ol ∧
      ((c.readByte g).2.readByte h).2.countLatched = false := by
  have second : ({ c with readHigh := true } : PitChan).readByte h =
      (highByte c.ol, { c with readHigh := false, countLatched := false }) :=
    readByte_second (c := { c with readHigh := true }) both count status rfl h
  rw [readByte_first both count status start, second]
  exact ⟨rfl, rfl, rfl⟩

end Reads

/-- Settles O59: mode 0 by the periods left, and the latch by what a period leaves of it. -/
theorem timerCountsAndLatches : Obligations.TimerCountsAndLatches := by
  refine ⟨fun c lo hi f g unknown => ?_, fun c f g h unknown => ?_⟩
  · obtain ⟨rcw, gate, pending, out, fn, whole, cr⟩ := programmed_spec c lo hi f g
    intro n p d open_ nonzero
    have load := counting_load rcw (gate.trans open_) pending out whole
    rw [cr] at load
    refine ⟨out, fn, ?_⟩
    obtain ⟨left, hleft⟩ : ∃ left, n = left + 1 := Nat.exists_eq_succ_of_ne_zero nonzero
    cases unknown with
    | nil => exact ⟨nofun, nofun⟩
    | cons x rest =>
      have first : Counting (p.tick x) (left + 1) := hleft ▸ load x
      obtain ⟨early, late⟩ := counting_ticks first rest
      rw [List.length_cons, hleft]
      refine ⟨fun _ le => ?_, fun lt => ?_⟩
      · obtain ⟨-, -, -, -, out', fn', ce⟩ := early (by omega)
        exact ⟨out', fn', ce.trans (by omega)⟩
      · obtain ⟨-, -, -, out'⟩ := late (by omega)
        exact out'
  · intro d both mode count status start whole
    have latched : c.latchCount f = { c with ol := c.ce, countLatched := true } := by
      simp only [PitChan.latchCount, PitChan.visible, count, start, whole, mode, Bool.false_eq_true, if_false, or_self]
    have kept : latch d = latch { c with ol := c.ce, countLatched := true } := by
      rw [← latched]
      exact latch_ticks _ _
    obtain ⟨rcw, ol, count', status', start'⟩ : d.rcw = c.rcw ∧ d.ol = c.ce ∧ d.countLatched = true ∧
        d.statusLatched = c.statusLatched ∧ d.readHigh = c.readHigh := by
      simpa only [latch, Prod.mk.injEq] using kept
    have both' : d.rw = 3 := by rw [PitChan.rw, rcw]; exact both
    have reads := reads_latched both' count' (status'.trans status) (start'.trans start) g h
    rwa [ol] at reads

end Sys2Proof.Certificates.TimerCounts

/-! SUPPORT and CERTIFICATE. What lies on the stack is popped as it was pushed: returns after calls and interrupts. -/

namespace Sys2Proof.Certificates.RoundTrips

open Sys2Proof.Machine Sys2Proof.Certificates.ControlTransfer

/-- Two neighbouring bytes of a number are its word at that place. -/
theorem wordOf_ofNat_bytes (v k : ℕ) :
    wordOf (BitVec.ofNat 8 (v / 256 ^ k)) (BitVec.ofNat 8 (v / 256 ^ (k + 1))) = BitVec.ofNat 16 (v / 256 ^ k) := by
  apply BitVec.eq_of_toNat_eq
  rw [pow_succ, ← Nat.div_div_eq_div_mul, wordOf]
  simp only [BitVec.toNat_ofNat]
  omega

/-- A word of the stack on RAM is what was stored there. -/
theorem stack_stored {s t : State} {ss sp : Word} {n v : ℕ} (stored : s.StoredAt t n (stackAddr ss sp) v)
    (ram : ∀ k, k < n → s.isRam (stackAddr ss sp k) = true) (plat : t.plat = s.plat) (hss : t.cpu.ss = ss)
    (hsp : t.cpu.sp = sp) {j : ℕ} (hj : j + 1 < n) {w : Word} (top : t.StackIs j w) :
    w = BitVec.ofNat 16 (v / 256 ^ j) := by
  obtain ⟨-, bytes, -⟩ := stored
  have memory : ∀ k, k < n → t.isMemory (stackAddr ss sp k) = true := fun k hk =>
    Registers.isMemory_of_isRam (by rw [State.isRam_congr plat]; exact ram k hk)
  rw [State.StackIs, hss, hsp] at top
  have value := top (memory j (by omega)) (memory (j + 1) hj)
  rw [value]
  dsimp only
  rw [Nat.add_zero, bytes j (by omega) (ram j (by omega)), bytes (j + 1) hj (ram (j + 1) hj), wordOf_ofNat_bytes]

/-- A word at its place in a number of several words. -/
theorem ofNat_toNat_add (x : Word) (y : ℕ) : BitVec.ofNat 16 (x.toNat + 2 ^ 16 * y) = x := by
  apply BitVec.eq_of_toNat_eq
  rw [BitVec.toNat_ofNat, Nat.add_mul_mod_self_left, Nat.mod_eq_of_lt x.isLt]

theorem second_word (x : Word) (y : ℕ) : (x.toNat + 2 ^ 16 * y) / 256 ^ 2 = y := by
  have := x.isLt
  omega

/-- RET after a near CALL (R326, R330). -/
theorem retNear_callNear (s : State) (rel : Word)
    (ram : ∀ k, k < 2 → s.isRam (stackAddr s.cpu.ss (s.cpu.sp - 2#16) k) = true) :
    ∃ t u, exec (.callNear rel) s = .next t ∧ exec .retNear t = .next u ∧ u.cpu.core = s.cpu.core := by
  obtain ⟨t, called, cpu, stored, beyond⟩ := (callsPushTheReturnAddress s).1 rel
  obtain ⟨⟨ip, popped, ⟨u, returned, cpu', -, -⟩, -⟩, -⟩ := returnsPopTheAddress t
  have now := Cpu.core_eq cpu
  have plat := Queue.plat_of_sameBeyondBus beyond
  have ipIs := stack_stored stored ram plat (by rw [now]) (by rw [now]) (by omega) popped
  rw [pow_zero, Nat.div_one, BitVec.ofNat_toNat, BitVec.setWidth_eq] at ipIs
  refine ⟨t, u, called, returned, cpu'.trans ?_⟩
  rw [ipIs, now]
  simp only [Cpu.core, BitVec.sub_add_cancel]

/-- RET after a far CALL. -/
theorem retFar_callFar (s : State) (off seg : Word)
    (ram : ∀ k, k < 4 → s.isRam (stackAddr s.cpu.ss (s.cpu.sp - 4#16) k) = true) :
    ∃ t u, exec (.callFar off seg) s = .next t ∧ exec .retFar t = .next u ∧ u.cpu.core = s.cpu.core := by
  obtain ⟨-, -, far, -⟩ := callsPushTheReturnAddress s
  obtain ⟨t, called, cpu, stored, beyond⟩ := far off seg
  obtain ⟨-, ip, cs, poppedIp, poppedCs, ⟨u, returned, cpu', -, -⟩, -⟩ := returnsPopTheAddress t
  have now := Cpu.core_eq cpu
  have plat := Queue.plat_of_sameBeyondBus beyond
  have ipIs := stack_stored stored ram plat (by rw [now]) (by rw [now]) (by omega) poppedIp
  have csIs := stack_stored stored ram plat (by rw [now]) (by rw [now]) (by omega) poppedCs
  rw [pow_zero, Nat.div_one, ofNat_toNat_add] at ipIs
  rw [second_word, BitVec.ofNat_toNat, BitVec.setWidth_eq] at csIs
  refine ⟨t, u, called, returned, cpu'.trans ?_⟩
  rw [ipIs, csIs, now]
  simp only [Cpu.core, BitVec.sub_add_cancel]

/-- IRET after the entry of an interrupt (R812, R815). -/
theorem iret_intN (s : State) (n : Byte)
    (ram : ∀ k, k < 6 → s.isRam (stackAddr s.cpu.ss (s.cpu.sp - 6#16) k) = true) :
    ∃ t u, exec (.intN n) s = .next t ∧ exec .iret t = .next u ∧ u.cpu.core = { s.cpu.core with halted := false } := by
  obtain ⟨types, -⟩ := softwareInterruptsEnter s
  obtain ⟨t, entered, fl, flags, stored, cpu, -, -, beyond⟩ := types n
  obtain ⟨ip, cs, f, poppedIp, poppedCs, poppedF, u, returned, cpu', -, -⟩ := interruptReturnPopsThreeWords t
  have now := Cpu.core_eq (d := { s.cpu with
    sp := s.cpu.sp - 6#16, f := { s.cpu.f with ifl := false, tf := false }, halted := false,
    cs := t.cpu.cs, ip := t.cpu.ip }) cpu
  have plat := Queue.plat_of_sameBeyondBus beyond
  have three : s.cpu.ip.toNat + 2 ^ 16 * s.cpu.cs.toNat + 2 ^ 32 * fl.toNat =
      s.cpu.ip.toNat + 2 ^ 16 * (s.cpu.cs.toNat + 2 ^ 16 * fl.toNat) := by ring
  rw [three] at stored
  have ss : t.cpu.ss = s.cpu.ss := by rw [now]
  have sp : t.cpu.sp = s.cpu.sp - 6#16 := by rw [now]
  have ipIs := stack_stored stored ram plat ss sp (by omega) poppedIp
  have csIs := stack_stored stored ram plat ss sp (by omega) poppedCs
  have fIs := stack_stored stored ram plat ss sp (by omega) poppedF
  rw [pow_zero, Nat.div_one, ofNat_toNat_add] at ipIs
  rw [second_word, ofNat_toNat_add] at csIs
  rw [show (256 : ℕ) ^ 4 = 256 ^ 2 * 256 ^ 2 from rfl, ← Nat.div_div_eq_div_mul, second_word, second_word,
    BitVec.ofNat_toNat, BitVec.setWidth_eq] at fIs
  refine ⟨t, u, entered, returned, cpu'.trans ?_⟩
  rw [ipIs, csIs, fIs, flags, sp, now]
  simp only [Cpu.core, BitVec.sub_add_cancel]

/-- Settles O29. -/
theorem returnUndoesEntryAndCall : Obligations.ReturnUndoesEntryAndCall := fun s =>
  ⟨iret_intN s, retNear_callNear s, retFar_callFar s⟩

end Sys2Proof.Certificates.RoundTrips
